-- ==== Sys2Proof/Word.lean ====
section
/-! DEFINITION. The word types of Lenuk and their plainest helpers. -/

namespace Sys2Proof

/-- One byte of a memory (R87). -/
abbrev Byte := BitVec 8

/-- A 32-bit register or lane word. -/
abbrev Word := BitVec 32

/-- A 64-bit SECDED word, VLF word or descriptor word. -/
abbrev DWord := BitVec 64

/-- A SECDED-protected address, a bus address or any other byte address. -/
abbrev Addr := Nat

end Sys2Proof
end

