-- ==== Sys2Proof/Syntax.lean ====
section
/-! DEFINITION. The commands of the block: one constructor of `Instr` per row of spec/opcode_table.json.
The table gives the rows no bits; the operands below are those the rules give each row.

Operand names: `f` a PCIe function (0 the manager, 1 to 8 the virtual functions, R289); `i` an instance;
`sid` a stage id; `e` a logical engine, `c` a logical column, `r` a tile row or a register of a row, `k` a core or a
table entry; `q` a device queue; `be` byte enables (R403); `v` write data; `t` the instant of the event in ns since
cold start; `host` bytes that the host has placed in its memory before the access; `z` the reserved bits of an
S-profile encoding (R188). -/

namespace Sys2Proof

/-- One 64b/66b block of a frame after its start block (R29, R31). -/
inductive Block where
  /-- A data block, one VLF word. -/
  | data (w : DWord)
  /-- Idle, type 0x1E. -/
  | idle
  /-- Start, type 0x78. -/
  | start
  /-- Terminate, type 0x87. -/
  | term
  /-- Ordered set, type 0x4B: ignored wherever it stands (R29). -/
  | ordered
  /-- Any other control block. -/
  | other
deriving DecidableEq, Repr

/-- A frame as it came in on a lane: the octets D1 to D7 of its start block, and the blocks after it up to the
block that ended the reception (the first block at or behind the declared end, or the last one received). -/
structure Frame where
  /-- The lane, 0 to 31 (inlet) or 0 to 7 (tandem). -/
  lane : Nat
  /-- The instant at which its start block arrived: INL_CTRL.enable and the lane's lock are judged there (R432). -/
  start : Nat
  /-- D1 to D7 of the start block (R31). -/
  octets : List Byte
  /-- The blocks that follow. -/
  blocks : List Block
deriving DecidableEq, Repr

/-- An edge of a ball at instant `t`: it rises, or falls. -/
structure PinEdge where
  rise : Bool
  t : Nat
deriving DecidableEq, Repr

/-- What a scrubber meets: upsets since the last scrub, each with its word and whether two bits have flipped, and the
words written whole in the cycle in which the scrubber reads them (R342). -/
structure Upsets where
  hits : List (Nat × Bool)
  rewritten : List Nat
deriving DecidableEq, Repr

/-- A device queue whose head entry a command takes; `bad`: the entry fails parity (R226). -/
structure Head where
  q : Nat
  bad : Bool
deriving DecidableEq, Repr

/-- The end of a page program at instant `t`: it has succeeded, or failed. -/
structure ProgramEnd where
  ok : Bool
  t : Nat
deriving DecidableEq, Repr

/-- The commands, one per row of the table of operations and events. -/
inductive Instr where
  /-- CADENCE_IN_EDGE (R431): An active edge on CADENCE_IN starts a pulse, the 40 ns tick delay and the sheet-width measurement. The
  edge is the active one when CAD_CTRL.in_pol selects it. -/
  | cadenceInEdge (e : PinEdge)
  /-- CADENCE_IN_PULSE_END (R431): The inactive edge ends a CADENCE_IN pulse; a pulse narrower than 10 ns is judged a glitch. -/
  | cadenceInPulseEnd (e : PinEdge)
  /-- SHEET_WIDTH_EXPIRY (R13): The pulse is still active CAD_SHEET_WIDTH ns after its edge, so it makes a sheet mark. -/
  | sheetWidthExpiry (t : Nat)
  /-- TICK (R9): A tick from the selected source (CADENCE_IN edge plus 40 ns, internal period end, or framing tick plus 40 ns) is delivered to every stage of every instance. -/
  | tick (t : Nat)
  /-- STAGE_LINE_FINISH (R19): A stage finishes its line and starts the next at once when it has slip. -/
  | stageLineFinish (i sid t : Nat)
  /-- CAD_PERIOD_WRITE (R10): A write of CAD_PERIOD in range takes effect at the next tick; out of range it is ignored and sets bad_write. -/
  | cadPeriodWrite (f : Nat) (be : BitVec 4) (v : Word)
  /-- SRC_SWITCH (R11): A write changing tick_src or sheet_src takes effect at the next tick of the old source, or at once. -/
  | srcSwitch (f : Nat) (be : BitVec 4) (v : Word) (t : Nat)
  /-- STEP (R9): CAD_CMD.step delivers one tick while disabled, else sets bad_write. -/
  | cadStep (f : Nat) (sheet : Bool) (t : Nat)
  /-- HOST_MARK (R14): CAD_CMD.sheet marks the next accepted tick of every running instance. -/
  | hostMark (f : Nat)
  /-- CAD_CLR_MAX (R17): CAD_CMD.clr_max clears CAD_BRAKE_MAX and every CAD_I_SLACK_MIN. -/
  | cadClrMax (f : Nat)
  /-- EMPTY_LIMIT_WRITE (R24): A write of CAD_I_EMPTY_LIMIT sets the limit; a write of 0 is ignored. -/
  | emptyLimitWrite (f i : Nat) (be : BitVec 4) (v : Word)
  /-- TICK_TIMEOUT (R12): No tick for CAD_TIMEOUT microseconds sets tick_timeout and logs a notice. -/
  | tickTimeout (t : Nat)
  /-- BLOCK_LOCK_LOST (R44): Loss of block lock on a lane discards the frame in progress and sets the lane event. -/
  | blockLockLost (j : Nat)
  /-- HIGH_BER (R28): 16 invalid sync headers within 125 µs report high BER on a lane. -/
  | highBer (j : Nat)
  /-- BLOCK_LOCK_GAINED (R432): A lane gains block lock and may receive frames from the next start block. -/
  | blockLockGained (j : Nat)
  /-- INVALID_BLOCK (R44): An invalid sync header or block type outside a frame increments INL_LANE_ERR. -/
  | invalidBlock (j : Nat)
  /-- VLF_FRAME (R37): A received VLF frame is judged for framing, CRC and header, then matched and held for assembly. -/
  | vlfFrame (fr : Frame) (t : Nat)
  /-- INL_LANE_EN_WRITE (R432): Clearing a lane bit stops the lane at once; setting it starts block synchronisation. -/
  | inlLaneEnWrite (f : Nat) (be : BitVec 4) (v : Word)
  /-- RESYNC (R42): INL_CMD resync empties an instance's assembly slots and clears its current line. -/
  | resync (f i : Nat)
  /-- INL_CLR (R42): INL_CMD.clr clears every INL counter. -/
  | inlClr (f : Nat)
  /-- STREAM_MAP_WRITE (R41): A stream map write takes effect at the next delivered tick. -/
  | streamMapWrite (f k r : Nat) (be : BitVec 4) (v : Word)
  /-- LOADW (R146): The engine copies bytes from a bulk window into weight SRAM. -/
  | loadw (e : Nat)
  /-- TAPSUM (R136): The engine computes a convolution as a sum of shifted tap products. -/
  | tapsum (e : Nat)
  /-- MATMUL (R140): The engine computes a matrix product without horizontal geometry. -/
  | matmul (e : Nat)
  /-- DWDIAG (R142): The engine computes a depthwise convolution in diagonal 8 × 8 blocks. -/
  | dwdiag (e : Nat)
  /-- CHAIN (R148): The engine fuses 2 to 4 body commands over consecutive engines of the stage. -/
  | chain (e : Nat)
  /-- LUTCOL (R143): The engine writes one 16-entry codebook into a scale region. -/
  | lutcol (e : Nat)
  /-- BWD (R147): The engine computes an input or weight gradient product in FP8 E5M2. -/
  | bwd (e : Nat)
  /-- SCRUBW (R150): The engine reads and corrects a weight SRAM range. -/
  | scrubw (e : Nat)
  /-- EPILOGUE (R115): After its last step a command's accumulators are de-quantised and requantised into a token. -/
  | epilogue (e : Nat)
  /-- FILL_DONE (R128): A staging fill completes and sets its row tag valid. -/
  | fillDone (e : Nat)
  /-- ENGINE_SCRUB (R150): The background scrubber reads weight SRAM lines in idle cycles. -/
  | engineScrub (u : Nat) (hits : Upsets)
  /-- TILE_SCRUB (R183): The tile scrubber reads SRAM units and corrects single-bit errors. -/
  | tileScrub (c r : Nat) (hits : Upsets)
  /-- CORE_SCRUB (R218): The core scrubber reads SRAM units and corrects single-bit errors. -/
  | coreScrub (u : Nat) (hits : Upsets)
  /-- BULK_SCRUB (R341): The bulk scrubber reads bulk SRAM and commit buffer lines in idle cycles. -/
  | bulkScrub (u : Nat) (hits : Upsets)
  /-- BUNDLE (R202): A tile issues one 64-bit bundle whose three slots execute together. Bit j of
  `perr`: word j of the entry that it reads fails parity (R226); `router`: physical column and row of a router that finds a
  parity error on a flit that it sends (R182). -/
  | bundle (c r : Nat) (w : DWord) (perr : BitVec 4) (router : Option (Nat × Nat))
  /-- DRAIN_COMPLETE (R168): A draining stage has read to every marker and waits at TICKWAIT, so its reload starts. -/
  | drainComplete (i sid : Nat)
  /-- CONFIG_WRITE_DONE (R171): The configuration port finishes its writes and clears the region's registers. -/
  | configWriteDone (i sid : Nat)
  /-- STAGE_RELEASE_STEP (R172): After 64 tile cycles the next release step of a reloaded stage takes effect. -/
  | stageReleaseStep (i sid : Nat)
  /-- COLUMN_TAKEOVER (R180): A spare column takes over a logical column at a tick boundary and copies its state. -/
  | columnTakeover (c : Nat)
  /-- TAKEOVER_DONE (R180): The column copy completes and the old router becomes a proxy. -/
  | takeoverDone (c : Nat)
  /-- ADD (R190): Core scalar addition. -/
  | add (k : Nat) (d a b : BitVec 5) (z : BitVec 3)
  /-- SUB (R190): Core scalar subtraction. -/
  | sub (k : Nat) (d a b : BitVec 5) (z : BitVec 3)
  /-- AND (R190): Core scalar bitwise AND. -/
  | and (k : Nat) (d a b : BitVec 5) (z : BitVec 3)
  /-- OR (R190): Core scalar bitwise OR. -/
  | or (k : Nat) (d a b : BitVec 5) (z : BitVec 3)
  /-- XOR (R190): Core scalar bitwise XOR. -/
  | xor (k : Nat) (d a b : BitVec 5) (z : BitVec 3)
  /-- SLL (R190): Core logical shift left. -/
  | sll (k : Nat) (d a b : BitVec 5) (z : BitVec 3)
  /-- SRL (R190): Core logical shift right. -/
  | srl (k : Nat) (d a b : BitVec 5) (z : BitVec 3)
  /-- SRA (R190): Core arithmetic shift right toward zero. -/
  | sra (k : Nat) (d a b : BitVec 5) (z : BitVec 3)
  /-- SRAF (R190): Core arithmetic shift right toward minus infinity. -/
  | sraf (k : Nat) (d a b : BitVec 5) (z : BitVec 3)
  /-- SLT (R190): Core signed set-less-than. -/
  | slt (k : Nat) (d a b : BitVec 5) (z : BitVec 3)
  /-- SLTU (R190): Core unsigned set-less-than. -/
  | sltu (k : Nat) (d a b : BitVec 5) (z : BitVec 3)
  /-- MUL (R190): Core multiply, low 32 bits. -/
  | mul (k : Nat) (d a b : BitVec 5) (z : BitVec 3)
  /-- MULH (R190): Core signed multiply, high 32 bits. -/
  | mulh (k : Nat) (d a b : BitVec 5) (z : BitVec 3)
  /-- MULHU (R190): Core unsigned multiply, high 32 bits. -/
  | mulhu (k : Nat) (d a b : BitVec 5) (z : BitVec 3)
  /-- DIV (R190): Core signed division truncated toward zero. -/
  | div (k : Nat) (d a b : BitVec 5) (z : BitVec 3)
  /-- DIVU (R190): Core unsigned division. -/
  | divu (k : Nat) (d a b : BitVec 5) (z : BitVec 3)
  /-- REM (R190): Core signed remainder. -/
  | rem (k : Nat) (d a b : BitVec 5) (z : BitVec 3)
  /-- REMU (R190): Core unsigned remainder. -/
  | remu (k : Nat) (d a b : BitVec 5) (z : BitVec 3)
  /-- MIN (R190): Core signed minimum. -/
  | min (k : Nat) (d a b : BitVec 5) (z : BitVec 3)
  /-- MAX (R190): Core signed maximum. -/
  | max (k : Nat) (d a b : BitVec 5) (z : BitVec 3)
  /-- CLZ (R190): Core count leading zeros. -/
  | clz (k : Nat) (d a b : BitVec 5) (z : BitVec 3)
  /-- POPC (R190): Core count set bits. -/
  | popc (k : Nat) (d a b : BitVec 5) (z : BitVec 3)
  /-- ADDI (R189): Core add immediate. -/
  | addi (k : Nat) (d a : BitVec 5) (imm : BitVec 16)
  /-- ANDI (R189): Core AND with zero-extended immediate. -/
  | andi (k : Nat) (d a : BitVec 5) (imm : BitVec 16)
  /-- ORI (R189): Core OR with zero-extended immediate. -/
  | ori (k : Nat) (d a : BitVec 5) (imm : BitVec 16)
  /-- XORI (R189): Core XOR with zero-extended immediate. -/
  | xori (k : Nat) (d a : BitVec 5) (imm : BitVec 16)
  /-- SLTI (R189): Core signed set-less-than immediate. -/
  | slti (k : Nat) (d a : BitVec 5) (imm : BitVec 16)
  /-- LUI (R189): Core loads an immediate into the upper half. -/
  | lui (k : Nat) (d a : BitVec 5) (imm : BitVec 16)
  /-- LW (R187): Core loads a word from local SRAM. -/
  | lw (k : Nat) (d a : BitVec 5) (imm : BitVec 16)
  /-- LH (R189): Core loads a sign-extended halfword. -/
  | lh (k : Nat) (d a : BitVec 5) (imm : BitVec 16)
  /-- LHU (R189): Core loads a zero-extended halfword. -/
  | lhu (k : Nat) (d a : BitVec 5) (imm : BitVec 16)
  /-- LB (R189): Core loads a sign-extended byte. -/
  | lb (k : Nat) (d a : BitVec 5) (imm : BitVec 16)
  /-- LBU (R189): Core loads a zero-extended byte. -/
  | lbu (k : Nat) (d a : BitVec 5) (imm : BitVec 16)
  /-- SW (R189): Core stores a word. -/
  | sw (k : Nat) (d a : BitVec 5) (imm : BitVec 16)
  /-- SH (R189): Core stores a halfword. -/
  | sh (k : Nat) (d a : BitVec 5) (imm : BitVec 16)
  /-- SB (R189): Core stores a byte. -/
  | sb (k : Nat) (d a : BitVec 5) (imm : BitVec 16)
  /-- BEQ (R189): Core branch if equal. -/
  | beq (k : Nat) (a b : BitVec 5) (off : BitVec 16)
  /-- BNE (R189): Core branch if not equal. -/
  | bne (k : Nat) (a b : BitVec 5) (off : BitVec 16)
  /-- BLT (R189): Core branch if less, signed. -/
  | blt (k : Nat) (a b : BitVec 5) (off : BitVec 16)
  /-- BGE (R189): Core branch if greater or equal, signed. -/
  | bge (k : Nat) (a b : BitVec 5) (off : BitVec 16)
  /-- BLTU (R189): Core branch if less, unsigned. -/
  | bltu (k : Nat) (a b : BitVec 5) (off : BitVec 16)
  /-- BGEU (R189): Core branch if greater or equal, unsigned. -/
  | bgeu (k : Nat) (a b : BitVec 5) (off : BitVec 16)
  /-- JAL (R189): Core jump and link. -/
  | jal (k : Nat) (d : BitVec 5) (off : BitVec 21)
  /-- JALR (R189): Core jump and link to a register address. -/
  | jalr (k : Nat) (d a : BitVec 5) (imm : BitVec 16)
  /-- VLD (R189): Core loads 64 bytes into a vector register. -/
  | vld (k : Nat) (d a : BitVec 5) (imm : BitVec 16)
  /-- VST (R189): Core stores a vector register as 64 bytes. -/
  | vst (k : Nat) (d a : BitVec 5) (imm : BitVec 16)
  /-- VLDE (R194): Core loads 16 packed elements into vector lanes. -/
  | vlde (k : Nat) (d a : BitVec 5) (imm : BitVec 16)
  /-- VSTE (R194): Core stores vector lanes as 16 packed elements. -/
  | vste (k : Nat) (d a : BitVec 5) (imm : BitVec 16)
  /-- VCVT (R193): Core converts vector lanes between formats, by RTZ or SR. -/
  | vcvt (k : Nat) (vd va : BitVec 4) (src dst : BitVec 5) (sr : BitVec 1) (p : BitVec 3) (z : BitVec 4)
  /-- SCVT (R193): Core converts a scalar between formats, by RTZ or SR. -/
  | scvt (k : Nat) (d a src dst : BitVec 5) (sr : BitVec 1) (z : BitVec 5)
  /-- SHI (R189): Core shifts by an immediate amount and kind. -/
  | shi (k : Nat) (d a : BitVec 5) (imm : BitVec 16)
  /-- VGET (R189): Core reads one vector lane into a scalar. -/
  | vget (k : Nat) (d a : BitVec 5) (imm : BitVec 16)
  /-- VADD (R192): Vector saturating addition. -/
  | vadd (k : Nat) (vd va : BitVec 4) (b : BitVec 5) (bs : BitVec 1) (p : BitVec 3)
  /-- VSUB (R192): Vector saturating subtraction. -/
  | vsub (k : Nat) (vd va : BitVec 4) (b : BitVec 5) (bs : BitVec 1) (p : BitVec 3)
  /-- VMUL (R192): Vector multiply, low 32 bits. -/
  | vmul (k : Nat) (vd va : BitVec 4) (b : BitVec 5) (bs : BitVec 1) (p : BitVec 3)
  /-- VMIN (R192): Vector signed minimum. -/
  | vmin (k : Nat) (vd va : BitVec 4) (b : BitVec 5) (bs : BitVec 1) (p : BitVec 3)
  /-- VMAX (R192): Vector signed maximum. -/
  | vmax (k : Nat) (vd va : BitVec 4) (b : BitVec 5) (bs : BitVec 1) (p : BitVec 3)
  /-- VAND (R192): Vector bitwise AND. -/
  | vand (k : Nat) (vd va : BitVec 4) (b : BitVec 5) (bs : BitVec 1) (p : BitVec 3)
  /-- VOR (R192): Vector bitwise OR. -/
  | vor (k : Nat) (vd va : BitVec 4) (b : BitVec 5) (bs : BitVec 1) (p : BitVec 3)
  /-- VXOR (R192): Vector bitwise XOR. -/
  | vxor (k : Nat) (vd va : BitVec 4) (b : BitVec 5) (bs : BitVec 1) (p : BitVec 3)
  /-- VSLL (R192): Vector shift left. -/
  | vsll (k : Nat) (vd va : BitVec 4) (b : BitVec 5) (bs : BitVec 1) (p : BitVec 3)
  /-- VSRL (R192): Vector logical shift right. -/
  | vsrl (k : Nat) (vd va : BitVec 4) (b : BitVec 5) (bs : BitVec 1) (p : BitVec 3)
  /-- VSRA (R192): Vector arithmetic shift right toward zero. -/
  | vsra (k : Nat) (vd va : BitVec 4) (b : BitVec 5) (bs : BitVec 1) (p : BitVec 3)
  /-- VABS (R192): Vector magnitude. -/
  | vabs (k : Nat) (vd va : BitVec 4) (b : BitVec 5) (bs : BitVec 1) (p : BitVec 3)
  /-- VFADD (R192): Vector FP32 addition. -/
  | vfadd (k : Nat) (vd va : BitVec 4) (b : BitVec 5) (bs : BitVec 1) (p : BitVec 3)
  /-- VFSUB (R192): Vector FP32 subtraction. -/
  | vfsub (k : Nat) (vd va : BitVec 4) (b : BitVec 5) (bs : BitVec 1) (p : BitVec 3)
  /-- VFMUL (R192): Vector FP32 multiplication. -/
  | vfmul (k : Nat) (vd va : BitVec 4) (b : BitVec 5) (bs : BitVec 1) (p : BitVec 3)
  /-- VFMA (R192): Vector FP32 fused multiply-add. -/
  | vfma (k : Nat) (vd va : BitVec 4) (b : BitVec 5) (bs : BitVec 1) (p : BitVec 3)
  /-- VFMIN (R192): Vector FP32 minimum. -/
  | vfmin (k : Nat) (vd va : BitVec 4) (b : BitVec 5) (bs : BitVec 1) (p : BitVec 3)
  /-- VFMAX (R192): Vector FP32 maximum. -/
  | vfmax (k : Nat) (vd va : BitVec 4) (b : BitVec 5) (bs : BitVec 1) (p : BitVec 3)
  /-- VFDIV (R192): Vector FP32 division. -/
  | vfdiv (k : Nat) (vd va : BitVec 4) (b : BitVec 5) (bs : BitVec 1) (p : BitVec 3)
  /-- VFSQRT (R192): Vector FP32 square root. -/
  | vfsqrt (k : Nat) (vd va : BitVec 4) (b : BitVec 5) (bs : BitVec 1) (p : BitVec 3)
  /-- VFSCL (R192): Vector FP32 scaling by a power of two. -/
  | vfscl (k : Nat) (vd va : BitVec 4) (b : BitVec 5) (bs : BitVec 1) (p : BitVec 3)
  /-- VFABS (R192): Vector FP32 sign clear. -/
  | vfabs (k : Nat) (vd va : BitVec 4) (b : BitVec 5) (bs : BitVec 1) (p : BitVec 3)
  /-- VCMPEQ (R192): Vector integer compare equal into a predicate. -/
  | vcmpeq (k : Nat) (vd va : BitVec 4) (b : BitVec 5) (bs : BitVec 1) (p : BitVec 3)
  /-- VCMPLT (R192): Vector integer compare less into a predicate. -/
  | vcmplt (k : Nat) (vd va : BitVec 4) (b : BitVec 5) (bs : BitVec 1) (p : BitVec 3)
  /-- VCMPLE (R192): Vector integer compare less or equal into a predicate. -/
  | vcmple (k : Nat) (vd va : BitVec 4) (b : BitVec 5) (bs : BitVec 1) (p : BitVec 3)
  /-- VFCMPEQ (R192): Vector FP32 compare equal. -/
  | vfcmpeq (k : Nat) (vd va : BitVec 4) (b : BitVec 5) (bs : BitVec 1) (p : BitVec 3)
  /-- VFCMPLT (R192): Vector FP32 compare less. -/
  | vfcmplt (k : Nat) (vd va : BitVec 4) (b : BitVec 5) (bs : BitVec 1) (p : BitVec 3)
  /-- VFCMPLE (R192): Vector FP32 compare less or equal. -/
  | vfcmple (k : Nat) (vd va : BitVec 4) (b : BitVec 5) (bs : BitVec 1) (p : BitVec 3)
  /-- VSEL (R192): Vector select by predicate. -/
  | vsel (k : Nat) (vd va : BitVec 4) (b : BitVec 5) (bs : BitVec 1) (p : BitVec 3)
  /-- VBCST (R192): Vector broadcast of a scalar. -/
  | vbcst (k : Nat) (vd va : BitVec 4) (b : BitVec 5) (bs : BitVec 1) (p : BitVec 3)
  /-- VPMASK (R192): Vector predicate load from a scalar. -/
  | vpmask (k : Nat) (vd va : BitVec 4) (b : BitVec 5) (bs : BitVec 1) (p : BitVec 3)
  /-- VRSUM (R192): Vector integer sum reduction. -/
  | vrsum (k : Nat) (vd va : BitVec 4) (b : BitVec 5) (bs : BitVec 1) (p : BitVec 3)
  /-- VRMAX (R192): Vector integer maximum reduction. -/
  | vrmax (k : Nat) (vd va : BitVec 4) (b : BitVec 5) (bs : BitVec 1) (p : BitVec 3)
  /-- VRMIN (R192): Vector integer minimum reduction. -/
  | vrmin (k : Nat) (vd va : BitVec 4) (b : BitVec 5) (bs : BitVec 1) (p : BitVec 3)
  /-- VFRSUM (R192): Vector FP32 ordered sum reduction. -/
  | vfrsum (k : Nat) (vd va : BitVec 4) (b : BitVec 5) (bs : BitVec 1) (p : BitVec 3)
  /-- VFRMAX (R192): Vector FP32 maximum reduction. -/
  | vfrmax (k : Nat) (vd va : BitVec 4) (b : BitVec 5) (bs : BitVec 1) (p : BitVec 3)
  /-- VFRMIN (R192): Vector FP32 minimum reduction. -/
  | vfrmin (k : Nat) (vd va : BitVec 4) (b : BitVec 5) (bs : BitVec 1) (p : BitVec 3)
  /-- VPERM (R192): Vector lane permutation. -/
  | vperm (k : Nat) (vd va : BitVec 4) (b : BitVec 5) (bs : BitVec 1) (p : BitVec 3)
  /-- VROT (R192): Vector lane rotation. -/
  | vrot (k : Nat) (vd va : BitVec 4) (b : BitVec 5) (bs : BitVec 1) (p : BitVec 3)
  /-- QWAIT (R195): Core waits until a queue holds a readable token or a free entry. -/
  | qwait (k : Nat) (x : BitVec 5) (q : BitVec 14) (z : BitVec 2)
  /-- QPOP (R196): Core waits for and takes one token, applying the epoch rule. Bit j of `perr`: word j of
  the entry read fails parity (R226). -/
  | qpop (k : Nat) (x : BitVec 5) (q : BitVec 14) (z : BitVec 2) (perr : BitVec 4)
  /-- QPUSH (R195): Core waits for room and sends one token. -/
  | qpush (k : Nat) (x : BitVec 5) (q : BitVec 14) (z : BitVec 2)
  /-- QCNT (R195): Core reads a queue's fill without waiting. -/
  | qcnt (k : Nat) (x : BitVec 5) (q : BitVec 14) (z : BitVec 2)
  /-- ENQE (R195): Core sends a descriptor to an engine's command queue. -/
  | enqe (k : Nat) (x : BitVec 5) (q : BitVec 14) (z : BitVec 2)
  /-- EFILL (R216): Core requests a staging fill of an engine operand row. -/
  | efill (k : Nat) (x : BitVec 5) (q : BitVec 14) (z : BitVec 2)
  /-- XSUB (R235): Core submits an address program as a transfer task. -/
  | xsub (k : Nat) (x : BitVec 5) (q : BitVec 14) (z : BitVec 2)
  /-- XLIT (R241): Core submits a light-path request. -/
  | xlit (k : Nat) (x : BitVec 5) (q : BitVec 14) (z : BitVec 2)
  /-- TICKWAIT (R197): Core waits for the next line start and returns its line. -/
  | tickwait (k : Nat) (x : BitVec 5) (q : BitVec 14) (z : BitVec 2)
  /-- FENCE (R198): Core waits for the conditions named by its mask. -/
  | fence (k : Nat) (x : BitVec 5) (q : BitVec 14) (z : BitVec 2)
  /-- CRD (R199): Core reads a control register. -/
  | crd (k : Nat) (x : BitVec 5) (q : BitVec 14) (z : BitVec 2)
  /-- CWR (R199): Core writes a control register. -/
  | cwr (k : Nat) (x : BitVec 5) (q : BitVec 14) (z : BitVec 2)
  /-- TASK_START (R244): A queued transfer task starts when a context is free and its cap allows. With `bad`
  its entry fails parity (R226). -/
  | taskStart (q : Nat) (bad : Bool)
  /-- DEP_MARK (R236): The source side resumes reads once a DEP mark's condition holds. -/
  | depMark (x : Nat)
  /-- TASK_COMPLETE (R238): A task's last write is acknowledged and its completion token posted. -/
  | taskComplete (x : Nat)
  /-- LIGHT_COMPLETE (R242): A light request completes and posts its completion token. -/
  | lightComplete (h : Head)
  /-- FLUSH (R227): QUE_CMD.flush empties the selected queue at an entry boundary. -/
  | flush (f : Nat)
  /-- QUE_CLR (R227): QUE_CMD.clr clears the selected queue's drop, underflow and parity counters. -/
  | queClr (f : Nat)
  /-- DOORBELL (R409): A host doorbell write moves a host ring pointer, or is ignored and counted when bad. -/
  | doorbell (f l : Nat) (v : Word) (host : List (Nat × Byte))
  /-- XFR_CLR_MAX (R245): XFR_CMD.clr_max clears every XFR_P_WAIT_MAX. -/
  | xfrClrMax (f : Nat)
  /-- PROMOTE (R264): ADP_I_CMD.promote is set pending for the next sheet boundary. -/
  | promote (f i : Nat)
  /-- ROLLBACK (R264): ADP_I_CMD.rollback is set pending for the next sheet boundary. -/
  | rollback (f i : Nat)
  /-- DISCARD (R264): ADP_I_CMD.discard is set pending for the next sheet boundary. -/
  | discard (f i : Nat)
  /-- CHECKPOINT (R268): ADP_I_CMD.checkpoint starts a checkpoint transaction. -/
  | checkpoint (f i : Nat)
  /-- RESTORE (R269): ADP_I_CMD.restore loads the newest matching checkpoint while held. -/
  | restore (f i : Nat)
  /-- MARGIN_WRITE (R267): A write of ADP_I_MARGIN outside 0 to 0.5 is ignored and sets bad_write. -/
  | marginWrite (f i : Nat) (be : BitVec 4) (v : Word)
  /-- CHECKPOINT_COMMIT (R268): A checkpoint transaction commits, or fails, after its reloads. -/
  | checkpointCommit (i : Nat) (ok : Bool)
  /-- RESULT_COMMIT (R272): OUT takes a result token, forms flags, writes the slot header, sets valid and mirrors. -/
  | resultCommit (i t : Nat)
  /-- GPIO_PULSE_END (R428): The GPIO pulse width expires and the pin returns low. -/
  | gpioPulseEnd (k t : Nat)
  /-- ACT_REQUEST (R274): ACT sorts, keeps, matches and decides the candidate boxes of a request and answers with COUNT. -/
  | actRequest (i : Nat)
  /-- ACTION_TABLE_WRITE (R276): An ACT_E write takes effect for requests taken after the next tick. -/
  | actionTableWrite (f k r : Nat) (be : BitVec 4) (v : Word)
  /-- SEAL (R281): A seal token seals an ended sheet and starts its edition transaction, or is dropped as late. -/
  | sealToken (i : Nat)
  /-- PUBLICATION_DEADLINE (R282): The tick after the 256th accepted tick seals an unsealed sheet without a map. -/
  | publicationDeadline (i : Nat)
  /-- EDITION_PUBLISH (R285): An edition standing whole in the commit buffer is published, sent on the outlet and mirrored. -/
  | editionPublish (i : Nat)
  /-- REMIRROR (R288): OUT_I_CMD.remirror repeats the mirror of the latest edition. -/
  | remirror (f i : Nat)
  /-- OUT_CLR (R288): OUT_I_CMD.clr clears the OUT_I counters. -/
  | outClr (f i : Nat)
  /-- RECORD (R321): A defect record arrives on a record queue and joins its sheet's transaction or is dropped; `bad` stands for
  any entry of it. -/
  | recordIn (h : Head)
  /-- ASSIGNMENT_WRITE (R290): A write to an assignment register of a loaded instance is ignored and sets assign_busy. -/
  | assignmentWrite (f off : Nat) (be : BitVec 4) (v : Word)
  /-- LOAD_SRC_WRITE (R295): A write of INS_I_LOAD_SRC is ignored unless the instance is unloaded. -/
  | loadSrcWrite (f i : Nat) (be : BitVec 4) (v : Word)
  /-- LOAD (R295): INS_I_CMD.load starts reading and checking an image. -/
  | insLoad (f i : Nat) (host : List (Nat × Byte))
  /-- LOAD_COMPLETE (R298): The load ends: held on success, unloaded with a code on failure. -/
  | loadComplete (i : Nat)
  /-- RELEASE (R297): INS_I_CMD.release starts the staged release of a held instance. -/
  | insRelease (f i : Nat)
  /-- RELEASE_STEP (R297): After at least 64 cycles the next release step takes effect, ending with cores started and generators seeded. -/
  | releaseStep (i t : Nat)
  /-- RESET (R300): INS_I_CMD.reset makes the instance resetting and stops its units. -/
  | insReset (f i : Nat)
  /-- FUNCTION_LEVEL_RESET (R300): A function-level reset of a virtual function resets its instance. -/
  | functionLevelReset (v : Nat)
  /-- VF_DISABLE (R289): Disabling a virtual function resets its instance. -/
  | vfDisable (v : Nat)
  /-- RESET_DONE (R300): The reset sequence completes and the instance becomes unloaded. -/
  | resetDone (i : Nat)
  /-- RELOAD (R302): INS_I_CMD.reload copies a stage patch into a window. -/
  | insReload (f i : Nat) (host : List (Nat × Byte))
  /-- PATCH_CHECK (R302): The copied patch is checked and the reconfiguration armed, or the reload refused. -/
  | patchCheck (i : Nat)
  /-- RELOAD_DONE (R303): The reload's writes and staged release end and the stage runs again. -/
  | reloadDone (i sid : Nat)
  /-- ENGINE_REPAIR (R305): A spare engine is chosen to replace a logical engine. -/
  | engineRepair (f e : Nat)
  /-- ENGINE_COPY_START (R305): Once commands started before T complete, the engine state is copied to the spare. -/
  | engineCopyStart (e : Nat)
  /-- ENGINE_SWAP_DONE (R305): The engine copy completes and the spare serves the logical engine. -/
  | engineSwapDone (e : Nat)
  /-- COLUMN_REPAIR (R306): INS_REPAIR kind 1 starts a column takeover. -/
  | columnRepair (f c : Nat)
  /-- TARGET_TIMEOUT (R309): A NAND target silent for 10 ms at initialisation is left out. -/
  | targetTimeout (ch ce : Nat)
  /-- MOUNT (R322): STO_CMD.mount chooses the superblock, reads the map and replays the journal. -/
  | stoMount (f : Nat)
  /-- MOUNT_DONE (R354): The store is mounted and the fuse map and fence list are applied. -/
  | mountDone
  /-- CLOSE (R334): STO_CMD.close commits whole transactions, journals orphans and closes the store. -/
  | stoClose (f : Nat)
  /-- PAGE_PROGRAM_DONE (R320): A NAND page program completes; a complete transaction's COMMIT is journalled. -/
  | pageProgramDone (p : Nat) (e : ProgramEnd)
  /-- BLOCK_ERASE_DONE (R325): A block erase completes and is journalled, or marks the block bad. -/
  | blockEraseDone (p : Nat) (ok : Bool)
  /-- BACKGROUND_SCAN (R326): The scan reads a live page and relocates its block when corrections exceed the threshold. -/
  | backgroundScan (p : Nat)
  /-- LIST (R335): Store command returning descriptors of committed transactions. -/
  | stoList (f : Nat)
  /-- READ (R335): Store command copying payload bytes of a transaction to the host. -/
  | stoRead (f : Nat)
  /-- TRIM (R335): Store command releasing committed transactions up to a number. -/
  | stoTrim (f : Nat)
  /-- SYNC (R335): Store command completing when the partition's whole transactions are on the medium. -/
  | stoSync (f : Nat)
  /-- WRITE_BOOT (R335): Store command committing a boot image at an index. -/
  | stoWriteBoot (f : Nat)
  /-- FORMAT (R335): Store command erasing the array. -/
  | stoFormat (f : Nat)
  /-- MAIN_OK_FALL (R330): Main power falls; instances park and the hold-up commit runs on VHOLD. -/
  | mainOkFall (t : Nat)
  /-- MAIN_OK_RISE (R331): Main power returns; the commit continues and the stability count starts. -/
  | mainOkRise (t : Nat)
  /-- MAIN_STABLE_EXPIRY (R331): MAIN_OK high for 10 ms after the commit leads to a cold start. -/
  | mainStableExpiry (t : Nat)
  /-- HOLD_OK_FALL (R331): VHOLD falls below the floor; the commit domain stops, or hold_low is set. -/
  | holdOkFall (t : Nat)
  /-- HOLD_OK_RISE (R393): HOLD_OK rises and PWR_EVT.hold_back is set. -/
  | holdOkRise (t : Nat)
  /-- REPAIR_FETCH_DONE (R345): The repair piece has reached the repair buffer. -/
  | repairFetchDone (i : Nat) (ok : Bool)
  /-- REPAIR_ENTRY (R346): A host answer entry for a source-1 repair is taken or discarded. -/
  | repairEntry (i : Nat) (host : List (Nat × Byte))
  /-- REPAIR_WAIT_EXPIRY (R347): A repair open for repair_wait ticks has no path and escalates. -/
  | repairWaitExpiry (i : Nat)
  /-- TEST (R348): FLT_CMD.test queues a self-test of the unit in FLT_TEST. -/
  | fltTest (f : Nat)
  /-- RETEST (R354): FLT_CMD.retest tests a fenced unit afresh. -/
  | fltRetest (f : Nat)
  /-- TEST_START (R351): A queued test starts when its unit kind is free. -/
  | testStart (t : Nat)
  /-- TEST_COMPLETE (R349): A self-test ends as transient or lasting, and lasting units are fenced. -/
  | testComplete (kind unit : Nat) (pass : Bool) (t : Nat)
  /-- CLR_LOG (R359): FLT_CMD.clr_log replaces the device sticky entry and zeroes overflow and LASTDROP. -/
  | clrLog (f : Nat)
  /-- INSTANCE_CLR_LOG (R359): FLT_I_CMD.clr_log does the same for an instance ring. -/
  | instanceClrLog (f i : Nat)
  /-- LOG_TAIL_WRITE (R360): A tail write frees log entries, or is ignored when it would pass the head. -/
  | logTailWrite (f ring : Nat) (be : BitVec 4) (v : Word)
  /-- PAIR (R366): TDM_CMD.pair starts link training toward paired state. -/
  | pair (f t : Nat)
  /-- LEAVE_CMD (R366): TDM_CMD.leave sends LEAVE and goes out. -/
  | leaveCmd (f t : Nat)
  /-- PAIR_TIMEOUT (R366): No HELLO within 100 ms fails the pairing. -/
  | pairTimeout (t : Nat)
  /-- HELLO_SEND (R368): A link idle for 250 ns sends HELLO. -/
  | helloSend (t : Nat)
  /-- TANDEM_FRAME (R367): A tandem-link frame is received, ordered and acknowledged. -/
  | tandemFrame (fr : Frame) (t : Nat)
  /-- REPLAY_TIMEOUT (R367): No acknowledgement advance for 500 ns resends unacknowledged frames. -/
  | replayTimeout (t : Nat)
  /-- HELLO (R366): A HELLO message completes pairing when roles and identities fit. -/
  | helloMsg (t : Nat)
  /-- TDM_TICK (R369): The follower schedules delivery of the lead's tick after TDM_DELAY. -/
  | tdmTick (t : Nat)
  /-- SIG (R371): A partner signature is compared with the local result. -/
  | sigMsg (t : Nat)
  /-- CMP_WAIT_EXPIRY (R371): No partner SIG within TDM_CMP_WAIT classes the result as timing or solo. -/
  | cmpWaitExpiry (i t : Nat)
  /-- WRITE (R370): The follower applies a mirrored host write. -/
  | writeMsg (t : Nat)
  /-- DATA (R370): The follower takes forwarded host-memory bytes. -/
  | dataMsg (t : Nat)
  /-- TDM_TEST (R372): A TEST message schedules unit tests at its effect tick. -/
  | tdmTest (t : Nat)
  /-- VERDICT (R372): Verdicts decide transient, one device leaving, or both fencing. -/
  | verdictMsg (t : Nat)
  /-- MARK (R375): A MARK records the last line mirrored and edition published. -/
  | markMsg (t : Nat)
  /-- LEAVE (R374): A received LEAVE means the partner is lost. -/
  | leaveMsg (t : Nat)
  /-- FAULT (R376): A partner FAULT message reports an instance fault. -/
  | faultMsg (t : Nat)
  /-- FAULT_WAIT_EXPIRY (R376): Without a matching partner fault in 2 ticks the faulty device leaves. -/
  | faultWaitExpiry (i t : Nat)
  /-- TDM_REPAIR (R376): A REPAIR message is answered with the piece as DATA. -/
  | tdmRepair (t : Nat)
  /-- PARTNER_LOSS (R374): No frame for TDM_LOSS ns, or all lanes unlocked, loses the partner. -/
  | partnerLoss (t : Nat)
  /-- GATE (R382): A domain idle for 32 base cycles and not kept descends and stops. -/
  | gate (dom t : Nat)
  /-- WAKE (R382): Pending work or access wakes a gated domain by the derailleur ramp. -/
  | wake (dom t : Nat)
  /-- RAMP_STEP (R384): A 64-cycle ramp hold expires and the ratio moves one step. -/
  | rampStep (dom t : Nat)
  /-- DIVIDER_WRITE (R385): A write of CLK_D_CFG.div sets a new ramp target. -/
  | dividerWrite (f dom : Nat) (be : BitVec 4) (v : Word) (t : Nat)
  /-- MONITOR_WINDOW (R386): A monitor window ends and its reference count is judged. -/
  | monitorWindow (n t : Nat)
  /-- PLL_UNLOCK (R386): A PLL locked to the reference reports unlock. -/
  | pllUnlock (p t : Nat)
  /-- BRAKE_ENGAGE (R388): A sensor below th_mv brakes its domains within 4 ns. -/
  | brakeEngage (sen mv t : Nat)
  /-- BRAKE_RELEASE (R388): Sensors above threshold plus hysteresis for 64 ns release the brake. -/
  | brakeRelease (sen mv t : Nat)
  /-- THERMAL_SAMPLE (R394): Thermal sensors sample Tj every 100 µs; warning and park are judged. -/
  | thermalSample (temps : List (BitVec 16)) (t : Nat)
  /-- PWR_CLR_MAX (R394): PWR_CMD.clr_max resets PWR_TJ_MAX and each min_mv. -/
  | pwrClrMax (f : Nat)
  /-- DROOP_WRITE (R388): A PWR_DROOP write outside its ranges is ignored. -/
  | droopWrite (f : Nat) (be : BitVec 4) (v : Word)
  /-- THERM_WRITE (R395): A PWR_THERM write outside its ranges is ignored. -/
  | thermWrite (f : Nat) (be : BitVec 4) (v : Word)
  /-- REGISTER_WRITE (R3): A write to a register without a row of its own acts by field type and re-arms interrupts. -/
  | registerWrite (f off : Nat) (be : BitVec 4) (v : Word)
  /-- UNSUPPORTED_REQUEST (R400): A BAR0 access of bad length, alignment or crossing completes as UR and sets ur. -/
  | unsupportedRequest (f : Nat)
  /-- READ_SHADOW_LATCH (R404): A read of a group's first register latches the rest into the function's shadow. -/
  | readShadowLatch (f off : Nat)
  /-- COUNTER_HIGH_WRITE (R405): A write of a 64-bit counter's high register goes to the write shadow. -/
  | counterHighWrite (f off : Nat) (be : BitVec 4) (v : Word)
  /-- COUNTER_LOW_WRITE (R405): A write of the low register loads the whole counter from the shadow. -/
  | counterLowWrite (f off : Nat) (be : BitVec 4) (v : Word)
  /-- SET_ALIAS (R406): A set-alias write ORs data into RW fields. -/
  | setAlias (f off : Nat) (be : BitVec 4) (v : Word)
  /-- CLEAR_ALIAS (R406): A clear-alias write clears RW bits. -/
  | clearAlias (f off : Nat) (be : BitVec 4) (v : Word)
  /-- TOGGLE_ALIAS (R406): A toggle-alias write XORs data into RW fields. -/
  | toggleAlias (f off : Nat) (be : BitVec 4) (v : Word)
  /-- PARITY_FAULT (R408): A configuration parity mismatch faults the register's owner. -/
  | parityFault (off : Nat)
  /-- PARITY_INJECT (R408): HIF_PAR_INJ.go inverts a register's stored parity bit. -/
  | parityInject (f : Nat) (v : Word)
  /-- STRAP_SAMPLE (R422): The straps are sampled 1 µs after MAIN_OK rises. -/
  | strapSample (straps : BitVec 8) (t : Nat)
  /-- PERST_RISE (R423): PERST# rising allows link training and any repeated flash boot. -/
  | perstRise (t : Nat)
  /-- PERST_FALL (R423): PERST# falling after high acts as a manager function-level reset. -/
  | perstFall (t : Nat)
  /-- FLASH_BOOT (R424): After mapping, a flash-strapped device assigns and loads instance 0 from a boot image. -/
  | flashBoot
  /-- SMB_SET_POINTER (R418): SMBus command 0x10 sets the register pointer. -/
  | smbSetPointer (v : Word)
  /-- SMB_BLOCK_READ (R418): SMBus command 0x11 returns a register and advances the pointer. -/
  | smbBlockRead
  /-- SMB_EVENT_WRITE (R418): SMBus command 0x12 writes HIF_EVT, CLK_EVT or PWR_EVT. -/
  | smbEventWrite (v : Word)
  /-- ALERT_RESPONSE (R419): A successful Alert Response releases SMBALERT#. -/
  | alertResponse
  /-- DBGACC_READ (R426): JTAG DBGACC op 0b01 reads a register at Update-DR. -/
  | dbgaccRead (off : Word)
  /-- DBGACC_WRITE (R426): JTAG DBGACC op 0b10 writes a register at Update-DR. -/
  | dbgaccWrite (off v : Word)
  /-- EXTEST (R426): JTAG EXTEST drives the boundary scan when permitted, else acts as BYPASS. -/
  | extest
  /-- SAMPLE_PRELOAD (R426): JTAG SAMPLE/PRELOAD selects the boundary scan chain. -/
  | samplePreload
  /-- HIGHZ (R426): JTAG HIGHZ floats outputs when permitted. -/
  | highz
  /-- CLAMP (R426): JTAG CLAMP holds outputs when permitted. -/
  | clamp
  /-- IDCODE (R426): JTAG IDCODE selects the 32-bit identity register. -/
  | idcode
  /-- BYPASS (R426): JTAG BYPASS selects the bypass register. -/
  | bypass
  /-- DBG_MEM_READ (R430): DBG_MEM_CMD.read starts a debug read of one SECDED word. -/
  | dbgMemRead (f : Nat)
  /-- DBG_MEM_WRITE (R430): DBG_MEM_CMD.write starts a debug write of one word with good check bits. -/
  | dbgMemWrite (f : Nat)
  /-- MEM_ACCESS_DONE (R430): A debug memory access completes and sets mem_done. -/
  | memAccessDone
  /-- PROBE_ARM (R429): A write of DBG_P_CNT arms a mode-2 probe window. -/
  | probeArm (f k : Nat) (be : BitVec 4) (v : Word)
  /-- MANAGER_FUNCTION_LEVEL_RESET (R355): A function-level reset of the physical function resets every instance by R300, remounts the store and leaves a device kickstand. -/
  | managerFunctionLevelReset (t : Nat)
  /-- VF_ENABLE (R289): The host sets VF Enable in the SR-IOV capability, and the instances of the enabled virtual functions come into existence. -/
  | vfEnable (n : Nat)
  /-- PLL_LOCK (R387): The PLLs lock, or relock after a reference loss, which sets CLK_STAT.pll_lock bits and CLK_EVT.ref_back. -/
  | pllLock (locks : BitVec 10) (t : Nat)
  /-- INTERNAL_RESET_RELEASE (R423): At cold start, once the PLLs have locked and the fuse map has been read, internal reset is released and store initialisation and link training may begin. -/
  | internalResetRelease (t : Nat)
  /-- BANK_REMAP_COPY_DONE (R352): The line-by-line copy of a fenced bulk bank into its spare bank completes, and the remap is switched at the next tick boundary. -/
  | bankRemapCopyDone (die bank : Nat)
  /-- OUTLET_SEGMENT_SENT (R287): An outlet lane finishes sending an edition segment and starts the next segment waiting on it, first come, first served. -/
  | outletSegmentSent (j : Nat)
  /-- PRBS_BIT_ERROR (R28): The PRBS-31 checker of an enabled lane finds a bit error and increments INL_PRBS_ERR. -/
  | prbsBitError (j : Nat)
  /-- CADENCE_OUT_PULSE (R431): CADENCE_OUT drives its edge delay_ns after a delivered tick and ends its pulse after 50 ns, or after CAD_SHEET_WIDTH + 100 ns for a marked tick. -/
  | cadenceOutPulse (t : Nat)
  /-- PROBE_WINDOW_EDGE (R429): A probe window opens or closes at its debug-cycle offset after a delivered tick, switching the pin between sel_a and sel_b. -/
  | probeWindowEdge (k t : Nat)
  /-- TEST_LOGIC_RESET (R426): The JTAG TAP enters Test-Logic-Reset through TRST# or TMS, which selects IDCODE and ends any boundary-scan instruction. -/
  | testLogicReset
  /-- MSI_X_UNMASK (R411): The host clears a function mask or a vector mask, and a message whose PBA bit is set is sent. -/
  | msiXUnmask (f vec : Nat)
  /-- PAGE_READ_DONE (R336): A flash page read completes and is decoded, feeding a host READ, restore or load, which then posts its completion. -/
  | pageReadDone (p : Nat) (raw : List Byte)
deriving DecidableEq, Repr

end Sys2Proof
end

