-- ==== Sys2Proof/Decode.lean ====
section
/-! DEFINITION. The table of operations and events gives none of its rows any bits, so no word of the table's spells a command.
The words that service cores fetch do have an encoding: the S-profile formats and opcodes (R188 to R190, R192, R195), decoded
here, and encoded again after it. -/

namespace Sys2Proof

/-- The command that a word spells by the table's bits: no row has bits, so none. -/
def decodeTableWord (_nbits _w : Nat) : Option Instr := none

/-! ### S-profile words (R188) -/

/-- Bits `lo + n - 1 .. lo` of an instruction word. -/
def field (w : BitVec 32) (lo n : Nat) : BitVec n := w.extractLsb' lo n

/-- Format A: scalar ALU, by fn (R190). -/
def decodeA (k : Nat) (w : BitVec 32) : Option Instr :=
  let d := field w 21 5
  let a := field w 16 5
  let b := field w 11 5
  let z := field w 8 3
  match (field w 0 8).toNat with
  | 0x00 => some (.add k d a b z)
  | 0x01 => some (.sub k d a b z)
  | 0x02 => some (.and k d a b z)
  | 0x03 => some (.or k d a b z)
  | 0x04 => some (.xor k d a b z)
  | 0x05 => some (.sll k d a b z)
  | 0x06 => some (.srl k d a b z)
  | 0x07 => some (.sra k d a b z)
  | 0x08 => some (.sraf k d a b z)
  | 0x09 => some (.slt k d a b z)
  | 0x0A => some (.sltu k d a b z)
  | 0x0B => some (.mul k d a b z)
  | 0x0C => some (.mulh k d a b z)
  | 0x0D => some (.mulhu k d a b z)
  | 0x0E => some (.div k d a b z)
  | 0x0F => some (.divu k d a b z)
  | 0x10 => some (.rem k d a b z)
  | 0x11 => some (.remu k d a b z)
  | 0x12 => some (.min k d a b z)
  | 0x13 => some (.max k d a b z)
  | 0x14 => some (.clz k d a b z)
  | 0x15 => some (.popc k d a b z)
  | _ => none

/-- Format V: vector operations, by fn (R192). -/
def decodeV (k : Nat) (w : BitVec 32) : Option Instr :=
  let vd := field w 22 4
  let va := field w 18 4
  let b := field w 13 5
  let bs := field w 12 1
  let p := field w 9 3
  match (field w 0 9).toNat with
  | 0x000 => some (.vadd k vd va b bs p)
  | 0x001 => some (.vsub k vd va b bs p)
  | 0x002 => some (.vmul k vd va b bs p)
  | 0x003 => some (.vmin k vd va b bs p)
  | 0x004 => some (.vmax k vd va b bs p)
  | 0x005 => some (.vand k vd va b bs p)
  | 0x006 => some (.vor k vd va b bs p)
  | 0x007 => some (.vxor k vd va b bs p)
  | 0x008 => some (.vsll k vd va b bs p)
  | 0x009 => some (.vsrl k vd va b bs p)
  | 0x00A => some (.vsra k vd va b bs p)
  | 0x00B => some (.vabs k vd va b bs p)
  | 0x010 => some (.vfadd k vd va b bs p)
  | 0x011 => some (.vfsub k vd va b bs p)
  | 0x012 => some (.vfmul k vd va b bs p)
  | 0x013 => some (.vfma k vd va b bs p)
  | 0x014 => some (.vfmin k vd va b bs p)
  | 0x015 => some (.vfmax k vd va b bs p)
  | 0x016 => some (.vfdiv k vd va b bs p)
  | 0x017 => some (.vfsqrt k vd va b bs p)
  | 0x018 => some (.vfscl k vd va b bs p)
  | 0x019 => some (.vfabs k vd va b bs p)
  | 0x020 => some (.vcmpeq k vd va b bs p)
  | 0x021 => some (.vcmplt k vd va b bs p)
  | 0x022 => some (.vcmple k vd va b bs p)
  | 0x023 => some (.vfcmpeq k vd va b bs p)
  | 0x024 => some (.vfcmplt k vd va b bs p)
  | 0x025 => some (.vfcmple k vd va b bs p)
  | 0x030 => some (.vsel k vd va b bs p)
  | 0x031 => some (.vbcst k vd va b bs p)
  | 0x033 => some (.vpmask k vd va b bs p)
  | 0x040 => some (.vrsum k vd va b bs p)
  | 0x041 => some (.vrmax k vd va b bs p)
  | 0x042 => some (.vrmin k vd va b bs p)
  | 0x043 => some (.vfrsum k vd va b bs p)
  | 0x044 => some (.vfrmax k vd va b bs p)
  | 0x045 => some (.vfrmin k vd va b bs p)
  | 0x050 => some (.vperm k vd va b bs p)
  | 0x051 => some (.vrot k vd va b bs p)
  | _ => none

/-- Format Q: queue and system, by sub (R195). A word of the entry that QPOP reads fails parity apart from its encoding. -/
def decodeQ (k : Nat) (w : BitVec 32) : Option Instr :=
  let x := field w 21 5
  let q := field w 2 14
  let z := field w 0 2
  match (field w 16 5).toNat with
  | 0x00 => some (.qwait k x q z)
  | 0x01 => some (.qpop k x q z 0)
  | 0x02 => some (.qpush k x q z)
  | 0x03 => some (.qcnt k x q z)
  | 0x04 => some (.enqe k x q z)
  | 0x05 => some (.efill k x q z)
  | 0x06 => some (.xsub k x q z)
  | 0x07 => some (.xlit k x q z)
  | 0x08 => some (.tickwait k x q z)
  | 0x09 => some (.fence k x q z)
  | 0x0A => some (.crd k x q z)
  | 0x0B => some (.cwr k x q z)
  | _ => none

/-- The instruction of core k that a word spells, by its major opcode (R189); none for a word that is no instruction. -/
def decodeCore (k : Nat) (w : BitVec 32) : Option Instr :=
  let d := field w 21 5
  let a := field w 16 5
  let imm := field w 0 16
  match (field w 26 6).toNat with
  | 0x01 => decodeA k w
  | 0x02 => some (.addi k d a imm)
  | 0x03 => some (.andi k d a imm)
  | 0x04 => some (.ori k d a imm)
  | 0x05 => some (.xori k d a imm)
  | 0x06 => some (.slti k d a imm)
  | 0x07 => some (.lui k d a imm)
  | 0x08 => some (.lw k d a imm)
  | 0x09 => some (.lh k d a imm)
  | 0x0A => some (.lhu k d a imm)
  | 0x0B => some (.lb k d a imm)
  | 0x0C => some (.lbu k d a imm)
  | 0x0D => some (.sw k d a imm)
  | 0x0E => some (.sh k d a imm)
  | 0x0F => some (.sb k d a imm)
  | 0x10 => some (.beq k d a imm)
  | 0x11 => some (.bne k d a imm)
  | 0x12 => some (.blt k d a imm)
  | 0x13 => some (.bge k d a imm)
  | 0x14 => some (.bltu k d a imm)
  | 0x15 => some (.bgeu k d a imm)
  | 0x16 => some (.jal k d (field w 0 21))
  | 0x17 => some (.jalr k d a imm)
  | 0x18 => decodeV k w
  | 0x19 => some (.vld k d a imm)
  | 0x1A => some (.vst k d a imm)
  | 0x1B => some (.vlde k d a imm)
  | 0x1C => some (.vste k d a imm)
  | 0x1D => some (.vcvt k (field w 22 4) (field w 18 4) (field w 13 5) (field w 8 5) (field w 7 1) (field w 4 3) (field w 0 4))
  | 0x1E => some (.shi k d a imm)
  | 0x1F => some (.vget k d a imm)
  | 0x20 => decodeQ k w
  | 0x21 => some (.scvt k d a (field w 11 5) (field w 6 5) (field w 5 1) (field w 0 5))
  | _ => none

/-! ### Encoding -/

def wordA (fn : BitVec 8) (d a b : BitVec 5) (z : BitVec 3) : BitVec 32 := (0x01 : BitVec 6) ++ d ++ a ++ b ++ z ++ fn
def wordI (op : BitVec 6) (d a : BitVec 5) (imm : BitVec 16) : BitVec 32 := op ++ d ++ a ++ imm
def wordV (fn : BitVec 9) (vd va : BitVec 4) (b : BitVec 5) (bs : BitVec 1) (p : BitVec 3) : BitVec 32 :=
  (0x18 : BitVec 6) ++ vd ++ va ++ b ++ bs ++ p ++ fn
def wordQ (sub x : BitVec 5) (q : BitVec 14) (z : BitVec 2) : BitVec 32 := (0x20 : BitVec 6) ++ x ++ sub ++ q ++ z

/-- The core and the word of an S-profile instruction; none for every other command, and for a QPOP that carries the parity
errors of an entry. -/
def encodeCore : Instr → Option (Nat × BitVec 32)
  | .add k d a b z => some (k, wordA 0x00 d a b z)
  | .sub k d a b z => some (k, wordA 0x01 d a b z)
  | .and k d a b z => some (k, wordA 0x02 d a b z)
  | .or k d a b z => some (k, wordA 0x03 d a b z)
  | .xor k d a b z => some (k, wordA 0x04 d a b z)
  | .sll k d a b z => some (k, wordA 0x05 d a b z)
  | .srl k d a b z => some (k, wordA 0x06 d a b z)
  | .sra k d a b z => some (k, wordA 0x07 d a b z)
  | .sraf k d a b z => some (k, wordA 0x08 d a b z)
  | .slt k d a b z => some (k, wordA 0x09 d a b z)
  | .sltu k d a b z => some (k, wordA 0x0A d a b z)
  | .mul k d a b z => some (k, wordA 0x0B d a b z)
  | .mulh k d a b z => some (k, wordA 0x0C d a b z)
  | .mulhu k d a b z => some (k, wordA 0x0D d a b z)
  | .div k d a b z => some (k, wordA 0x0E d a b z)
  | .divu k d a b z => some (k, wordA 0x0F d a b z)
  | .rem k d a b z => some (k, wordA 0x10 d a b z)
  | .remu k d a b z => some (k, wordA 0x11 d a b z)
  | .min k d a b z => some (k, wordA 0x12 d a b z)
  | .max k d a b z => some (k, wordA 0x13 d a b z)
  | .clz k d a b z => some (k, wordA 0x14 d a b z)
  | .popc k d a b z => some (k, wordA 0x15 d a b z)
  | .addi k d a imm => some (k, wordI 0x02 d a imm)
  | .andi k d a imm => some (k, wordI 0x03 d a imm)
  | .ori k d a imm => some (k, wordI 0x04 d a imm)
  | .xori k d a imm => some (k, wordI 0x05 d a imm)
  | .slti k d a imm => some (k, wordI 0x06 d a imm)
  | .lui k d a imm => some (k, wordI 0x07 d a imm)
  | .lw k d a imm => some (k, wordI 0x08 d a imm)
  | .lh k d a imm => some (k, wordI 0x09 d a imm)
  | .lhu k d a imm => some (k, wordI 0x0A d a imm)
  | .lb k d a imm => some (k, wordI 0x0B d a imm)
  | .lbu k d a imm => some (k, wordI 0x0C d a imm)
  | .sw k d a imm => some (k, wordI 0x0D d a imm)
  | .sh k d a imm => some (k, wordI 0x0E d a imm)
  | .sb k d a imm => some (k, wordI 0x0F d a imm)
  | .beq k a b off => some (k, wordI 0x10 a b off)
  | .bne k a b off => some (k, wordI 0x11 a b off)
  | .blt k a b off => some (k, wordI 0x12 a b off)
  | .bge k a b off => some (k, wordI 0x13 a b off)
  | .bltu k a b off => some (k, wordI 0x14 a b off)
  | .bgeu k a b off => some (k, wordI 0x15 a b off)
  | .jalr k d a imm => some (k, wordI 0x17 d a imm)
  | .vld k d a imm => some (k, wordI 0x19 d a imm)
  | .vst k d a imm => some (k, wordI 0x1A d a imm)
  | .vlde k d a imm => some (k, wordI 0x1B d a imm)
  | .vste k d a imm => some (k, wordI 0x1C d a imm)
  | .shi k d a imm => some (k, wordI 0x1E d a imm)
  | .vget k d a imm => some (k, wordI 0x1F d a imm)
  | .jal k d off => some (k, (0x16 : BitVec 6) ++ d ++ off)
  | .vadd k vd va b bs p => some (k, wordV 0x000 vd va b bs p)
  | .vsub k vd va b bs p => some (k, wordV 0x001 vd va b bs p)
  | .vmul k vd va b bs p => some (k, wordV 0x002 vd va b bs p)
  | .vmin k vd va b bs p => some (k, wordV 0x003 vd va b bs p)
  | .vmax k vd va b bs p => some (k, wordV 0x004 vd va b bs p)
  | .vand k vd va b bs p => some (k, wordV 0x005 vd va b bs p)
  | .vor k vd va b bs p => some (k, wordV 0x006 vd va b bs p)
  | .vxor k vd va b bs p => some (k, wordV 0x007 vd va b bs p)
  | .vsll k vd va b bs p => some (k, wordV 0x008 vd va b bs p)
  | .vsrl k vd va b bs p => some (k, wordV 0x009 vd va b bs p)
  | .vsra k vd va b bs p => some (k, wordV 0x00A vd va b bs p)
  | .vabs k vd va b bs p => some (k, wordV 0x00B vd va b bs p)
  | .vfadd k vd va b bs p => some (k, wordV 0x010 vd va b bs p)
  | .vfsub k vd va b bs p => some (k, wordV 0x011 vd va b bs p)
  | .vfmul k vd va b bs p => some (k, wordV 0x012 vd va b bs p)
  | .vfma k vd va b bs p => some (k, wordV 0x013 vd va b bs p)
  | .vfmin k vd va b bs p => some (k, wordV 0x014 vd va b bs p)
  | .vfmax k vd va b bs p => some (k, wordV 0x015 vd va b bs p)
  | .vfdiv k vd va b bs p => some (k, wordV 0x016 vd va b bs p)
  | .vfsqrt k vd va b bs p => some (k, wordV 0x017 vd va b bs p)
  | .vfscl k vd va b bs p => some (k, wordV 0x018 vd va b bs p)
  | .vfabs k vd va b bs p => some (k, wordV 0x019 vd va b bs p)
  | .vcmpeq k vd va b bs p => some (k, wordV 0x020 vd va b bs p)
  | .vcmplt k vd va b bs p => some (k, wordV 0x021 vd va b bs p)
  | .vcmple k vd va b bs p => some (k, wordV 0x022 vd va b bs p)
  | .vfcmpeq k vd va b bs p => some (k, wordV 0x023 vd va b bs p)
  | .vfcmplt k vd va b bs p => some (k, wordV 0x024 vd va b bs p)
  | .vfcmple k vd va b bs p => some (k, wordV 0x025 vd va b bs p)
  | .vsel k vd va b bs p => some (k, wordV 0x030 vd va b bs p)
  | .vbcst k vd va b bs p => some (k, wordV 0x031 vd va b bs p)
  | .vpmask k vd va b bs p => some (k, wordV 0x033 vd va b bs p)
  | .vrsum k vd va b bs p => some (k, wordV 0x040 vd va b bs p)
  | .vrmax k vd va b bs p => some (k, wordV 0x041 vd va b bs p)
  | .vrmin k vd va b bs p => some (k, wordV 0x042 vd va b bs p)
  | .vfrsum k vd va b bs p => some (k, wordV 0x043 vd va b bs p)
  | .vfrmax k vd va b bs p => some (k, wordV 0x044 vd va b bs p)
  | .vfrmin k vd va b bs p => some (k, wordV 0x045 vd va b bs p)
  | .vperm k vd va b bs p => some (k, wordV 0x050 vd va b bs p)
  | .vrot k vd va b bs p => some (k, wordV 0x051 vd va b bs p)
  | .vcvt k vd va src dst sr p z => some (k, (0x1D : BitVec 6) ++ vd ++ va ++ src ++ dst ++ sr ++ p ++ z)
  | .scvt k d a src dst sr z => some (k, (0x21 : BitVec 6) ++ d ++ a ++ src ++ dst ++ sr ++ z)
  | .qwait k x q z => some (k, wordQ 0x00 x q z)
  | .qpop k x q z perr => if perr = 0 then some (k, wordQ 0x01 x q z) else none
  | .qpush k x q z => some (k, wordQ 0x02 x q z)
  | .qcnt k x q z => some (k, wordQ 0x03 x q z)
  | .enqe k x q z => some (k, wordQ 0x04 x q z)
  | .efill k x q z => some (k, wordQ 0x05 x q z)
  | .xsub k x q z => some (k, wordQ 0x06 x q z)
  | .xlit k x q z => some (k, wordQ 0x07 x q z)
  | .tickwait k x q z => some (k, wordQ 0x08 x q z)
  | .fence k x q z => some (k, wordQ 0x09 x q z)
  | .crd k x q z => some (k, wordQ 0x0A x q z)
  | .cwr k x q z => some (k, wordQ 0x0B x q z)
  | _ => none

end Sys2Proof
end

