-- ==== Sys2Proof/Config.lean ====
section
/-! DEFINITION. What one part fixes (fuses, R45, R397, R425, R426), and the free values: constants without a body, so
that no proof can lean on a number. -/

namespace Sys2Proof.Config

/-- The fused speed grade: 0 VYL-8A-10, 1 VYL-8A-08 (R1, HIF_ID.grade). -/
opaque grade : Nat

/-- The fused PCI vendor identifier (R397). -/
opaque vendor : Nat

/-- Word n of the fused image key hash (R425); all zero when none is fused. -/
opaque keyHash : Nat → BitVec 32

/-- The fused JTAG manufacturer identity (R426). -/
opaque jtagManufacturer : BitVec 11

/-- The fuse map: physical engine `p` is fused off (R45); Ops.lean's
`engineFused` keeps to the count of R45. -/
opaque engineFusedOff : Nat → Bool

/-- The fuse map: physical column `p` is fused off or used at the factory (R45, TIL_SPARE);
`columnFused` keeps to the count of R45. -/
opaque columnFusedOff : Nat → Bool

/-- What a NAND target shows of itself (R308, R309): whether it acknowledges, whether its parameter page passes its CRC,
bytes of a page's main and spare areas, pages per block, blocks per LUN, LUNs, correctable bits it asks for per 1,024
bytes, and the rates of the NV-DDR3 timing modes it advertises, in MT/s. -/
structure NandParam where
  present : Bool
  crcOk : Bool
  main : Nat
  spare : Nat
  pages : Nat
  blocks : Nat
  luns : Nat
  ecc : Nat
  rates : List Nat
deriving DecidableEq, Repr, Inhabited

/-- NAND target 4c + e: channel c, chip enable e. -/
opaque nandParam : Nat → NandParam

/-- Block (page address / 4,096) carries an ONFI factory bad-block mark (R328). -/
opaque nandFactoryBad : Nat → Bool

/-- Mixed mode with INT4 weights: does a step take its 128 operand rows in two cycles of 64? R99 gives that mode 64 products
per column per cycle; R132, R138 and R151 give its block one cycle. -/
opaque mixedHalves : Bool

/-- BWD form 0 with INT4 weights: the half of a block's 128 rows that gives the 64 sums (R147 does not say). -/
opaque bwdHalf : Nat

/-- BWD form 1: the tap slots, modulo 8, that name the gradient row and the saved activation row (R147 does not say). -/
opaque gradTap : Nat
opaque savedTap : Nat

/-- The tile, counted modulo the stage's tiles, that holds byte `n` of a row in the tile SRAM of a stage: the compiler's
spread (R158). -/
opaque rowTile : (stage n : Nat) → Nat

/-- The place, in 64-byte units modulo the room, of row `r` of the line buffer whose queue has local id `l` (R74, R250). -/
opaque rowUnit : (l r : Nat) → Nat

/-- Free values: the n-th one a run draws (State.free counts them). -/
opaque freeValue : Nat → BitVec 64

end Sys2Proof.Config
end

