-- ==== Sys2Proof/Machine/SMap.lean ====
section
/-! DEFINITION. Sparse maps as plain data: a list of (key, value) pairs with strictly rising keys, in which no entry
holds the value an unlisted key reads as. Equal maps are equal lists. Used for registers, memories and tables. -/

namespace Sys2Proof.Machine

/-- A sparse map from natural keys. -/
abbrev SMap (α : Type) := List (Nat × α)

namespace SMap

/-- The value at key `k`; `d` where no entry lists it. -/
def get {α : Type} (d : α) : SMap α → Nat → α
  | [], _ => d
  | (j, v) :: m, k => if k = j then v else get d m k

/-- The entry at key `k`, if listed. -/
def find {α : Type} : SMap α → Nat → Option α
  | [], _ => none
  | (j, v) :: m, k => if k = j then some v else find m k

/-- Write `v` at `k`, listing it whatever it is. -/
def put {α : Type} (k : Nat) (v : α) : SMap α → SMap α
  | [] => [(k, v)]
  | (j, w) :: m =>
    if k = j then (k, v) :: m
    else if k < j then (k, v) :: (j, w) :: m
    else (j, w) :: put k v m

/-- Remove the entry at `k`. -/
def del {α : Type} (k : Nat) (m : SMap α) : SMap α := m.filter (fun e => e.1 != k)

/-- Write `v` at `k`; a value equal to what an unlisted key reads as removes the entry. -/
def set {α : Type} [DecidableEq α] (d : α) (k : Nat) (v : α) (m : SMap α) : SMap α :=
  if v = d then del k m else put k v m

/-- Every listed key is above `b`, the keys rise strictly, and no entry holds the default of its key. -/
def wfFrom {α : Type} [DecidableEq α] (d : Nat → α) : Option Nat → SMap α → Bool
  | _, [] => true
  | b, (k, v) :: m => (match b with | none => true | some j => decide (j < k)) && decide (v ≠ d k) && wfFrom d (some k) m

/-- The canonical form: strictly rising keys and no listed default. -/
def wf {α : Type} [DecidableEq α] (d : α) (m : SMap α) : Bool := wfFrom (fun _ => d) none m

/-- Change every listed value; an entry that comes to hold what an unlisted key reads as is removed. -/
def mapVals {α : Type} [DecidableEq α] (d : α) (g : Nat → α → α) (m : SMap α) : SMap α :=
  (m.map (fun e => (e.1, g e.1 e.2))).filter (fun e => decide (e.2 ≠ d))

/-- Drop every entry whose key lies in `lo ≤ k < hi`. -/
def dropRange {α : Type} (lo hi : Nat) (m : SMap α) : SMap α :=
  m.filter (fun e => !(decide (lo ≤ e.1) && decide (e.1 < hi)))

/-- The entries whose key lies in `lo ≤ k < hi`. -/
def inRange {α : Type} (lo hi : Nat) (m : SMap α) : SMap α :=
  m.filter (fun e => decide (lo ≤ e.1) && decide (e.1 < hi))

end SMap

/-- Insert a key into a strictly rising list of keys (a set). -/
def insKey (k : Nat) : List Nat → List Nat
  | [] => [k]
  | j :: m => if k = j then j :: m else if k < j then k :: j :: m else j :: insKey k m

/-- Remove a key from a set. -/
def delKey (k : Nat) (m : List Nat) : List Nat := m.filter (fun j => j != k)

end Sys2Proof.Machine
end

