-- ==== Sys2Proof/Machine/Regs.lean ====
section
/-! DEFINITION. The register map: where every register lies in PF BAR0 (R414 and the register table of each chapter),
its reset value and the bits of each type code (R3). Written from the register and field tables of the chapters. -/

namespace Sys2Proof.Machine

/-- What the register tables say of one register or row of registers. `dims` gives stride and count of each index. -/
structure RegDesc where
  base : Nat
  dims : List (Nat × Nat)
  reset : Nat
  rw : Nat := 0
  w1c : Nat := 0
  cnt : Nat := 0
  cmd : Nat := 0
  lck : Nat := 0
  prv : Nat := 0
  ro : Nat := 0
deriving DecidableEq, Repr

namespace Reg

/-- Sources and enable, 01_cadence_and_line_inlet.md. -/
def CAD_CTRL : Nat := 0x100000
/-- Internal generator period (ns), 01_cadence_and_line_inlet.md. -/
def CAD_PERIOD : Nat := 0x100004
/-- Long-pulse threshold (ns), 01_cadence_and_line_inlet.md. -/
def CAD_SHEET_WIDTH : Nat := 0x100008
/-- CADENCE_OUT, 01_cadence_and_line_inlet.md. -/
def CAD_OUT_CTRL : Nat := 0x10000c
/-- Tick watch (µs), 01_cadence_and_line_inlet.md. -/
def CAD_TIMEOUT : Nat := 0x100010
/-- Commands, 01_cadence_and_line_inlet.md. -/
def CAD_CMD : Nat := 0x100014
/-- Device cadence events, 01_cadence_and_line_inlet.md. -/
def CAD_EVT : Nat := 0x100018
/-- Interrupt enables for CAD_EVT, 01_cadence_and_line_inlet.md. -/
def CAD_EVT_EN : Nat := 0x10001c
/-- Delivered ticks, bits 31:0, 01_cadence_and_line_inlet.md. -/
def CAD_TICK_LO : Nat := 0x100020
/-- Delivered ticks, bits 63:32, 01_cadence_and_line_inlet.md. -/
def CAD_TICK_HI : Nat := 0x100024
/-- Internal sheet number, 01_cadence_and_line_inlet.md. -/
def CAD_SHEET_NUM : Nat := 0x100028
/-- Last tick interval (ns), 01_cadence_and_line_inlet.md. -/
def CAD_INTERVAL : Nat := 0x10002c
/-- Braked time in last tick, 01_cadence_and_line_inlet.md. -/
def CAD_BRAKE_LAST : Nat := 0x100030
/-- Largest braked time since clear, 01_cadence_and_line_inlet.md. -/
def CAD_BRAKE_MAX : Nat := 0x100034
/-- P_min of instance i, 01_cadence_and_line_inlet.md. -/
def CAD_I_PMIN (i : Nat) : Nat := 0x100100 + 0x40 * i
/-- Brake budget B, 01_cadence_and_line_inlet.md. -/
def CAD_I_BRAKE (i : Nat) : Nat := 0x100104 + 0x40 * i
/-- Empty ticks before freewheel, 01_cadence_and_line_inlet.md. -/
def CAD_I_EMPTY_LIMIT (i : Nat) : Nat := 0x100108 + 0x40 * i
/-- Slip, freewheel, warm-up, 01_cadence_and_line_inlet.md. -/
def CAD_I_STAT (i : Nat) : Nat := 0x10010c + 0x40 * i
/-- Instance cadence events, 01_cadence_and_line_inlet.md. -/
def CAD_I_EVT (i : Nat) : Nat := 0x100110 + 0x40 * i
/-- Interrupt enables for CAD_I_EVT, 01_cadence_and_line_inlet.md. -/
def CAD_I_EVT_EN (i : Nat) : Nat := 0x100114 + 0x40 * i
/-- Smallest measured slack, 01_cadence_and_line_inlet.md. -/
def CAD_I_SLACK_MIN (i : Nat) : Nat := 0x100118 + 0x40 * i
/-- Early ticks ignored, 01_cadence_and_line_inlet.md. -/
def CAD_I_EARLY (i : Nat) : Nat := 0x10011c + 0x40 * i
/-- Lines dropped, 01_cadence_and_line_inlet.md. -/
def CAD_I_DROP (i : Nat) : Nat := 0x100120 + 0x40 * i
/-- Late results, 01_cadence_and_line_inlet.md. -/
def CAD_I_LATE (i : Nat) : Nat := 0x100124 + 0x40 * i
/-- Short lines, 01_cadence_and_line_inlet.md. -/
def CAD_I_SHORT (i : Nat) : Nat := 0x100128 + 0x40 * i
/-- Ticks in freewheel, 01_cadence_and_line_inlet.md. -/
def CAD_I_FW_TICKS (i : Nat) : Nat := 0x10012c + 0x40 * i
/-- Results discarded at freewheel entry, 01_cadence_and_line_inlet.md. -/
def CAD_I_FW_LOST (i : Nat) : Nat := 0x100130 + 0x40 * i
/-- Sheet marks in freewheel, 01_cadence_and_line_inlet.md. -/
def CAD_I_FW_SHEETS (i : Nat) : Nat := 0x100134 + 0x40 * i
/-- Enable, tick stream, PRBS, 01_cadence_and_line_inlet.md. -/
def INL_CTRL : Nat := 0x110000
/-- Lane enables, 01_cadence_and_line_inlet.md. -/
def INL_LANE_EN : Nat := 0x110004
/-- Commands, 01_cadence_and_line_inlet.md. -/
def INL_CMD : Nat := 0x110008
/-- Block lock per lane, 01_cadence_and_line_inlet.md. -/
def INL_LANE_LOCK : Nat := 0x11000c
/-- High BER per lane, 01_cadence_and_line_inlet.md. -/
def INL_LANE_HIBER : Nat := 0x110010
/-- Lock or high-BER events per lane, 01_cadence_and_line_inlet.md. -/
def INL_LANE_EVT : Nat := 0x110014
/-- Interrupt enables for INL_LANE_EVT, 01_cadence_and_line_inlet.md. -/
def INL_LANE_EVT_EN : Nat := 0x110018
/-- Stream events, 01_cadence_and_line_inlet.md. -/
def INL_EVT : Nat := 0x11001c
/-- Interrupt enables for INL_EVT, 01_cadence_and_line_inlet.md. -/
def INL_EVT_EN : Nat := 0x110020
/-- Invalid sync headers and blocks, 01_cadence_and_line_inlet.md. -/
def INL_LANE_ERR (j : Nat) : Nat := 0x110100 + 0x4 * j
/-- PRBS-31 bit errors, 01_cadence_and_line_inlet.md. -/
def INL_PRBS_ERR (j : Nat) : Nat := 0x110180 + 0x4 * j
/-- Entry match, 01_cadence_and_line_inlet.md. -/
def INL_MAP_MATCH (k : Nat) : Nat := 0x110200 + 0x10 * k
/-- Entry route, 01_cadence_and_line_inlet.md. -/
def INL_MAP_ROUTE (k : Nat) : Nat := 0x110204 + 0x10 * k
/-- Entry shape, 01_cadence_and_line_inlet.md. -/
def INL_MAP_SHAPE (k : Nat) : Nat := 0x110208 + 0x10 * k
/-- Sequence offset, 01_cadence_and_line_inlet.md. -/
def INL_MAP_ALIGN (k : Nat) : Nat := 0x11020c + 0x10 * k
/-- Good frames, 01_cadence_and_line_inlet.md. -/
def INL_S_FRAMES (s : Nat) : Nat := 0x110400 + 0x20 * s
/-- CRC failures, 01_cadence_and_line_inlet.md. -/
def INL_S_CRC (s : Nat) : Nat := 0x110404 + 0x20 * s
/-- Malformed frames, 01_cadence_and_line_inlet.md. -/
def INL_S_MALFORMED (s : Nat) : Nat := 0x110408 + 0x20 * s
/-- Late frames, 01_cadence_and_line_inlet.md. -/
def INL_S_LATE (s : Nat) : Nat := 0x11040c + 0x20 * s
/-- Frames too far ahead, 01_cadence_and_line_inlet.md. -/
def INL_S_AHEAD (s : Nat) : Nat := 0x110410 + 0x20 * s
/-- Duplicate segments, 01_cadence_and_line_inlet.md. -/
def INL_S_DUP (s : Nat) : Nat := 0x110414 + 0x20 * s
/-- Unmapped frames, 01_cadence_and_line_inlet.md. -/
def INL_S_UNMAPPED (s : Nat) : Nat := 0x110418 + 0x20 * s
/-- Last good sequence, 01_cadence_and_line_inlet.md. -/
def INL_S_LAST_SEQ (s : Nat) : Nat := 0x11041c + 0x20 * s
/-- Current line, 01_cadence_and_line_inlet.md. -/
def INL_I_SEQ (i : Nat) : Nat := 0x110600 + 0x10 * i
/-- Open sheet, 01_cadence_and_line_inlet.md. -/
def INL_I_SHEET (i : Nat) : Nat := 0x110604 + 0x10 * i
/-- Consecutive empty ticks, 01_cadence_and_line_inlet.md. -/
def INL_I_EMPTY (i : Nat) : Nat := 0x110608 + 0x10 * i
/-- First stage's pad rule, 01_cadence_and_line_inlet.md. -/
def INL_I_PAD (i : Nat) : Nat := 0x11060c + 0x10 * i
/-- Background scrubber enable, 06_matrix_engines.md. -/
def ENG_CTRL : Nat := 0x130000
/-- Scrub lines per tick per engine, 06_matrix_engines.md. -/
def ENG_SCRUB_RATE : Nat := 0x130004
/-- Engines 31:0 with an ENG_E_EVT bit set, 06_matrix_engines.md. -/
def ENG_EVT_SUM_LO : Nat := 0x130008
/-- Engines 63:32 with an ENG_E_EVT bit set, 06_matrix_engines.md. -/
def ENG_EVT_SUM_HI : Nat := 0x13000c
/-- State and owner, 06_matrix_engines.md. -/
def ENG_E_STAT (e : Nat) : Nat := 0x131000 + 0x40 * e
/-- Engine events, 06_matrix_engines.md. -/
def ENG_E_EVT (e : Nat) : Nat := 0x131004 + 0x40 * e
/-- Interrupt enables for ENG_E_EVT, 06_matrix_engines.md. -/
def ENG_E_EVT_EN (e : Nat) : Nat := 0x131008 + 0x40 * e
/-- Faulting command (R152), 06_matrix_engines.md. -/
def ENG_E_ERR (e : Nat) : Nat := 0x13100c + 0x40 * e
/-- Commands completed, 06_matrix_engines.md. -/
def ENG_E_CMDS (e : Nat) : Nat := 0x131010 + 0x40 * e
/-- Step cycles, bits 31:0, 06_matrix_engines.md. -/
def ENG_E_BUSY_LO (e : Nat) : Nat := 0x131014 + 0x40 * e
/-- Step cycles, bits 63:32, 06_matrix_engines.md. -/
def ENG_E_BUSY_HI (e : Nat) : Nat := 0x131018 + 0x40 * e
/-- Bytes loaded by LOADW, bits 31:0, 06_matrix_engines.md. -/
def ENG_E_LOAD_LO (e : Nat) : Nat := 0x13101c + 0x40 * e
/-- Bytes loaded by LOADW, bits 63:32, 06_matrix_engines.md. -/
def ENG_E_LOAD_HI (e : Nat) : Nat := 0x131020 + 0x40 * e
/-- Cycles a ready command waited on tags or slots, 06_matrix_engines.md. -/
def ENG_E_STALL (e : Nat) : Nat := 0x131024 + 0x40 * e
/-- Corrected errors, 06_matrix_engines.md. -/
def ENG_E_CE (e : Nat) : Nat := 0x131028 + 0x40 * e
/-- Uncorrectable errors, 06_matrix_engines.md. -/
def ENG_E_UE (e : Nat) : Nat := 0x13102c + 0x40 * e
/-- Last uncorrectable word, 06_matrix_engines.md. -/
def ENG_E_POISON (e : Nat) : Nat := 0x131030 + 0x40 * e
/-- Physical engine now serving e, 06_matrix_engines.md. -/
def ENG_E_PHYS (e : Nat) : Nat := 0x131034 + 0x40 * e
/-- Scrubber enable, 07_stream_tiles.md. -/
def TIL_CTRL : Nat := 0x140000
/-- Scrub units per tick per tile, 07_stream_tiles.md. -/
def TIL_SCRUB_RATE : Nat := 0x140004
/-- Spare column use, 07_stream_tiles.md. -/
def TIL_SPARE : Nat := 0x140008
/-- Columns 31:0 with a TIL_C_EVT bit set, 07_stream_tiles.md. -/
def TIL_EVT_SUM_LO : Nat := 0x14000c
/-- Columns 63:32 with a TIL_C_EVT bit set, 07_stream_tiles.md. -/
def TIL_EVT_SUM_HI : Nat := 0x140010
/-- State, owner, stage, epoch, 07_stream_tiles.md. -/
def TIL_C_STAT (c : Nat) : Nat := 0x141000 + 0x40 * c
/-- Column events, 07_stream_tiles.md. -/
def TIL_C_EVT (c : Nat) : Nat := 0x141004 + 0x40 * c
/-- Interrupt enables for TIL_C_EVT, 07_stream_tiles.md. -/
def TIL_C_EVT_EN (c : Nat) : Nat := 0x141008 + 0x40 * c
/-- Last fault, 07_stream_tiles.md. -/
def TIL_C_ERR (c : Nat) : Nat := 0x14100c + 0x40 * c
/-- Tile cycles in which any tile of the column issued a bundle, 07_stream_tiles.md. -/
def TIL_C_BUSY (c : Nat) : Nat := 0x141010 + 0x40 * c
/-- Corrected errors, 07_stream_tiles.md. -/
def TIL_C_CE (c : Nat) : Nat := 0x141014 + 0x40 * c
/-- Uncorrectable errors, 07_stream_tiles.md. -/
def TIL_C_UE (c : Nat) : Nat := 0x141018 + 0x40 * c
/-- Last uncorrectable word, 07_stream_tiles.md. -/
def TIL_C_POISON (c : Nat) : Nat := 0x14101c + 0x40 * c
/-- Tokens dropped in discard mode, 07_stream_tiles.md. -/
def TIL_C_TOK_OLD (c : Nat) : Nat := 0x141020 + 0x40 * c
/-- Tokens two or more epochs old, and mismatches beyond drain, 07_stream_tiles.md. -/
def TIL_C_TOK_STALE (c : Nat) : Nat := 0x141024 + 0x40 * c
/-- Flits dropped by R164, 07_stream_tiles.md. -/
def TIL_C_ROUTE_DROP (c : Nat) : Nat := 0x141028 + 0x40 * c
/-- Bytes written by the configuration port, 07_stream_tiles.md. -/
def TIL_C_CFG_BYTES (c : Nat) : Nat := 0x14102c + 0x40 * c
/-- Physical column now serving c, 07_stream_tiles.md. -/
def TIL_C_PHYS (c : Nat) : Nat := 0x141030 + 0x40 * c
/-- Scrubber enable, 08_brixari_instruction_set.md. -/
def SVC_CTRL : Nat := 0x150000
/-- Scrub units per tick per core, 08_brixari_instruction_set.md. -/
def SVC_SCRUB_RATE : Nat := 0x150004
/-- Cores 32n to 32n + 31 with an SVC_K_EVT bit set, n = 0 to 3, 08_brixari_instruction_set.md. -/
def SVC_EVT_SUM (n : Nat) : Nat := 0x150008 + 0x4 * n
/-- State, owner, stage, 08_brixari_instruction_set.md. -/
def SVC_K_STAT (k : Nat) : Nat := 0x151000 + 0x40 * k
/-- Core events, 08_brixari_instruction_set.md. -/
def SVC_K_EVT (k : Nat) : Nat := 0x151004 + 0x40 * k
/-- Interrupt enables for SVC_K_EVT, 08_brixari_instruction_set.md. -/
def SVC_K_EVT_EN (k : Nat) : Nat := 0x151008 + 0x40 * k
/-- Stop cause (R201), 08_brixari_instruction_set.md. -/
def SVC_K_ERR (k : Nat) : Nat := 0x15100c + 0x40 * k
/-- Current pc, 08_brixari_instruction_set.md. -/
def SVC_K_PC (k : Nat) : Nat := 0x151010 + 0x40 * k
/-- Instructions retired, bits 31:0, 08_brixari_instruction_set.md. -/
def SVC_K_RETIRED_LO (k : Nat) : Nat := 0x151014 + 0x40 * k
/-- Instructions retired, bits 63:32, 08_brixari_instruction_set.md. -/
def SVC_K_RETIRED_HI (k : Nat) : Nat := 0x151018 + 0x40 * k
/-- Cycles spent in QWAIT, QPOP, TICKWAIT and FENCE, 08_brixari_instruction_set.md. -/
def SVC_K_WAIT (k : Nat) : Nat := 0x15101c + 0x40 * k
/-- Corrected errors, 08_brixari_instruction_set.md. -/
def SVC_K_CE (k : Nat) : Nat := 0x151020 + 0x40 * k
/-- Uncorrectable errors, 08_brixari_instruction_set.md. -/
def SVC_K_UE (k : Nat) : Nat := 0x151024 + 0x40 * k
/-- Last uncorrectable word, 08_brixari_instruction_set.md. -/
def SVC_K_POISON (k : Nat) : Nat := 0x151028 + 0x40 * k
/-- Selected queue, 09_queues_and_transfers.md. -/
def QUE_SEL : Nat := 0x160000
/-- Kind, depth, modes, 09_queues_and_transfers.md. -/
def QUE_Q_CFG : Nat := 0x160004
/-- Host ring base, bits 31:0, 09_queues_and_transfers.md. -/
def QUE_Q_BASE_LO : Nat := 0x160008
/-- Host ring base, bits 63:32, 09_queues_and_transfers.md. -/
def QUE_Q_BASE_HI : Nat := 0x16000c
/-- Pointers, 09_queues_and_transfers.md. -/
def QUE_Q_PTR : Nat := 0x160010
/-- Fill and state, 09_queues_and_transfers.md. -/
def QUE_Q_STAT : Nat := 0x160014
/-- Queue events, 09_queues_and_transfers.md. -/
def QUE_Q_EVT : Nat := 0x160018
/-- Interrupt enables for QUE_Q_EVT, 09_queues_and_transfers.md. -/
def QUE_Q_EVT_EN : Nat := 0x16001c
/-- Notice threshold, 09_queues_and_transfers.md. -/
def QUE_Q_THRESH : Nat := 0x160020
/-- Overflow drops, 09_queues_and_transfers.md. -/
def QUE_Q_DROP : Nat := 0x160024
/-- Underflow VOIDs, 09_queues_and_transfers.md. -/
def QUE_Q_UNDER : Nat := 0x160028
/-- Parity errors, 09_queues_and_transfers.md. -/
def QUE_Q_PERR : Nat := 0x16002c
/-- Commands on the selected queue, 09_queues_and_transfers.md. -/
def QUE_CMD : Nat := 0x160030
/-- Owner, 09_queues_and_transfers.md. -/
def QUE_Q_ASSIGN : Nat := 0x160034
/-- Cap and home link, 09_queues_and_transfers.md. -/
def QUE_Q_CAP : Nat := 0x160038
/-- Largest transfer, 09_queues_and_transfers.md. -/
def QUE_Q_MAXB : Nat := 0x16003c
/-- First queue of the function with an event, 09_queues_and_transfers.md. -/
def QUE_EVT_FIRST : Nat := 0x160040
/-- Queues of the function with an event, 09_queues_and_transfers.md. -/
def QUE_EVT_COUNT : Nat := 0x160044
/-- Enable, 09_queues_and_transfers.md. -/
def XFR_CTRL : Nat := 0x170000
/-- Commands, 09_queues_and_transfers.md. -/
def XFR_CMD : Nat := 0x170004
/-- Engine x: link and busy contexts, 09_queues_and_transfers.md. -/
def XFR_E_STAT (x : Nat) : Nat := 0x170100 + 0x10 * x
/-- Beats moved, bits 31:0, 09_queues_and_transfers.md. -/
def XFR_E_BEATS_LO (x : Nat) : Nat := 0x170104 + 0x10 * x
/-- Beats moved, bits 63:32, 09_queues_and_transfers.md. -/
def XFR_E_BEATS_HI (x : Nat) : Nat := 0x170108 + 0x10 * x
/-- Longest wait on path p, 09_queues_and_transfers.md. -/
def XFR_P_WAIT_MAX (p : Nat) : Nat := 0x170200 + 0x4 * p
/-- Tags in use, 09_queues_and_transfers.md. -/
def XFR_I_STAT (i : Nat) : Nat := 0x170400 + 0x20 * i
/-- Instance transfer events, 09_queues_and_transfers.md. -/
def XFR_I_EVT (i : Nat) : Nat := 0x170404 + 0x20 * i
/-- Interrupt enables for XFR_I_EVT, 09_queues_and_transfers.md. -/
def XFR_I_EVT_EN (i : Nat) : Nat := 0x170408 + 0x20 * i
/-- Tasks and light requests completed, 09_queues_and_transfers.md. -/
def XFR_I_TASKS (i : Nat) : Nat := 0x17040c + 0x20 * i
/-- Aborted tasks, 09_queues_and_transfers.md. -/
def XFR_I_ABORTS (i : Nat) : Nat := 0x170410 + 0x20 * i
/-- Last aborted task: queue and program, 09_queues_and_transfers.md. -/
def XFR_I_ERR_Q (i : Nat) : Nat := 0x170414 + 0x20 * i
/-- Last aborted task: cause and beat, 09_queues_and_transfers.md. -/
def XFR_I_ERR_AT (i : Nat) : Nat := 0x170418 + 0x20 * i
/-- Poisoned words carried (R240), 09_queues_and_transfers.md. -/
def XFR_I_POISON (i : Nat) : Nat := 0x17041c + 0x20 * i
/-- Instances with an ADP_I_EVT bit set, 10_inline_adaptation.md. -/
def ADP_EVT_SUM : Nat := 0x190000
/-- Automatic promotion, checkpoints, 10_inline_adaptation.md. -/
def ADP_I_CTRL (i : Nat) : Nat := 0x190100 + 0x40 * i
/-- Promotion margin, 10_inline_adaptation.md. -/
def ADP_I_MARGIN (i : Nat) : Nat := 0x190104 + 0x40 * i
/-- Least held-out elements, 10_inline_adaptation.md. -/
def ADP_I_MIN_N (i : Nat) : Nat := 0x190108 + 0x40 * i
/-- Commands, 10_inline_adaptation.md. -/
def ADP_I_CMD (i : Nat) : Nat := 0x19010c + 0x40 * i
/-- State and roles, 10_inline_adaptation.md. -/
def ADP_I_STAT (i : Nat) : Nat := 0x190110 + 0x40 * i
/-- Adaptation events, 10_inline_adaptation.md. -/
def ADP_I_EVT (i : Nat) : Nat := 0x190114 + 0x40 * i
/-- Interrupt enables for ADP_I_EVT, 10_inline_adaptation.md. -/
def ADP_I_EVT_EN (i : Nat) : Nat := 0x190118 + 0x40 * i
/-- Live edition number, 10_inline_adaptation.md. -/
def ADP_I_EDITION (i : Nat) : Nat := 0x19011c + 0x40 * i
/-- Current candidate, 10_inline_adaptation.md. -/
def ADP_I_CAND_SEQ (i : Nat) : Nat := 0x190120 + 0x40 * i
/-- Sheet of the last record acted on, 10_inline_adaptation.md. -/
def ADP_I_LAST_SHEET (i : Nat) : Nat := 0x190124 + 0x40 * i
/-- From that record, 10_inline_adaptation.md. -/
def ADP_I_LOSS_LIVE (i : Nat) : Nat := 0x190128 + 0x40 * i
/-- From that record, 10_inline_adaptation.md. -/
def ADP_I_LOSS_CAND (i : Nat) : Nat := 0x19012c + 0x40 * i
/-- From that record, 10_inline_adaptation.md. -/
def ADP_I_HELD_N (i : Nat) : Nat := 0x190130 + 0x40 * i
/-- Promotions, 10_inline_adaptation.md. -/
def ADP_I_PROMOTIONS (i : Nat) : Nat := 0x190134 + 0x40 * i
/-- Deferred boundaries, 10_inline_adaptation.md. -/
def ADP_I_DEFERS (i : Nat) : Nat := 0x190138 + 0x40 * i
/-- Last committed checkpoint, 10_inline_adaptation.md. -/
def ADP_I_CKPT_SEQ (i : Nat) : Nat := 0x19013c + 0x40 * i
/-- Record field trained, 10_inline_adaptation.md. -/
def ADP_I_TRAINED (i : Nat) : Nat := 0x190400 + 0x10 * i
/-- Record field skipped, 10_inline_adaptation.md. -/
def ADP_I_SKIPPED (i : Nat) : Nat := 0x190404 + 0x10 * i
/-- Record field steps, 10_inline_adaptation.md. -/
def ADP_I_STEPS (i : Nat) : Nat := 0x190408 + 0x10 * i
/-- Record field nan_groups, 10_inline_adaptation.md. -/
def ADP_I_NAN (i : Nat) : Nat := 0x19040c + 0x10 * i
/-- Outlet enable, PRBS, 11_inspection_outputs.md. -/
def OUT_CTRL : Nat := 0x120000
/-- Lane enables, 11_inspection_outputs.md. -/
def OUT_LANE_EN : Nat := 0x120004
/-- Result and seal queues, 11_inspection_outputs.md. -/
def OUT_I_QUEUES (i : Nat) : Nat := 0x120100 + 0x80 * i
/-- Result window, 11_inspection_outputs.md. -/
def OUT_I_RES (i : Nat) : Nat := 0x120104 + 0x80 * i
/-- Mirrors, outlet, 11_inspection_outputs.md. -/
def OUT_I_CTRL (i : Nat) : Nat := 0x120108 + 0x80 * i
/-- Result mirror base, bits 31:0, 11_inspection_outputs.md. -/
def OUT_I_HBUF_LO (i : Nat) : Nat := 0x12010c + 0x80 * i
/-- Bits 63:32, 11_inspection_outputs.md. -/
def OUT_I_HBUF_HI (i : Nat) : Nat := 0x120110 + 0x80 * i
/-- Host queues, 11_inspection_outputs.md. -/
def OUT_I_HQUEUES (i : Nat) : Nat := 0x120114 + 0x80 * i
/-- Edition mirror base, bits 31:0, 11_inspection_outputs.md. -/
def OUT_I_ED_HBUF_LO (i : Nat) : Nat := 0x120118 + 0x80 * i
/-- Bits 63:32, 11_inspection_outputs.md. -/
def OUT_I_ED_HBUF_HI (i : Nat) : Nat := 0x12011c + 0x80 * i
/-- Half size, 64-byte units, 11_inspection_outputs.md. -/
def OUT_I_ED_HSIZE (i : Nat) : Nat := 0x120120 + 0x80 * i
/-- Commands, 11_inspection_outputs.md. -/
def OUT_I_CMD (i : Nat) : Nat := 0x120124 + 0x80 * i
/-- Unsealed sheets, 11_inspection_outputs.md. -/
def OUT_I_STAT (i : Nat) : Nat := 0x120128 + 0x80 * i
/-- Events, 11_inspection_outputs.md. -/
def OUT_I_EVT (i : Nat) : Nat := 0x12012c + 0x80 * i
/-- Interrupt enables for OUT_I_EVT, 11_inspection_outputs.md. -/
def OUT_I_EVT_EN (i : Nat) : Nat := 0x120130 + 0x80 * i
/-- Last published edition, 11_inspection_outputs.md. -/
def OUT_I_ED_NUM (i : Nat) : Nat := 0x120134 + 0x80 * i
/-- Its sheet, 11_inspection_outputs.md. -/
def OUT_I_ED_SHEET (i : Nat) : Nat := 0x120138 + 0x80 * i
/-- Its status byte, 11_inspection_outputs.md. -/
def OUT_I_ED_FLAGS (i : Nat) : Nat := 0x12013c + 0x80 * i
/-- Results committed, 11_inspection_outputs.md. -/
def OUT_I_RESULTS (i : Nat) : Nat := 0x120140 + 0x80 * i
/-- Result mirrors skipped, 11_inspection_outputs.md. -/
def OUT_I_MIRROR_DROP (i : Nat) : Nat := 0x120144 + 0x80 * i
/-- Deadlines missed, 11_inspection_outputs.md. -/
def OUT_I_DEADLINE (i : Nat) : Nat := 0x120148 + 0x80 * i
/-- Seal tokens dropped (R281): late, repeated, or for a sheet not yet ended, 11_inspection_outputs.md. -/
def OUT_I_LATE_SEAL (i : Nat) : Nat := 0x12014c + 0x80 * i
/-- Bit i: instance i has an event, 11_inspection_outputs.md. -/
def ACT_EVT_SUM : Nat := 0x1a0000
/-- Request and response queues, 11_inspection_outputs.md. -/
def ACT_I_QUEUES (i : Nat) : Nat := 0x1a0100 + 0x40 * i
/-- Records per request, 11_inspection_outputs.md. -/
def ACT_I_TICK_BUDGET (i : Nat) : Nat := 0x1a0104 + 0x40 * i
/-- Records per sheet, 11_inspection_outputs.md. -/
def ACT_I_SHEET_BUDGET (i : Nat) : Nat := 0x1a0108 + 0x40 * i
/-- Storm priority and keep, 11_inspection_outputs.md. -/
def ACT_I_STORM (i : Nat) : Nat := 0x1a010c + 0x40 * i
/-- Events, 11_inspection_outputs.md. -/
def ACT_I_EVT (i : Nat) : Nat := 0x1a0110 + 0x40 * i
/-- Interrupt enables for ACT_I_EVT, 11_inspection_outputs.md. -/
def ACT_I_EVT_EN (i : Nat) : Nat := 0x1a0114 + 0x40 * i
/-- Alarm codes raised, 11_inspection_outputs.md. -/
def ACT_I_ALARM (i : Nat) : Nat := 0x1a0118 + 0x40 * i
/-- Boxes kept, 11_inspection_outputs.md. -/
def ACT_I_BOXES (i : Nat) : Nat := 0x1a011c + 0x40 * i
/-- Candidates dropped, 11_inspection_outputs.md. -/
def ACT_I_BOX_DROP (i : Nat) : Nat := 0x1a0120 + 0x40 * i
/-- Record decisions, 11_inspection_outputs.md. -/
def ACT_I_RECORDS (i : Nat) : Nat := 0x1a0124 + 0x40 * i
/-- Boxes counted, 11_inspection_outputs.md. -/
def ACT_I_COUNTED (i : Nat) : Nat := 0x1a0128 + 0x40 * i
/-- Sheets entering storm mode, 11_inspection_outputs.md. -/
def ACT_I_STORMS (i : Nat) : Nat := 0x1a012c + 0x40 * i
/-- Entry k: validity, priority, instances, 11_inspection_outputs.md. -/
def ACT_E_MATCH (k : Nat) : Nat := 0x1a1000 + 0x20 * k
/-- Classes 31:0, 11_inspection_outputs.md. -/
def ACT_E_CLASS_LO (k : Nat) : Nat := 0x1a1004 + 0x20 * k
/-- Classes 63:32, 11_inspection_outputs.md. -/
def ACT_E_CLASS_HI (k : Nat) : Nat := 0x1a1008 + 0x20 * k
/-- Cross-web range, 11_inspection_outputs.md. -/
def ACT_E_XR (k : Nat) : Nat := 0x1a100c + 0x20 * k
/-- Along-web range, 11_inspection_outputs.md. -/
def ACT_E_YR (k : Nat) : Nat := 0x1a1010 + 0x20 * k
/-- Size range, 11_inspection_outputs.md. -/
def ACT_E_SIZE (k : Nat) : Nat := 0x1a1014 + 0x20 * k
/-- Action, 11_inspection_outputs.md. -/
def ACT_E_ACTION (k : Nat) : Nat := 0x1a1018 + 0x20 * k
/-- Zeroing on reset, 12_instances_and_live_change.md. -/
def INS_CTRL : Nat := 0x180000
/-- Instances with an INS_I_EVT bit set, 12_instances_and_live_change.md. -/
def INS_EVT_SUM : Nat := 0x180004
/-- Manual repair, 12_instances_and_live_change.md. -/
def INS_REPAIR : Nat := 0x180008
/-- Repair outcome, 12_instances_and_live_change.md. -/
def INS_REPAIR_STAT : Nat := 0x18000c
/-- State and load code, 12_instances_and_live_change.md. -/
def INS_I_STAT (i : Nat) : Nat := 0x180100 + 0x80 * i
/-- Commands, 12_instances_and_live_change.md. -/
def INS_I_CMD (i : Nat) : Nat := 0x180104 + 0x80 * i
/-- Events, 12_instances_and_live_change.md. -/
def INS_I_EVT (i : Nat) : Nat := 0x180108 + 0x80 * i
/-- Interrupt enables for INS_I_EVT, 12_instances_and_live_change.md. -/
def INS_I_EVT_EN (i : Nat) : Nat := 0x18010c + 0x80 * i
/-- Load source, 12_instances_and_live_change.md. -/
def INS_I_LOAD_SRC (i : Nat) : Nat := 0x180110 + 0x80 * i
/-- Bus address, bits 31:0, 12_instances_and_live_change.md. -/
def INS_I_LOAD_ADDR_LO (i : Nat) : Nat := 0x180114 + 0x80 * i
/-- Bits 63:32, 12_instances_and_live_change.md. -/
def INS_I_LOAD_ADDR_HI (i : Nat) : Nat := 0x180118 + 0x80 * i
/-- Bytes, 12_instances_and_live_change.md. -/
def INS_I_LOAD_LEN (i : Nat) : Nat := 0x18011c + 0x80 * i
/-- Reload target, 12_instances_and_live_change.md. -/
def INS_I_RELOAD (i : Nat) : Nat := 0x180120 + 0x80 * i
/-- Window offset, 12_instances_and_live_change.md. -/
def INS_I_RELOAD_OFF (i : Nat) : Nat := 0x180124 + 0x80 * i
/-- Reload outcome, 12_instances_and_live_change.md. -/
def INS_I_RELOAD_STAT (i : Nat) : Nat := 0x180128 + 0x80 * i
/-- Engines 31:0, 12_instances_and_live_change.md. -/
def INS_I_ENGINES_LO (i : Nat) : Nat := 0x18012c + 0x80 * i
/-- Engines 63:32, 12_instances_and_live_change.md. -/
def INS_I_ENGINES_HI (i : Nat) : Nat := 0x180130 + 0x80 * i
/-- Column run, 12_instances_and_live_change.md. -/
def INS_I_COLS (i : Nat) : Nat := 0x180134 + 0x80 * i
/-- Cores 32n to 32n + 31, n = 0 to 3, 12_instances_and_live_change.md. -/
def INS_I_CORES (i : Nat) (n : Nat) : Nat := 0x180138 + 0x80 * i + 0x4 * n
/-- Tags, 12_instances_and_live_change.md. -/
def INS_I_TAGS (i : Nat) : Nat := 0x180148 + 0x80 * i
/-- image_id, bits 31:0, 12_instances_and_live_change.md. -/
def INS_I_IMAGE_LO (i : Nat) : Nat := 0x18014c + 0x80 * i
/-- Bits 63:32, 12_instances_and_live_change.md. -/
def INS_I_IMAGE_HI (i : Nat) : Nat := 0x180150 + 0x80 * i
/-- Resets completed, 12_instances_and_live_change.md. -/
def INS_I_RESETS (i : Nat) : Nat := 0x180154 + 0x80 * i
/-- Reloads completed, 12_instances_and_live_change.md. -/
def INS_I_RELOADS (i : Nat) : Nat := 0x180158 + 0x80 * i
/-- Allowance of path p, 0 to 9, 12_instances_and_live_change.md. -/
def INS_I_ALLOW (i : Nat) (p : Nat) : Nat := 0x180800 + 0x40 * i + 0x4 * p
/-- Window entry k: owner and id, 12_instances_and_live_change.md. -/
def INS_W_MATCH (k : Nat) : Nat := 0x182000 + 0x10 * k
/-- Die, base, size, 12_instances_and_live_change.md. -/
def INS_W_PLACE (k : Nat) : Nat := 0x182004 + 0x10 * k
/-- Access, 12_instances_and_live_change.md. -/
def INS_W_ACCESS (k : Nat) : Nat := 0x182008 + 0x10 * k
/-- Enable, rate, scan, 13_record_store.md. -/
def STO_CTRL : Nat := 0x1b0000
/-- Store state, 13_record_store.md. -/
def STO_STAT : Nat := 0x1b0004
/-- Mount, close, 13_record_store.md. -/
def STO_CMD : Nat := 0x1b0008
/-- Store events, 13_record_store.md. -/
def STO_EVT : Nat := 0x1b000c
/-- Interrupt enables for STO_EVT, 13_record_store.md. -/
def STO_EVT_EN : Nat := 0x1b0010
/-- Present targets, 13_record_store.md. -/
def STO_TARGETS : Nat := 0x1b0014
/-- Wear-levelling delta, 13_record_store.md. -/
def STO_WL : Nat := 0x1b0018
/-- Scan period and threshold, 13_record_store.md. -/
def STO_REFRESH : Nat := 0x1b001c
/-- Read-disturb limit, 13_record_store.md. -/
def STO_RD_LIMIT : Nat := 0x1b0020
/-- Free blocks, 13_record_store.md. -/
def STO_FREE : Nat := 0x1b0024
/-- Spare pool left, 13_record_store.md. -/
def STO_SPARE : Nat := 0x1b0028
/-- Grown bad blocks, 13_record_store.md. -/
def STO_BAD_GROWN : Nat := 0x1b002c
/-- Sectors corrected, 13_record_store.md. -/
def STO_CE : Nat := 0x1b0030
/-- Uncorrectable sectors and invalid entries, 13_record_store.md. -/
def STO_UE : Nat := 0x1b0034
/-- Blocks relocated, 13_record_store.md. -/
def STO_RELOCS : Nat := 0x1b0038
/-- Transactions refused, 13_record_store.md. -/
def STO_LOST : Nat := 0x1b003c
/-- Largest erase count, 13_record_store.md. -/
def STO_ERASE_MAX : Nat := 0x1b0040
/-- Smallest erase count, 13_record_store.md. -/
def STO_ERASE_MIN : Nat := 0x1b0044
/-- Next transaction, bits 31:0, 13_record_store.md. -/
def STO_TXN_LO : Nat := 0x1b0048
/-- Bits 63:32, 13_record_store.md. -/
def STO_TXN_HI : Nat := 0x1b004c
/-- Last hold-up commit, 13_record_store.md. -/
def STO_HOLD : Nat := 0x1b0050
/-- Manager queues, 13_record_store.md. -/
def STO_CMDQ : Nat := 0x1b0054
/-- Partition p, 13_record_store.md. -/
def STO_P_CFG (p : Nat) : Nat := 0x1b0100 + 0x10 * p
/-- MiB in use, 13_record_store.md. -/
def STO_P_USED (p : Nat) : Nat := 0x1b0104 + 0x10 * p
/-- Released by wrap, 13_record_store.md. -/
def STO_P_WRAPPED (p : Nat) : Nat := 0x1b0108 + 0x10 * p
/-- Records removed for quota, 13_record_store.md. -/
def STO_P_LOST (p : Nat) : Nat := 0x1b010c + 0x10 * p
/-- Commit buffer share, 13_record_store.md. -/
def STO_I_BUF (i : Nat) : Nat := 0x1b0400 + 0x20 * i
/-- Command and completion queues, 13_record_store.md. -/
def STO_I_QUEUES (i : Nat) : Nat := 0x1b0404 + 0x20 * i
/-- Notifications, 13_record_store.md. -/
def STO_I_CTRL (i : Nat) : Nat := 0x1b0408 + 0x20 * i
/-- Buffer use, 13_record_store.md. -/
def STO_I_STAT (i : Nat) : Nat := 0x1b040c + 0x20 * i
/-- Instance store events, 13_record_store.md. -/
def STO_I_EVT (i : Nat) : Nat := 0x1b0410 + 0x20 * i
/-- Interrupt enables for STO_I_EVT, 13_record_store.md. -/
def STO_I_EVT_EN (i : Nat) : Nat := 0x1b0414 + 0x20 * i
/-- Records discarded (R321), 13_record_store.md. -/
def STO_I_REC_DROP (i : Nat) : Nat := 0x1b0418 + 0x20 * i
/-- Transactions on the medium, 13_record_store.md. -/
def STO_I_COMMITS (i : Nat) : Nat := 0x1b041c + 0x20 * i
/-- Scrub and test enables, repair wait, 14_faults_and_self_test.md. -/
def FLT_CTRL : Nat := 0x1c0000
/-- Lines per tick per die, 14_faults_and_self_test.md. -/
def FLT_BULK_SCRUB : Nat := 0x1c0004
/-- Commands, 14_faults_and_self_test.md. -/
def FLT_CMD : Nat := 0x1c0008
/-- Unit to test, 14_faults_and_self_test.md. -/
def FLT_TEST : Nat := 0x1c000c
/-- Test queue and last result, 14_faults_and_self_test.md. -/
def FLT_TEST_STAT : Nat := 0x1c0010
/-- Events, 14_faults_and_self_test.md. -/
def FLT_EVT : Nat := 0x1c0014
/-- Interrupt enables for FLT_EVT, 14_faults_and_self_test.md. -/
def FLT_EVT_EN : Nat := 0x1c0018
/-- Sources reported, 14_faults_and_self_test.md. -/
def FLT_SRC_SUM : Nat := 0x1c001c
/-- Device ring head, 14_faults_and_self_test.md. -/
def FLT_LOG_HEAD : Nat := 0x1c0020
/-- Device ring tail, 14_faults_and_self_test.md. -/
def FLT_LOG_TAIL : Nat := 0x1c0024
/-- Reports dropped, 14_faults_and_self_test.md. -/
def FLT_LOG_OVF : Nat := 0x1c0028
/-- Last dropped source and code, 14_faults_and_self_test.md. -/
def FLT_LOG_LASTDROP : Nat := 0x1c002c
/-- Entry to read, 14_faults_and_self_test.md. -/
def FLT_RD_SEL : Nat := 0x1c0030
/-- Entry word n, n = 0 to 7, 14_faults_and_self_test.md. -/
def FLT_RD_DATA (n : Nat) : Nat := 0x1c0034 + 0x4 * n
/-- Microseconds since cold start, bits 31:0, 14_faults_and_self_test.md. -/
def FLT_TIME_LO : Nat := 0x1c0054
/-- Bits 63:32, 14_faults_and_self_test.md. -/
def FLT_TIME_HI : Nat := 0x1c0058
/-- Fenced units by kind, 14_faults_and_self_test.md. -/
def FLT_FENCED : Nat := 0x1c005c
/-- Spare bulk banks left per die, 14_faults_and_self_test.md. -/
def FLT_SPARE_BANKS : Nat := 0x1c0060
/-- Transients, 14_faults_and_self_test.md. -/
def FLT_TRANSIENTS : Nat := 0x1c0064
/-- Lasting faults, 14_faults_and_self_test.md. -/
def FLT_LASTING : Nat := 0x1c0068
/-- Repairs done, 14_faults_and_self_test.md. -/
def FLT_REPAIRS : Nat := 0x1c006c
/-- Bulk and commit-buffer corrections, 14_faults_and_self_test.md. -/
def FLT_BULK_CE : Nat := 0x1c0070
/-- Bulk and commit-buffer uncorrectable words, 14_faults_and_self_test.md. -/
def FLT_BULK_UE : Nat := 0x1c0074
/-- Last uncorrectable bulk word, 14_faults_and_self_test.md. -/
def FLT_BULK_POISON : Nat := 0x1c0078
/-- Instance ring head, 14_faults_and_self_test.md. -/
def FLT_I_LOG_HEAD (i : Nat) : Nat := 0x1c0100 + 0x40 * i
/-- Instance ring tail, 14_faults_and_self_test.md. -/
def FLT_I_LOG_TAIL (i : Nat) : Nat := 0x1c0104 + 0x40 * i
/-- Reports dropped, 14_faults_and_self_test.md. -/
def FLT_I_LOG_OVF (i : Nat) : Nat := 0x1c0108 + 0x40 * i
/-- Last dropped source and code, 14_faults_and_self_test.md. -/
def FLT_I_LOG_LASTDROP (i : Nat) : Nat := 0x1c010c + 0x40 * i
/-- Sources reported, 14_faults_and_self_test.md. -/
def FLT_I_SRC_SUM (i : Nat) : Nat := 0x1c0110 + 0x40 * i
/-- Events, 14_faults_and_self_test.md. -/
def FLT_I_EVT (i : Nat) : Nat := 0x1c0114 + 0x40 * i
/-- Interrupt enables for FLT_I_EVT, 14_faults_and_self_test.md. -/
def FLT_I_EVT_EN (i : Nat) : Nat := 0x1c0118 + 0x40 * i
/-- Repair in hand, 14_faults_and_self_test.md. -/
def FLT_I_REPAIR (i : Nat) : Nat := 0x1c011c + 0x40 * i
/-- Line taint left, 14_faults_and_self_test.md. -/
def FLT_I_TAINT (i : Nat) : Nat := 0x1c0120 + 0x40 * i
/-- Commands, 14_faults_and_self_test.md. -/
def FLT_I_CMD (i : Nat) : Nat := 0x1c0124 + 0x40 * i
/-- Comparison wait, 15_tandem.md. -/
def TDM_CTRL : Nat := 0x1f0000
/-- Tick delivery delay, 15_tandem.md. -/
def TDM_DELAY : Nat := 0x1f0004
/-- Partner-loss timeout, 15_tandem.md. -/
def TDM_LOSS : Nat := 0x1f0008
/-- Pair, leave, 15_tandem.md. -/
def TDM_CMD : Nat := 0x1f000c
/-- Role and state, 15_tandem.md. -/
def TDM_STAT : Nat := 0x1f0010
/-- Events, 15_tandem.md. -/
def TDM_EVT : Nat := 0x1f0014
/-- Interrupt enables for TDM_EVT, 15_tandem.md. -/
def TDM_EVT_EN : Nat := 0x1f0018
/-- One-way link latency, 15_tandem.md. -/
def TDM_LINK_NS : Nat := 0x1f001c
/-- Lane enables, 15_tandem.md. -/
def TDM_LANE_EN : Nat := 0x1f0020
/-- Frame replays, 15_tandem.md. -/
def TDM_REPLAYS : Nat := 0x1f0024
/-- Ticks delivered late, 15_tandem.md. -/
def TDM_LATE_TICKS : Nat := 0x1f0028
/-- Host writes ignored on the follower, 15_tandem.md. -/
def TDM_HOSTWR_DROP : Nat := 0x1f002c
/-- Takeovers, 15_tandem.md. -/
def TDM_TAKEOVERS : Nat := 0x1f0030
/-- Test state and cursor, 15_tandem.md. -/
def TDM_I_STAT (i : Nat) : Nat := 0x1f0100 + 0x20 * i
/-- Instance events, 15_tandem.md. -/
def TDM_I_EVT (i : Nat) : Nat := 0x1f0104 + 0x20 * i
/-- Interrupt enables for TDM_I_EVT, 15_tandem.md. -/
def TDM_I_EVT_EN (i : Nat) : Nat := 0x1f0108 + 0x20 * i
/-- Data mismatches, 15_tandem.md. -/
def TDM_I_MISMATCH (i : Nat) : Nat := 0x1f010c + 0x20 * i
/-- Timing mismatches, 15_tandem.md. -/
def TDM_I_TIMING (i : Nat) : Nat := 0x1f0110 + 0x20 * i
/-- Transient verdicts, 15_tandem.md. -/
def TDM_I_TRANSIENT (i : Nat) : Nat := 0x1f0114 + 0x20 * i
/-- Line of the last data mismatch, 15_tandem.md. -/
def TDM_I_LAST (i : Nat) : Nat := 0x1f0118 + 0x20 * i
/-- Automatic gating, 16_clocks_and_power.md. -/
def CLK_CTRL : Nat := 0x1d0000
/-- Reference and PLL lock, 16_clocks_and_power.md. -/
def CLK_STAT : Nat := 0x1d0004
/-- Clock events, 16_clocks_and_power.md. -/
def CLK_EVT : Nat := 0x1d0008
/-- Interrupt enables for CLK_EVT, 16_clocks_and_power.md. -/
def CLK_EVT_EN : Nat := 0x1d000c
/-- Last window count, 16_clocks_and_power.md. -/
def CLK_MON : Nat := 0x1d0010
/-- Monitor limits, 16_clocks_and_power.md. -/
def CLK_MON_LIM : Nat := 0x1d0014
/-- Switches to the RC oscillator, 16_clocks_and_power.md. -/
def CLK_FALLBACKS : Nat := 0x1d0018
/-- Kept domains 32n to 32n + 31, n = 0 to 3, 16_clocks_and_power.md. -/
def CLK_KEEP (n : Nat) : Nat := 0x1d0020 + 0x4 * n
/-- Gated domains 32n to 32n + 31, 16_clocks_and_power.md. -/
def CLK_GATED (n : Nat) : Nat := 0x1d0030 + 0x4 * n
/-- PLL p, p = 0 to 9, 16_clocks_and_power.md. -/
def CLK_PLL (p : Nat) : Nat := 0x1d0100 + 0x4 * p
/-- Domain d target, 16_clocks_and_power.md. -/
def CLK_D_CFG (d : Nat) : Nat := 0x1d1000 + 0x10 * d
/-- Domain d state, 16_clocks_and_power.md. -/
def CLK_D_STAT (d : Nat) : Nat := 0x1d1004 + 0x10 * d
/-- Wakes from gated, 16_clocks_and_power.md. -/
def CLK_D_WAKES (d : Nat) : Nat := 0x1d1008 + 0x10 * d
/-- Braked time, ns, 16_clocks_and_power.md. -/
def CLK_D_BRAKED (d : Nat) : Nat := 0x1d100c + 0x10 * d
/-- Supplies, thermal state, braking sensors, 16_clocks_and_power.md. -/
def PWR_STAT : Nat := 0x1e0000
/-- Power events, 16_clocks_and_power.md. -/
def PWR_EVT : Nat := 0x1e0004
/-- Interrupt enables for PWR_EVT, 16_clocks_and_power.md. -/
def PWR_EVT_EN : Nat := 0x1e0008
/-- Commands, 16_clocks_and_power.md. -/
def PWR_CMD : Nat := 0x1e000c
/-- Brake threshold and hysteresis, 16_clocks_and_power.md. -/
def PWR_DROOP : Nat := 0x1e0010
/-- Park and warning thresholds, 16_clocks_and_power.md. -/
def PWR_THERM : Nat := 0x1e0014
/-- Tj now, 16_clocks_and_power.md. -/
def PWR_TJ : Nat := 0x1e0018
/-- Highest Tj since clear, 16_clocks_and_power.md. -/
def PWR_TJ_MAX : Nat := 0x1e001c
/-- Sensor s voltage, 16_clocks_and_power.md. -/
def PWR_S_VOLT (s : Nat) : Nat := 0x1e0100 + 0x10 * s
/-- Sensor s temperature, 16_clocks_and_power.md. -/
def PWR_S_TEMP (s : Nat) : Nat := 0x1e0104 + 0x10 * s
/-- Brake engagements, 16_clocks_and_power.md. -/
def PWR_S_BRAKES (s : Nat) : Nat := 0x1e0108 + 0x10 * s
/-- Time braking, ns, 16_clocks_and_power.md. -/
def PWR_S_BRAKE_NS (s : Nat) : Nat := 0x1e010c + 0x10 * s
/-- Part, grade, stepping, 17_host_interface_and_registers.md. -/
def HIF_ID : Nat := 0x0
/-- PCI vendor identifier, 17_host_interface_and_registers.md. -/
def HIF_VENDOR : Nat := 0x4
/-- Strap values sampled at cold start, 17_host_interface_and_registers.md. -/
def HIF_STRAPS : Nat := 0x8
/-- Spare counts, 17_host_interface_and_registers.md. -/
def HIF_UNITS : Nat := 0xc
/-- Physical engines 16n to 16n + 15, n = 0 to 4, 17_host_interface_and_registers.md. -/
def HIF_ENG_PMAP (n : Nat) : Nat := 0x10 + 0x4 * n
/-- Physical tile columns 16n to 16n + 15, n = 0 to 4, 17_host_interface_and_registers.md. -/
def HIF_COL_PMAP (n : Nat) : Nat := 0x24 + 0x4 * n
/-- Cores 32n to 32n + 31 fenced, n = 0 to 3, 17_host_interface_and_registers.md. -/
def HIF_CORE_FENCED (n : Nat) : Nat := 0x38 + 0x4 * n
/-- Manager also receives instance events, 17_host_interface_and_registers.md. -/
def HIF_WATCH : Nat := 0x48
/-- Host-interface events, 17_host_interface_and_registers.md. -/
def HIF_EVT : Nat := 0x4c
/-- Interrupt enables for HIF_EVT, 17_host_interface_and_registers.md. -/
def HIF_EVT_EN : Nat := 0x50
/-- First parity failure since clear, 17_host_interface_and_registers.md. -/
def HIF_PAR_ADDR : Nat := 0x54
/-- Parity mismatches, 17_host_interface_and_registers.md. -/
def HIF_PAR_COUNT : Nat := 0x58
/-- Parity fault injection, 17_host_interface_and_registers.md. -/
def HIF_PAR_INJ : Nat := 0x5c
/-- Messages not sent (R411), 17_host_interface_and_registers.md. -/
def HIF_MSG_DROP : Nat := 0x60
/-- Doorbells ignored (R409), 17_host_interface_and_registers.md. -/
def HIF_DB_BAD : Nat := 0x64
/-- Image key hash, n = 0 to 7, 17_host_interface_and_registers.md. -/
def HIF_KEYHASH (n : Nat) : Nat := 0x80 + 0x4 * n
/-- Pending sources of function f, f = 0 to 8, 17_host_interface_and_registers.md. -/
def HIF_F_PEND (f : Nat) : Nat := 0x100 + 0x4 * f
/-- Vectors of sources 4n to 4n + 3 of function f, n = 0 to 4, 17_host_interface_and_registers.md. -/
def HIF_F_EVEC (f : Nat) (n : Nat) : Nat := 0x400 + 0x20 * f + 0x4 * n
/-- Notice vector of device queue 14,336 + n, n = 0 to 2,047, 17_host_interface_and_registers.md. -/
def HIF_QV (n : Nat) : Nat := 0x2000 + 0x4 * n
/-- Debug state, 18_signals_and_package.md. -/
def DBG_STAT : Nat := 0x200000
/-- Flash boot outcome, 18_signals_and_package.md. -/
def DBG_BOOT : Nat := 0x200004
/-- Events, 18_signals_and_package.md. -/
def DBG_EVT : Nat := 0x200008
/-- Interrupt enables for DBG_EVT, 18_signals_and_package.md. -/
def DBG_EVT_EN : Nat := 0x20000c
/-- Word offset, 18_signals_and_package.md. -/
def DBG_MEM_ADDR_LO : Nat := 0x200010
/-- Memory and unit, 18_signals_and_package.md. -/
def DBG_MEM_ADDR_HI : Nat := 0x200014
/-- Data, bits 31:0, 18_signals_and_package.md. -/
def DBG_MEM_DATA_LO : Nat := 0x200018
/-- Data, bits 63:32, 18_signals_and_package.md. -/
def DBG_MEM_DATA_HI : Nat := 0x20001c
/-- Access, 18_signals_and_package.md. -/
def DBG_MEM_CMD : Nat := 0x200020
/-- Access state, 18_signals_and_package.md. -/
def DBG_MEM_STAT : Nat := 0x200024
/-- Ball levels, 18_signals_and_package.md. -/
def DBG_GPIO_IN : Nat := 0x200030
/-- Probe k signals, 18_signals_and_package.md. -/
def DBG_P_SEL (k : Nat) : Nat := 0x200100 + 0x10 * k
/-- Probe k window, 18_signals_and_package.md. -/
def DBG_P_TRIG (k : Nat) : Nat := 0x200104 + 0x10 * k
/-- Probe k count, 18_signals_and_package.md. -/
def DBG_P_CNT (k : Nat) : Nat := 0x200108 + 0x10 * k
/-- Probe k state, 18_signals_and_package.md. -/
def DBG_P_STAT (k : Nat) : Nat := 0x20010c + 0x10 * k
/-- GPIO k, 18_signals_and_package.md. -/
def DBG_GPIO (k : Nat) : Nat := 0x200200 + 0x4 * k

end Reg

/-- Registers of the CAD block. -/
def regsCad : List RegDesc := [
  { base := 0x100000, dims := [], reset := 0x0, rw := 0xf7 },
  { base := 0x100004, dims := [], reset := 0x7d0, rw := 0x3fffff },
  { base := 0x100008, dims := [], reset := 0xc8, rw := 0xffff },
  { base := 0x10000c, dims := [], reset := 0x0, rw := 0x1fff },
  { base := 0x100010, dims := [], reset := 0x2710, rw := 0x7fffff },
  { base := 0x100014, dims := [], reset := 0x0, cmd := 0x7 },
  { base := 0x100018, dims := [], reset := 0x0, w1c := 0xf },
  { base := 0x10001c, dims := [], reset := 0x0, rw := 0xf },
  { base := 0x100020, dims := [], reset := 0x0, ro := 0xffffffff },
  { base := 0x100024, dims := [], reset := 0x0, ro := 0xffffffff },
  { base := 0x100028, dims := [], reset := 0x0, ro := 0xffffff },
  { base := 0x10002c, dims := [], reset := 0x0, ro := 0x7fffff },
  { base := 0x100030, dims := [], reset := 0x0, ro := 0xffff },
  { base := 0x100034, dims := [], reset := 0x0, ro := 0xffff },
  { base := 0x100100, dims := [(0x40, 8)], reset := 0x0, ro := 0x3fffff },
  { base := 0x100104, dims := [(0x40, 8)], reset := 0x0, ro := 0xffff },
  { base := 0x100108, dims := [(0x40, 8)], reset := 0x10, rw := 0xffff },
  { base := 0x10010c, dims := [(0x40, 8)], reset := 0x0, ro := 0xfff1ff0f },
  { base := 0x100110, dims := [(0x40, 8)], reset := 0x0, w1c := 0x7f },
  { base := 0x100114, dims := [(0x40, 8)], reset := 0x0, rw := 0x7f },
  { base := 0x100118, dims := [(0x40, 8)], reset := 0x3fffff, ro := 0xff3fffff },
  { base := 0x10011c, dims := [(0x40, 8)], reset := 0x0, cnt := 0xffffffff },
  { base := 0x100120, dims := [(0x40, 8)], reset := 0x0, cnt := 0xffffffff },
  { base := 0x100124, dims := [(0x40, 8)], reset := 0x0, cnt := 0xffffffff },
  { base := 0x100128, dims := [(0x40, 8)], reset := 0x0, cnt := 0xffffffff },
  { base := 0x10012c, dims := [(0x40, 8)], reset := 0x0, cnt := 0xffffffff },
  { base := 0x100130, dims := [(0x40, 8)], reset := 0x0, cnt := 0xffffffff },
  { base := 0x100134, dims := [(0x40, 8)], reset := 0x0, cnt := 0xffffffff }]

/-- Registers of the INL block. -/
def regsInl : List RegDesc := [
  { base := 0x110000, dims := [], reset := 0x0, rw := 0xf3 },
  { base := 0x110004, dims := [], reset := 0x0, rw := 0xffffffff },
  { base := 0x110008, dims := [], reset := 0x0, cmd := 0xff01 },
  { base := 0x11000c, dims := [], reset := 0x0, ro := 0xffffffff },
  { base := 0x110010, dims := [], reset := 0x0, ro := 0xffffffff },
  { base := 0x110014, dims := [], reset := 0x0, w1c := 0xffffffff },
  { base := 0x110018, dims := [], reset := 0x0, rw := 0xffffffff },
  { base := 0x11001c, dims := [], reset := 0x0, w1c := 0x3fe },
  { base := 0x110020, dims := [], reset := 0x0, rw := 0x3fe },
  { base := 0x110100, dims := [(0x4, 32)], reset := 0x0, cnt := 0xffffffff },
  { base := 0x110180, dims := [(0x4, 32)], reset := 0x0, cnt := 0xffffffff },
  { base := 0x110200, dims := [(0x10, 32)], reset := 0x0, prv := 0x1ff },
  { base := 0x110204, dims := [(0x10, 32)], reset := 0x0, prv := 0xffffffff },
  { base := 0x110208, dims := [(0x10, 32)], reset := 0x0, prv := 0xffffffff },
  { base := 0x11020c, dims := [(0x10, 32)], reset := 0x0, prv := 0xffff },
  { base := 0x110400, dims := [(0x20, 16)], reset := 0x0, cnt := 0xffffffff },
  { base := 0x110404, dims := [(0x20, 16)], reset := 0x0, cnt := 0xffffffff },
  { base := 0x110408, dims := [(0x20, 16)], reset := 0x0, cnt := 0xffffffff },
  { base := 0x11040c, dims := [(0x20, 16)], reset := 0x0, cnt := 0xffffffff },
  { base := 0x110410, dims := [(0x20, 16)], reset := 0x0, cnt := 0xffffffff },
  { base := 0x110414, dims := [(0x20, 16)], reset := 0x0, cnt := 0xffffffff },
  { base := 0x110418, dims := [(0x20, 16)], reset := 0x0, cnt := 0xffffffff },
  { base := 0x11041c, dims := [(0x20, 16)], reset := 0x0, ro := 0xffffffff },
  { base := 0x110600, dims := [(0x10, 8)], reset := 0x0, ro := 0xffffffff },
  { base := 0x110604, dims := [(0x10, 8)], reset := 0x0, ro := 0xffffff },
  { base := 0x110608, dims := [(0x10, 8)], reset := 0x0, ro := 0xffff },
  { base := 0x11060c, dims := [(0x10, 8)], reset := 0x0, ro := 0xfff0003 }]

/-- Registers of the ENG block. -/
def regsEng : List RegDesc := [
  { base := 0x130000, dims := [], reset := 0x1, prv := 0x1 },
  { base := 0x130004, dims := [], reset := 0x40, prv := 0xfff },
  { base := 0x130008, dims := [], reset := 0x0, ro := 0xffffffff },
  { base := 0x13000c, dims := [], reset := 0x0, ro := 0xffffffff },
  { base := 0x131000, dims := [(0x40, 64)], reset := 0xf000000, ro := 0xff3fff0f },
  { base := 0x131004, dims := [(0x40, 64)], reset := 0x0, w1c := 0x3f },
  { base := 0x131008, dims := [(0x40, 64)], reset := 0x0, rw := 0x3f },
  { base := 0x13100c, dims := [(0x40, 64)], reset := 0x0, ro := 0xff00ffff },
  { base := 0x131010, dims := [(0x40, 64)], reset := 0x0, cnt := 0xffffffff },
  { base := 0x131014, dims := [(0x40, 64)], reset := 0x0, cnt := 0xffffffff },
  { base := 0x131018, dims := [(0x40, 64)], reset := 0x0, cnt := 0xffffffff },
  { base := 0x13101c, dims := [(0x40, 64)], reset := 0x0, cnt := 0xffffffff },
  { base := 0x131020, dims := [(0x40, 64)], reset := 0x0, cnt := 0xffffffff },
  { base := 0x131024, dims := [(0x40, 64)], reset := 0x0, cnt := 0xffffffff },
  { base := 0x131028, dims := [(0x40, 64)], reset := 0x0, cnt := 0xffffffff },
  { base := 0x13102c, dims := [(0x40, 64)], reset := 0x0, cnt := 0xffffffff },
  { base := 0x131030, dims := [(0x40, 64)], reset := 0x0, ro := 0xc00fffff },
  { base := 0x131034, dims := [(0x40, 64)], reset := 0x0, ro := 0x7f }]

/-- Registers of the TIL block. -/
def regsTil : List RegDesc := [
  { base := 0x140000, dims := [], reset := 0x1, prv := 0x1 },
  { base := 0x140004, dims := [], reset := 0x10, prv := 0x3ff },
  { base := 0x140008, dims := [], reset := 0xffff0002, ro := 0xffff0003 },
  { base := 0x14000c, dims := [], reset := 0x0, ro := 0xffffffff },
  { base := 0x140010, dims := [], reset := 0x0, ro := 0xffffffff },
  { base := 0x141000, dims := [(0x40, 64)], reset := 0xf000000, ro := 0xffff0301 },
  { base := 0x141004, dims := [(0x40, 64)], reset := 0x0, w1c := 0x1ff },
  { base := 0x141008, dims := [(0x40, 64)], reset := 0x0, rw := 0x1ff },
  { base := 0x14100c, dims := [(0x40, 64)], reset := 0x0, ro := 0xf01f07ff },
  { base := 0x141010, dims := [(0x40, 64)], reset := 0x0, cnt := 0xffffffff },
  { base := 0x141014, dims := [(0x40, 64)], reset := 0x0, cnt := 0xffffffff },
  { base := 0x141018, dims := [(0x40, 64)], reset := 0x0, cnt := 0xffffffff },
  { base := 0x14101c, dims := [(0x40, 64)], reset := 0x0, ro := 0xf8003fff },
  { base := 0x141020, dims := [(0x40, 64)], reset := 0x0, cnt := 0xffffffff },
  { base := 0x141024, dims := [(0x40, 64)], reset := 0x0, cnt := 0xffffffff },
  { base := 0x141028, dims := [(0x40, 64)], reset := 0x0, cnt := 0xffffffff },
  { base := 0x14102c, dims := [(0x40, 64)], reset := 0x0, cnt := 0xffffffff },
  { base := 0x141030, dims := [(0x40, 64)], reset := 0x0, ro := 0x7f }]

/-- Registers of the SVC block. -/
def regsSvc : List RegDesc := [
  { base := 0x150000, dims := [], reset := 0x1, prv := 0x1 },
  { base := 0x150004, dims := [], reset := 0x10, prv := 0x3ff },
  { base := 0x150008, dims := [(0x4, 4)], reset := 0x0, ro := 0xffffffff },
  { base := 0x151000, dims := [(0x40, 128)], reset := 0xf000000, ro := 0xffff0000 },
  { base := 0x151004, dims := [(0x40, 128)], reset := 0x0, w1c := 0x3f },
  { base := 0x151008, dims := [(0x40, 128)], reset := 0x0, rw := 0x3f },
  { base := 0x15100c, dims := [(0x40, 128)], reset := 0x0, ro := 0xf001ffff },
  { base := 0x151010, dims := [(0x40, 128)], reset := 0x0, ro := 0x1ffff },
  { base := 0x151014, dims := [(0x40, 128)], reset := 0x0, cnt := 0xffffffff },
  { base := 0x151018, dims := [(0x40, 128)], reset := 0x0, cnt := 0xffffffff },
  { base := 0x15101c, dims := [(0x40, 128)], reset := 0x0, cnt := 0xffffffff },
  { base := 0x151020, dims := [(0x40, 128)], reset := 0x0, cnt := 0xffffffff },
  { base := 0x151024, dims := [(0x40, 128)], reset := 0x0, cnt := 0xffffffff },
  { base := 0x151028, dims := [(0x40, 128)], reset := 0x0, ro := 0x1ffff }]

/-- Registers of the QUE block. -/
def regsQue : List RegDesc := [
  { base := 0x160000, dims := [], reset := 0x0, ro := 0x80000000, rw := 0x3fff },
  { base := 0x160004, dims := [], reset := 0x0, lck := 0xf00f0100, rw := 0x30 },
  { base := 0x160008, dims := [], reset := 0x0, lck := 0xffffffc0 },
  { base := 0x16000c, dims := [], reset := 0x0, lck := 0xffffffff },
  { base := 0x160010, dims := [], reset := 0x0, ro := 0xffffffff },
  { base := 0x160014, dims := [], reset := 0xf020000, ro := 0x3f07ffff },
  { base := 0x160018, dims := [], reset := 0x0, w1c := 0x3f },
  { base := 0x16001c, dims := [], reset := 0x0, rw := 0x3f },
  { base := 0x160020, dims := [], reset := 0x0, rw := 0xffff },
  { base := 0x160024, dims := [], reset := 0x0, cnt := 0xffffffff },
  { base := 0x160028, dims := [], reset := 0x0, cnt := 0xffffffff },
  { base := 0x16002c, dims := [], reset := 0x0, cnt := 0xffffffff },
  { base := 0x160030, dims := [], reset := 0x0, cmd := 0x3 },
  { base := 0x160034, dims := [], reset := 0x0, prv := 0x8f000000 },
  { base := 0x160038, dims := [], reset := 0x0, prv := 0x3ffff },
  { base := 0x16003c, dims := [], reset := 0x0, prv := 0xffffffff },
  { base := 0x160040, dims := [], reset := 0x80000000, ro := 0x80003fff },
  { base := 0x160044, dims := [], reset := 0x0, ro := 0x7fff }]

/-- Registers of the XFR block. -/
def regsXfr : List RegDesc := [
  { base := 0x170000, dims := [], reset := 0x1, prv := 0x1 },
  { base := 0x170004, dims := [], reset := 0x0, cmd := 0x1 },
  { base := 0x170100, dims := [(0x10, 16)], reset := 0x0, ro := 0xc00001ff },
  { base := 0x170104, dims := [(0x10, 16)], reset := 0x0, cnt := 0xffffffff },
  { base := 0x170108, dims := [(0x10, 16)], reset := 0x0, cnt := 0xffffffff },
  { base := 0x170200, dims := [(0x4, 10)], reset := 0x0, ro := 0xfffff },
  { base := 0x170400, dims := [(0x20, 8)], reset := 0x0, ro := 0x7ffff },
  { base := 0x170404, dims := [(0x20, 8)], reset := 0x0, w1c := 0x7 },
  { base := 0x170408, dims := [(0x20, 8)], reset := 0x0, rw := 0x7 },
  { base := 0x17040c, dims := [(0x20, 8)], reset := 0x0, cnt := 0xffffffff },
  { base := 0x170410, dims := [(0x20, 8)], reset := 0x0, cnt := 0xffffffff },
  { base := 0x170414, dims := [(0x20, 8)], reset := 0x0, ro := 0xfffcffff },
  { base := 0x170418, dims := [(0x20, 8)], reset := 0x0, ro := 0xffffffff },
  { base := 0x17041c, dims := [(0x20, 8)], reset := 0x0, cnt := 0xffffffff }]

/-- Registers of the ADP block. -/
def regsAdp : List RegDesc := [
  { base := 0x190000, dims := [], reset := 0x0, ro := 0xff },
  { base := 0x190100, dims := [(0x40, 8)], reset := 0x0, rw := 0x3 },
  { base := 0x190104, dims := [(0x40, 8)], reset := 0x0, rw := 0xffff },
  { base := 0x190108, dims := [(0x40, 8)], reset := 0x10000, rw := 0xffffffff },
  { base := 0x19010c, dims := [(0x40, 8)], reset := 0x0, cmd := 0x1f },
  { base := 0x190110, dims := [(0x40, 8)], reset := 0x3f0000, ro := 0xf33f0701 },
  { base := 0x190114, dims := [(0x40, 8)], reset := 0x0, w1c := 0xfff },
  { base := 0x190118, dims := [(0x40, 8)], reset := 0x0, rw := 0xfff },
  { base := 0x19011c, dims := [(0x40, 8)], reset := 0x0, ro := 0xffffffff },
  { base := 0x190120, dims := [(0x40, 8)], reset := 0x0, ro := 0xffffffff },
  { base := 0x190124, dims := [(0x40, 8)], reset := 0x0, ro := 0xffffff },
  { base := 0x190128, dims := [(0x40, 8)], reset := 0x0, ro := 0xffffffff },
  { base := 0x19012c, dims := [(0x40, 8)], reset := 0x0, ro := 0xffffffff },
  { base := 0x190130, dims := [(0x40, 8)], reset := 0x0, ro := 0xffffffff },
  { base := 0x190134, dims := [(0x40, 8)], reset := 0x0, cnt := 0xffffffff },
  { base := 0x190138, dims := [(0x40, 8)], reset := 0x0, cnt := 0xffffffff },
  { base := 0x19013c, dims := [(0x40, 8)], reset := 0x0, ro := 0xffffffff },
  { base := 0x190400, dims := [(0x10, 8)], reset := 0x0, ro := 0xffffffff },
  { base := 0x190404, dims := [(0x10, 8)], reset := 0x0, ro := 0xffffffff },
  { base := 0x190408, dims := [(0x10, 8)], reset := 0x0, ro := 0xffffffff },
  { base := 0x19040c, dims := [(0x10, 8)], reset := 0x0, ro := 0xffffffff }]

/-- Registers of the OUT block. -/
def regsOut : List RegDesc := [
  { base := 0x120000, dims := [], reset := 0x0, prv := 0x3 },
  { base := 0x120004, dims := [], reset := 0x0, prv := 0xff },
  { base := 0x120100, dims := [(0x80, 8)], reset := 0x0, lck := 0x3fff3fff },
  { base := 0x120104, dims := [(0x80, 8)], reset := 0x0, lck := 0xff0fffff },
  { base := 0x120108, dims := [(0x80, 8)], reset := 0x0, rw := 0xf },
  { base := 0x12010c, dims := [(0x80, 8)], reset := 0x0, lck := 0xffffffc0 },
  { base := 0x120110, dims := [(0x80, 8)], reset := 0x0, lck := 0xffffffff },
  { base := 0x120114, dims := [(0x80, 8)], reset := 0x0, lck := 0x3fff3fff },
  { base := 0x120118, dims := [(0x80, 8)], reset := 0x0, lck := 0xffffffc0 },
  { base := 0x12011c, dims := [(0x80, 8)], reset := 0x0, lck := 0xffffffff },
  { base := 0x120120, dims := [(0x80, 8)], reset := 0x0, lck := 0xffff },
  { base := 0x120124, dims := [(0x80, 8)], reset := 0x0, cmd := 0x3 },
  { base := 0x120128, dims := [(0x80, 8)], reset := 0x0, ro := 0x7 },
  { base := 0x12012c, dims := [(0x80, 8)], reset := 0x0, w1c := 0xff },
  { base := 0x120130, dims := [(0x80, 8)], reset := 0x0, rw := 0xff },
  { base := 0x120134, dims := [(0x80, 8)], reset := 0x0, ro := 0xffffffff },
  { base := 0x120138, dims := [(0x80, 8)], reset := 0x0, ro := 0xffffff },
  { base := 0x12013c, dims := [(0x80, 8)], reset := 0x0, ro := 0xff },
  { base := 0x120140, dims := [(0x80, 8)], reset := 0x0, cnt := 0xffffffff },
  { base := 0x120144, dims := [(0x80, 8)], reset := 0x0, cnt := 0xffffffff },
  { base := 0x120148, dims := [(0x80, 8)], reset := 0x0, cnt := 0xffffffff },
  { base := 0x12014c, dims := [(0x80, 8)], reset := 0x0, cnt := 0xffffffff }]

/-- Registers of the ACT block. -/
def regsAct : List RegDesc := [
  { base := 0x1a0000, dims := [], reset := 0x0, ro := 0xff },
  { base := 0x1a0100, dims := [(0x40, 8)], reset := 0x0, lck := 0x3fff3fff },
  { base := 0x1a0104, dims := [(0x40, 8)], reset := 0x4, rw := 0x7f },
  { base := 0x1a0108, dims := [(0x40, 8)], reset := 0x800, rw := 0xffffff },
  { base := 0x1a010c, dims := [(0x40, 8)], reset := 0x10f, rw := 0xf0f },
  { base := 0x1a0110, dims := [(0x40, 8)], reset := 0x0, w1c := 0x7 },
  { base := 0x1a0114, dims := [(0x40, 8)], reset := 0x0, rw := 0x7 },
  { base := 0x1a0118, dims := [(0x40, 8)], reset := 0x0, w1c := 0xfe },
  { base := 0x1a011c, dims := [(0x40, 8)], reset := 0x0, cnt := 0xffffffff },
  { base := 0x1a0120, dims := [(0x40, 8)], reset := 0x0, cnt := 0xffffffff },
  { base := 0x1a0124, dims := [(0x40, 8)], reset := 0x0, cnt := 0xffffffff },
  { base := 0x1a0128, dims := [(0x40, 8)], reset := 0x0, cnt := 0xffffffff },
  { base := 0x1a012c, dims := [(0x40, 8)], reset := 0x0, cnt := 0xffffffff },
  { base := 0x1a1000, dims := [(0x20, 256)], reset := 0x0, prv := 0x8fff00ff },
  { base := 0x1a1004, dims := [(0x20, 256)], reset := 0x0, prv := 0xffffffff },
  { base := 0x1a1008, dims := [(0x20, 256)], reset := 0x0, prv := 0xffffffff },
  { base := 0x1a100c, dims := [(0x20, 256)], reset := 0xffff0000, prv := 0xffffffff },
  { base := 0x1a1010, dims := [(0x20, 256)], reset := 0xffff0000, prv := 0xffffffff },
  { base := 0x1a1014, dims := [(0x20, 256)], reset := 0xffff0000, prv := 0xffffffff },
  { base := 0x1a1018, dims := [(0x20, 256)], reset := 0x0, prv := 0x73 }]

/-- Registers of the INS block. -/
def regsIns : List RegDesc := [
  { base := 0x180000, dims := [], reset := 0x1, prv := 0x1 },
  { base := 0x180004, dims := [], reset := 0x0, ro := 0xff },
  { base := 0x180008, dims := [], reset := 0x0, cmd := 0x80000000, prv := 0x100003f },
  { base := 0x18000c, dims := [], reset := 0x0, ro := 0x8300007f },
  { base := 0x180100, dims := [(0x80, 8)], reset := 0x0, ro := 0xf1ff0000 },
  { base := 0x180104, dims := [(0x80, 8)], reset := 0x0, cmd := 0xf },
  { base := 0x180108, dims := [(0x80, 8)], reset := 0x0, w1c := 0xff },
  { base := 0x18010c, dims := [(0x80, 8)], reset := 0x0, rw := 0xff },
  { base := 0x180110, dims := [(0x80, 8)], reset := 0x0, rw := 0x800000ff },
  { base := 0x180114, dims := [(0x80, 8)], reset := 0x0, rw := 0xffffffff },
  { base := 0x180118, dims := [(0x80, 8)], reset := 0x0, rw := 0xffffffff },
  { base := 0x18011c, dims := [(0x80, 8)], reset := 0x0, rw := 0x3fffffff },
  { base := 0x180120, dims := [(0x80, 8)], reset := 0x0, rw := 0x3fffffff },
  { base := 0x180124, dims := [(0x80, 8)], reset := 0x0, rw := 0xffffffc0 },
  { base := 0x180128, dims := [(0x80, 8)], reset := 0x0, ro := 0xffff },
  { base := 0x18012c, dims := [(0x80, 8)], reset := 0x0, prv := 0xffffffff },
  { base := 0x180130, dims := [(0x80, 8)], reset := 0x0, prv := 0xffffffff },
  { base := 0x180134, dims := [(0x80, 8)], reset := 0x0, prv := 0x7f3f },
  { base := 0x180138, dims := [(0x80, 8), (0x4, 4)], reset := 0x0, prv := 0xffffffff },
  { base := 0x180148, dims := [(0x80, 8)], reset := 0x0, prv := 0x7ffff },
  { base := 0x18014c, dims := [(0x80, 8)], reset := 0x0, ro := 0xffffffff },
  { base := 0x180150, dims := [(0x80, 8)], reset := 0x0, ro := 0xffffffff },
  { base := 0x180154, dims := [(0x80, 8)], reset := 0x0, cnt := 0xffffffff },
  { base := 0x180158, dims := [(0x80, 8)], reset := 0x0, cnt := 0xffffffff },
  { base := 0x180800, dims := [(0x40, 8), (0x4, 10)], reset := 0x0, ro := 0xffffffff },
  { base := 0x182000, dims := [(0x10, 512)], reset := 0x0, prv := 0x8f00003f },
  { base := 0x182004, dims := [(0x10, 512)], reset := 0x0, prv := 0xc7ff07ff },
  { base := 0x182008, dims := [(0x10, 512)], reset := 0x0, prv := 0x7 }]

/-- Registers of the STO block. -/
def regsSto : List RegDesc := [
  { base := 0x1b0000, dims := [], reset := 0x1, prv := 0x131 },
  { base := 0x1b0004, dims := [], reset := 0x0, ro := 0xf000003f },
  { base := 0x1b0008, dims := [], reset := 0x0, cmd := 0x3 },
  { base := 0x1b000c, dims := [], reset := 0x0, w1c := 0x7f },
  { base := 0x1b0010, dims := [], reset := 0x0, rw := 0x7f },
  { base := 0x1b0014, dims := [], reset := 0x0, ro := 0xffffffff },
  { base := 0x1b0018, dims := [], reset := 0xc8, prv := 0xffff },
  { base := 0x1b001c, dims := [], reset := 0x2800a8, prv := 0x3fffff },
  { base := 0x1b0020, dims := [], reset := 0x186a0, prv := 0xffffffff },
  { base := 0x1b0024, dims := [], reset := 0x0, ro := 0xffffffff },
  { base := 0x1b0028, dims := [], reset := 0x0, ro := 0xffffffff },
  { base := 0x1b002c, dims := [], reset := 0x0, cnt := 0xffffffff },
  { base := 0x1b0030, dims := [], reset := 0x0, cnt := 0xffffffff },
  { base := 0x1b0034, dims := [], reset := 0x0, cnt := 0xffffffff },
  { base := 0x1b0038, dims := [], reset := 0x0, cnt := 0xffffffff },
  { base := 0x1b003c, dims := [], reset := 0x0, cnt := 0xffffffff },
  { base := 0x1b0040, dims := [], reset := 0x0, ro := 0xffffffff },
  { base := 0x1b0044, dims := [], reset := 0x0, ro := 0xffffffff },
  { base := 0x1b0048, dims := [], reset := 0x0, ro := 0xffffffff },
  { base := 0x1b004c, dims := [], reset := 0x0, ro := 0xffffffff },
  { base := 0x1b0050, dims := [], reset := 0x0, ro := 0xc000ffff },
  { base := 0x1b0054, dims := [], reset := 0x0, prv := 0x3fff3fff },
  { base := 0x1b0100, dims := [(0x10, 16)], reset := 0x0, prv := 0x8fffffff },
  { base := 0x1b0104, dims := [(0x10, 16)], reset := 0x0, ro := 0xffff },
  { base := 0x1b0108, dims := [(0x10, 16)], reset := 0x0, cnt := 0xffffffff },
  { base := 0x1b010c, dims := [(0x10, 16)], reset := 0x0, cnt := 0xffffffff },
  { base := 0x1b0400, dims := [(0x20, 8)], reset := 0x0, prv := 0x3fff },
  { base := 0x1b0404, dims := [(0x20, 8)], reset := 0x0, lck := 0x3fff3fff },
  { base := 0x1b0408, dims := [(0x20, 8)], reset := 0x0, rw := 0x1 },
  { base := 0x1b040c, dims := [(0x20, 8)], reset := 0x0, ro := 0x3fff },
  { base := 0x1b0410, dims := [(0x20, 8)], reset := 0x0, w1c := 0x3 },
  { base := 0x1b0414, dims := [(0x20, 8)], reset := 0x0, rw := 0x3 },
  { base := 0x1b0418, dims := [(0x20, 8)], reset := 0x0, cnt := 0xffffffff },
  { base := 0x1b041c, dims := [(0x20, 8)], reset := 0x0, cnt := 0xffffffff }]

/-- Registers of the FLT block. -/
def regsFlt : List RegDesc := [
  { base := 0x1c0000, dims := [], reset := 0x4000003, prv := 0xffff0003 },
  { base := 0x1c0004, dims := [], reset := 0x40, prv := 0xfff },
  { base := 0x1c0008, dims := [], reset := 0x0, cmd := 0x7 },
  { base := 0x1c000c, dims := [], reset := 0x0, prv := 0xf000ffff },
  { base := 0x1c0010, dims := [], reset := 0x0, ro := 0x807f0300 },
  { base := 0x1c0014, dims := [], reset := 0x0, w1c := 0x3f },
  { base := 0x1c0018, dims := [], reset := 0x0, rw := 0x3f },
  { base := 0x1c001c, dims := [], reset := 0x0, w1c := 0x7fffe },
  { base := 0x1c0020, dims := [], reset := 0x0, ro := 0x7ff },
  { base := 0x1c0024, dims := [], reset := 0x0, rw := 0x7ff },
  { base := 0x1c0028, dims := [], reset := 0x0, cnt := 0xffffffff },
  { base := 0x1c002c, dims := [], reset := 0x0, ro := 0xffffffff },
  { base := 0x1c0030, dims := [], reset := 0x0, rw := 0x800f07ff },
  { base := 0x1c0034, dims := [(0x4, 8)], reset := 0x0, ro := 0xffffffff },
  { base := 0x1c0054, dims := [], reset := 0x0, ro := 0xffffffff },
  { base := 0x1c0058, dims := [], reset := 0x0, ro := 0xffffffff },
  { base := 0x1c005c, dims := [], reset := 0x0, ro := 0xffffffff },
  { base := 0x1c0060, dims := [], reset := 0x4444, ro := 0xffff },
  { base := 0x1c0064, dims := [], reset := 0x0, cnt := 0xffffffff },
  { base := 0x1c0068, dims := [], reset := 0x0, cnt := 0xffffffff },
  { base := 0x1c006c, dims := [], reset := 0x0, cnt := 0xffffffff },
  { base := 0x1c0070, dims := [], reset := 0x0, cnt := 0xffffffff },
  { base := 0x1c0074, dims := [], reset := 0x0, cnt := 0xffffffff },
  { base := 0x1c0078, dims := [], reset := 0x0, ro := 0xc7ffffff },
  { base := 0x1c0100, dims := [(0x40, 8)], reset := 0x0, ro := 0x1ff },
  { base := 0x1c0104, dims := [(0x40, 8)], reset := 0x0, rw := 0x1ff },
  { base := 0x1c0108, dims := [(0x40, 8)], reset := 0x0, cnt := 0xffffffff },
  { base := 0x1c010c, dims := [(0x40, 8)], reset := 0x0, ro := 0xffffffff },
  { base := 0x1c0110, dims := [(0x40, 8)], reset := 0x0, w1c := 0x7fffe },
  { base := 0x1c0114, dims := [(0x40, 8)], reset := 0x0, w1c := 0xf },
  { base := 0x1c0118, dims := [(0x40, 8)], reset := 0x0, rw := 0xf },
  { base := 0x1c011c, dims := [(0x40, 8)], reset := 0x0, ro := 0xff1fffff },
  { base := 0x1c0120, dims := [(0x40, 8)], reset := 0x0, ro := 0xfff },
  { base := 0x1c0124, dims := [(0x40, 8)], reset := 0x0, cmd := 0x1 }]

/-- Registers of the TDM block. -/
def regsTdm : List RegDesc := [
  { base := 0x1f0000, dims := [], reset := 0x3e8, prv := 0xfff },
  { base := 0x1f0004, dims := [], reset := 0x1f4, prv := 0xfff },
  { base := 0x1f0008, dims := [], reset := 0x320, prv := 0xffff },
  { base := 0x1f000c, dims := [], reset := 0x0, cmd := 0x3 },
  { base := 0x1f0010, dims := [], reset := 0x0, ro := 0xf33000ff },
  { base := 0x1f0014, dims := [], reset := 0x0, w1c := 0x7f },
  { base := 0x1f0018, dims := [], reset := 0x0, rw := 0x7f },
  { base := 0x1f001c, dims := [], reset := 0x0, ro := 0xfff },
  { base := 0x1f0020, dims := [], reset := 0x0, prv := 0xff },
  { base := 0x1f0024, dims := [], reset := 0x0, cnt := 0xffffffff },
  { base := 0x1f0028, dims := [], reset := 0x0, cnt := 0xffffffff },
  { base := 0x1f002c, dims := [], reset := 0x0, cnt := 0xffffffff },
  { base := 0x1f0030, dims := [], reset := 0x0, cnt := 0xffffffff },
  { base := 0x1f0100, dims := [(0x20, 8)], reset := 0x0, ro := 0x80003f00 },
  { base := 0x1f0104, dims := [(0x20, 8)], reset := 0x0, w1c := 0xf },
  { base := 0x1f0108, dims := [(0x20, 8)], reset := 0x0, rw := 0xf },
  { base := 0x1f010c, dims := [(0x20, 8)], reset := 0x0, cnt := 0xffffffff },
  { base := 0x1f0110, dims := [(0x20, 8)], reset := 0x0, cnt := 0xffffffff },
  { base := 0x1f0114, dims := [(0x20, 8)], reset := 0x0, cnt := 0xffffffff },
  { base := 0x1f0118, dims := [(0x20, 8)], reset := 0x0, ro := 0xffffffff }]

/-- Registers of the CLK block. -/
def regsClk : List RegDesc := [
  { base := 0x1d0000, dims := [], reset := 0x1, prv := 0x1 },
  { base := 0x1d0004, dims := [], reset := 0x0, ro := 0xd00003ff },
  { base := 0x1d0008, dims := [], reset := 0x0, w1c := 0xf },
  { base := 0x1d000c, dims := [], reset := 0x0, rw := 0xf },
  { base := 0x1d0010, dims := [], reset := 0x0, ro := 0xffff },
  { base := 0x1d0014, dims := [], reset := 0x6000300, prv := 0xfff0fff },
  { base := 0x1d0018, dims := [], reset := 0x0, cnt := 0xffffffff },
  { base := 0x1d0020, dims := [(0x4, 4)], reset := 0x0, ro := 0xffffffff },
  { base := 0x1d0030, dims := [(0x4, 4)], reset := 0xffffffff, ro := 0xffffffff },
  { base := 0x1d0100, dims := [(0x4, 10)], reset := 0x0, ro := 0x80000fff },
  { base := 0x1d1000, dims := [(0x10, 116)], reset := 0x0, prv := 0x103 },
  { base := 0x1d1004, dims := [(0x10, 116)], reset := 0x80000003, ro := 0xf0000033 },
  { base := 0x1d1008, dims := [(0x10, 116)], reset := 0x0, cnt := 0xffffffff },
  { base := 0x1d100c, dims := [(0x10, 116)], reset := 0x0, cnt := 0xffffffff }]

/-- Registers of the PWR block. -/
def regsPwr : List RegDesc := [
  { base := 0x1e0000, dims := [], reset := 0x0, ro := 0xf000ffff },
  { base := 0x1e0004, dims := [], reset := 0x0, w1c := 0x1f },
  { base := 0x1e0008, dims := [], reset := 0x0, rw := 0x1f },
  { base := 0x1e000c, dims := [], reset := 0x0, cmd := 0x1 },
  { base := 0x1e0010, dims := [], reset := 0xa02c1, prv := 0xff03ff },
  { base := 0x1e0014, dims := [], reset := 0x6e005f, prv := 0xff00ff },
  { base := 0x1e0018, dims := [], reset := 0x0, ro := 0xffff },
  { base := 0x1e001c, dims := [], reset := 0x8000, ro := 0xffff },
  { base := 0x1e0100, dims := [(0x10, 16)], reset := 0x0, ro := 0x3ff03ff },
  { base := 0x1e0104, dims := [(0x10, 16)], reset := 0x0, ro := 0xffff },
  { base := 0x1e0108, dims := [(0x10, 16)], reset := 0x0, cnt := 0xffffffff },
  { base := 0x1e010c, dims := [(0x10, 16)], reset := 0x0, cnt := 0xffffffff }]

/-- Registers of the HIF block. -/
def regsHif : List RegDesc := [
  { base := 0x0, dims := [], reset := 0x0, ro := 0xff0fffff },
  { base := 0x4, dims := [], reset := 0x0, ro := 0xffff },
  { base := 0x8, dims := [], reset := 0x0, ro := 0x1313 },
  { base := 0xc, dims := [], reset := 0x0, ro := 0x77300000 },
  { base := 0x10, dims := [(0x4, 5)], reset := 0x0, ro := 0xffffffff },
  { base := 0x24, dims := [(0x4, 5)], reset := 0x0, ro := 0xffffffff },
  { base := 0x38, dims := [(0x4, 4)], reset := 0x0, ro := 0xffffffff },
  { base := 0x48, dims := [], reset := 0x0, prv := 0xff },
  { base := 0x4c, dims := [], reset := 0x0, w1c := 0xf },
  { base := 0x50, dims := [], reset := 0x0, rw := 0x7 },
  { base := 0x54, dims := [], reset := 0x0, ro := 0x83ffffff },
  { base := 0x58, dims := [], reset := 0x0, cnt := 0xffffffff },
  { base := 0x5c, dims := [], reset := 0x0, cmd := 0x80000000, prv := 0x3fffffc },
  { base := 0x60, dims := [], reset := 0x0, cnt := 0xffffffff },
  { base := 0x64, dims := [], reset := 0x0, cnt := 0xffffffff },
  { base := 0x80, dims := [(0x4, 8)], reset := 0x0, ro := 0xffffffff },
  { base := 0x100, dims := [(0x4, 9)], reset := 0x0, ro := 0x7ffff },
  { base := 0x400, dims := [(0x20, 9), (0x4, 5)], reset := 0x3020100, prv := 0xffffffff },
  { base := 0x2000, dims := [(0x4, 2048)], reset := 0x13, prv := 0xff }]

/-- Registers of the DBG block. -/
def regsDbg : List RegDesc := [
  { base := 0x200000, dims := [], reset := 0x0, ro := 0x80000001 },
  { base := 0x200004, dims := [], reset := 0x0, ro := 0xc1ffffff },
  { base := 0x200008, dims := [], reset := 0x0, w1c := 0x3f },
  { base := 0x20000c, dims := [], reset := 0x0, rw := 0x3f },
  { base := 0x200010, dims := [], reset := 0x0, prv := 0x7fffff8 },
  { base := 0x200014, dims := [], reset := 0x0, prv := 0xf07f1f00 },
  { base := 0x200018, dims := [], reset := 0x0, prv := 0xffffffff },
  { base := 0x20001c, dims := [], reset := 0x0, prv := 0xffffffff },
  { base := 0x200020, dims := [], reset := 0x0, cmd := 0x3 },
  { base := 0x200024, dims := [], reset := 0x0, ro := 0x80000006 },
  { base := 0x200030, dims := [], reset := 0x0, ro := 0xff },
  { base := 0x200100, dims := [(0x10, 4)], reset := 0x0, prv := 0xfff0fff },
  { base := 0x200104, dims := [(0x10, 4)], reset := 0x0, prv := 0xffff0fff },
  { base := 0x200108, dims := [(0x10, 4)], reset := 0x0, prv := 0xffff },
  { base := 0x20010c, dims := [(0x10, 4)], reset := 0x0, ro := 0x8000ffff },
  { base := 0x200200, dims := [(0x4, 8)], reset := 0x0, prv := 0xef70ffff }]

/-- Every register of the device. -/
def regTable : List RegDesc :=
  regsCad ++ regsInl ++ regsEng ++ regsTil ++ regsSvc ++ regsQue ++ regsXfr ++ regsAdp ++ regsOut ++ regsAct ++ regsIns ++ regsSto ++ regsFlt ++ regsTdm ++ regsClk ++ regsPwr ++ regsHif ++ regsDbg

/-- Does offset `o` lie on the grid that `dims` spans? -/
def onGrid : List (Nat × Nat) → Nat → Bool
  | [], o => o == 0
  | [(st, n)], o => o % st == 0 && decide (o / st < n)
  | (st, n) :: ds, o => decide (o / st < n) && onGrid ds (o % st)

/-- The register at byte offset `a` of PF BAR0, if one lies there (R403). -/
def regAt (a : Nat) : Option RegDesc :=
  regTable.find? (fun d => decide (d.base ≤ a) && onGrid d.dims (a - d.base))

/-- Reset values that the tables give by a formula of the index, or as fused (15, 07, 08, 16, 17). -/
def resetFormula (a : Nat) : Option Word :=
  if Reg.ENG_E_PHYS 0 ≤ a ∧ a < Reg.ENG_E_PHYS 64 ∧ (a - Reg.ENG_E_PHYS 0) % 0x40 = 0 then
    some (BitVec.ofNat 32 ((a - Reg.ENG_E_PHYS 0) / 0x40))
  else if Reg.TIL_C_PHYS 0 ≤ a ∧ a < Reg.TIL_C_PHYS 64 ∧ (a - Reg.TIL_C_PHYS 0) % 0x40 = 0 then
    some (BitVec.ofNat 32 ((a - Reg.TIL_C_PHYS 0) / 0x40))
  else if Reg.XFR_E_STAT 0 ≤ a ∧ a < Reg.XFR_E_STAT 16 ∧ (a - Reg.XFR_E_STAT 0) % 0x10 = 0 then
    some (BitVec.ofNat 32 (0x40000000 * ((a - Reg.XFR_E_STAT 0) / 0x40)))
  else if Reg.HIF_F_EVEC 0 0 ≤ a ∧ a < Reg.HIF_F_EVEC 9 0 ∧ (a - Reg.HIF_F_EVEC 0 0) % 4 = 0 then
    some (BitVec.ofNat 32 (0x03020100 + 0x04040404 * ((a - Reg.HIF_F_EVEC 0 0) % 0x20 / 4)))
  else if a = Reg.HIF_ID then some (BitVec.ofNat 32 (0xA1000000 + 0x10000 * (Config.grade % 2) + 0x8A))
  else if a = Reg.HIF_VENDOR then some (BitVec.ofNat 32 (Config.vendor % 0x10000))
  else if Reg.HIF_KEYHASH 0 ≤ a ∧ a < Reg.HIF_KEYHASH 8 ∧ a % 4 = 0 then
    some (Config.keyHash ((a - Reg.HIF_KEYHASH 0) / 4))
  else none

/-- What a register that nothing has written reads as: the Reset column (R415). -/
def resetValue (a : Nat) : Word :=
  match resetFormula a with
  | some v => v
  | none =>
    match regAt a with
    | some d => BitVec.ofNat 32 d.reset
    | none => 0

end Sys2Proof.Machine
end

