-- ==== Sys2Proof/Machine/State.lean ====
section
/-! DEFINITION. The state of the block as plain data: every register, memory, queue, engine, tile, core, instance and
port the manual gives the device, and the queue of commands that wait. Host-visible registers live in `regs` under
their PF BAR0 offset unless they are views of another field (Views.lean). -/

namespace Sys2Proof.Machine

/-- The model stops only here. -/
inductive Fault where
  /-- A host error of R364 whose result the manual calls unpredictable and for which it names no effect: a release
  while loading (R297), an alias write to an empty offset (R406), a flush of a queue in use (R227). Raised by
  `execInsRelease`, the alias writes and `execFlush`. Safe: the hardware goes on, the model stops. -/
  | unpredictable (rule : Nat)
deriving DecidableEq, Repr

/-- Why a command has no meaning. -/
inductive Refusal where
  /-- The command has no meaning in this model yet; raised by `exec` alone. Safe. -/
  | notModelled (mnemonic : String)
deriving DecidableEq, Repr

/-- The states of an instance (R7, R298; encoding of INS_I_STAT.state). -/
inductive InstState where
  | unloaded | loading | held | running | freewheel | kickstand | resetting
deriving DecidableEq, Repr

/-- The states of a stage (R7). -/
inductive StageState where
  | held | running | draining | reloading | fencedRepairing
deriving DecidableEq, Repr

/-! ### Queues and tokens -/

/-- One stored entry of a queue: a token (words 0 and 1, R157, R158, R160), a transfer entry or a 64-byte entry
(bytes). -/
structure Entry where
  w0 : DWord := 0
  w1 : DWord := 0
  bytes : List Byte := []
  /-- The entry fails parity when it is read (R226). -/
  bad : Bool := false
  /-- Bits 31:0 of word 0 are among the failing words (R226). -/
  badLine : Bool := false
  /-- A VOID that Lenuk has put in place of a token dropped for its epoch: it is not counted again (R169). -/
  filler : Bool := false
  /-- A record entry that took bytes of a poisoned word (R240). -/
  carried : Bool := false
  /-- Accepted ticks of the queue's owner when it entered (R272). -/
  at_ : Nat := 0
  /-- Its place in the order of all entries that have entered queues. -/
  ord : Nat := 0
  /-- Transfer entries: the issuing core, its k value (R235) and its line (R229). -/
  core : Nat := 0
  k : BitVec 16 := 0
  line : Word := 0
deriving DecidableEq, Repr

/-- One of the 16,384 hardware queues (R219 to R228 and the QUE_Q registers). -/
structure Queue where
  cfg : Word := 0
  base : DWord := 0
  wr : Nat := 0
  rd : Nat := 0
  /-- The entries held, oldest first (R222). -/
  entries : List Entry := []
  epoch : BitVec 2 := 0
  /-- Discard-mode reconfiguration in hand: tokens of the old epoch ahead of the marker are dropped (R168, R169). -/
  discard : Bool := false
  /-- An epoch marker has been taken since the last change of epoch, so an old token is behind it (R169). -/
  markerPast : Bool := true
  /-- Line of the last token delivered (R225). -/
  lastLine : Word := 0
  evt : BitVec 6 := 0
  evtEn : BitVec 6 := 0
  thresh : BitVec 16 := 0
  drop : Word := 0
  under : Word := 0
  perr : Word := 0
  assign : Word := 0
  cap : Word := 0
  maxb : Word := 0
  /-- Local id in the owner's image (R220), none when unbound. -/
  localId : Option Nat := none
  /-- Bytes of a record ring's next entry, fewer than 64, and whether one came from a poisoned word (R230, R240). -/
  part : List Byte := []
  partBad : Bool := false
deriving DecidableEq, Repr

/-- A transfer task, light request, LOADW or EFILL in progress (R232 to R244). -/
structure Task where
  id : Nat
  /-- Device queue it was taken from. -/
  q : Nat
  inst : Nat
  core : Nat
  /-- Transfer engine that holds its context (R243). -/
  eng : Nat
  prog : List Byte
  k : BitVec 16
  line : Word
  /-- Runs copied so far, in iteration order (R236). -/
  pos : Nat
  /-- A DEP mark holds the source side back before the run `pos`. -/
  marked : Bool
  /-- All runs are copied; the last write waits for its acknowledgement (R238). -/
  done : Bool
  /-- Beats of the source side that the runs so far have touched (R237, XFR_I_ERR_AT). -/
  beats : Nat := 0
deriving DecidableEq, Repr

/-! ### Matrix engines -/

/-- A queued command descriptor (R130, R209). -/
structure Descr where
  words : List DWord
  /-- Number since the stage's release (ENG_E_ERR.seq). -/
  seq : Nat
  core : Nat
  line : Word
  /-- A CHAIN whose bodies have gone to its members (R148). -/
  sent : Bool := false
  /-- A body forwarded to this engine: the chain's first engine, and the CHAIN's number there (R148). -/
  chain : Option (Nat × Nat) := none
deriving DecidableEq, Repr

/-- A command whose steps are done and whose epilogue or completion is still to come (R130, R131). -/
structure Epi where
  d : Descr
  eBase : Int
  tainted : Bool
  /-- Flags collected from the operand tokens (R161). -/
  flags : Byte
deriving DecidableEq, Repr

/-- One of the 32 row tags of an engine (R128). -/
structure RowTag where
  base : Nat := 0
  firstPx : Nat := 0
  px : Nat := 0
  chans : Nat := 0
  pitch : Nat := 0
  fmt : BitVec 5 := 0
  r : Byte := 0
  valid : Bool := false
  flags : Byte := 0
deriving DecidableEq, Repr

/-- A requested staging fill (R129, R216): the four words of the request, and the number of commands that had
entered the engine queue before it. -/
structure Fill where
  words : List DWord
  after : Nat
  core : Nat
deriving DecidableEq, Repr

/-- One logical engine (R125 to R152). Its memories are in `State.mem` under the physical engine that serves it. -/
structure Engine where
  queue : List Descr := []
  /-- Commands in their epilogue, oldest first. -/
  epis : List Epi := []
  tags : SMap RowTag := []
  fills : List Fill := []
  /-- e_base of the command that started each accumulator slot (R144), by slot. -/
  slotBase : SMap (Option Int) := []
  /-- Weight slots, beyond those of the image's entries of kind 1, at which a scale region starts: commands or patches have
  named them (R133, R134). -/
  scaleSlots : List Nat := []
  /-- Commands that have entered the queue since the stage's release. -/
  entered : Nat := 0
  stopped : Bool := false
  /-- Swap to a spare in hand: 0 none, 1 waiting for commands, 2 copying (R305). -/
  swap : Nat := 0
  waitTick : Option Nat := none
deriving DecidableEq, Repr

/-! ### Tiles and service cores -/

/-- A tile counter (R153, R165). -/
structure Counter where
  value : BitVec 16 := 0
  reload : BitVec 16 := 0
  bound : Option Nat := none
deriving DecidableEq, Repr

/-- One tile: logical column and row (R153, R186). -/
structure Tile where
  l : SMap (BitVec 128) := []
  la : BitVec 256 := 0
  lf : Byte := 0
  ctr : SMap Counter := []
  tgt : SMap DWord := []
  sel : BitVec 3 := 0
  pc : BitVec 11 := 0
  running : Bool := false
  stopped : Bool := false
  waitTick : Option Nat := none
  /-- 0 not waiting, 1 at a token queue, 2 at TICKWAIT. -/
  waitKind : Nat := 0
  /-- Line starts of its stage that its TICKWAITs have taken. -/
  starts : Nat := 0
deriving DecidableEq, Repr

/-- Run state of a service core (SVC_K_STAT.state). -/
inductive CoreState where
  | idle | running | waiting | tickwait | held | stopped | fenced
deriving DecidableEq, Repr

/-- One service core (R186, R199). Its SRAM is in `State.mem`. -/
structure Core where
  s : SMap Word := []
  v : SMap (BitVec 512) := []
  p : SMap (BitVec 16) := []
  pc : BitVec 17 := 0
  lfsr : Word := 1
  zp : Byte := 0
  /-- Line returned by the last TICKWAIT. -/
  line : Word := 0
  tickHi : Word := 0
  cycHi : Word := 0
  st : CoreState := .idle
  waitTick : Option Nat := none
  starts : Nat := 0
  /-- Bytes of local SRAM, by address, as they were before stores that no FENCE with bit 0 has followed: fetch and transfers still
  see them (R187, R198, R251). -/
  unseen : SMap Byte := []
deriving DecidableEq, Repr

/-! ### The load image, parsed (R68 to R84) -/

structure WindowReq where
  id : Nat
  die : Nat
  access : Nat
  size : Nat
deriving DecidableEq, Repr

structure QueueReq where
  localId : Nat
  pool : Nat
  depth : Nat
  cap : Nat
  maxBytes : Nat
deriving DecidableEq, Repr

structure EdgeDesc where
  producer : Nat
  h : Nat
  camera : Bool
  back : Nat
  ahead : Nat
  rows : Nat
  queue : Nat
  chunkPx : Nat
  window : Nat
  base : Nat
deriving DecidableEq, Repr

structure StageDesc where
  id : Nat
  adaptable : Bool
  paged : Bool
  chained : Bool
  output : Bool
  crop : Bool
  depth : Nat
  rate : Nat
  phase : Nat
  offset : Nat
  epochMode : Nat
  padRule : Nat
  padConst : Nat
  workCycles : Nat
  engines : Nat
  columns : Nat
  cores : Nat
  edges : List EdgeDesc
deriving DecidableEq, Repr

structure ProgramDesc where
  profile : Nat
  stage : Nat
  entry : Nat
  bytes : List Byte
  first : Nat
  count : Nat
  rowMask : Nat
  /-- Place of its bytes in its section. -/
  pos : Nat := 0
deriving DecidableEq, Repr

structure WeightDesc where
  kind : Nat
  unit : Nat
  index : Nat
  dest : Nat
  bytes : List Byte
  /-- Place of its bytes in its section. -/
  pos : Nat := 0
deriving DecidableEq, Repr

structure AddrProg where
  id : Nat
  core : Nat
  bytes : List Byte
  /-- Place of its bytes in its section. -/
  pos : Nat := 0
deriving DecidableEq, Repr

structure RepairDesc where
  kind : Nat
  unit : Nat
  index : Nat
  dest : Nat
  length : Nat
  source : Nat
  ref : Nat
deriving DecidableEq, Repr

structure PlanEntry where
  stage : Nat
  shadowWindow : Nat
  stateWindow : Nat
  firstCore : Nat
  coreCount : Nat
  lr : Nat
  beta1 : Nat
  beta2 : Nat
  scaleLr : Nat
  group : Nat
deriving DecidableEq, Repr

structure PlanDesc where
  auto : Bool
  sampleN : Nat
  margin : Nat
  entries : List PlanEntry
deriving DecidableEq, Repr

/-- A load image after its checks. -/
structure Image where
  imageId : Nat
  tileDiv : Nat
  engines : Nat
  columns : Nat
  cores : Nat
  tags : Nat
  recordMib : Nat
  windows : List WindowReq
  queues : List QueueReq
  allowances : List (Nat × Nat)
  stages : List StageDesc
  programs : List ProgramDesc
  weights : List WeightDesc
  addrProgs : List AddrProg
  keepEngines : Nat
  keepTiles : Nat
  keepCores : Nat
  pmin : Nat
  brake : Nat
  floor : Nat
  m : Nat
  repairs : List RepairDesc
  plan : Option PlanDesc
deriving DecidableEq, Repr

/-- A stage patch after its checks (R301). -/
structure Patch where
  imageId : Nat
  stage : Nat
  workCycles : Nat
  programs : Option (List ProgramDesc)
  weights : List WeightDesc
  addrProgs : List AddrProg
  /-- Places of its programs, weights and address programs sections in the patch. -/
  progAt : Nat := 0
  weightAt : Nat := 0
  addrAt : Nat := 0
deriving DecidableEq, Repr

/-! ### Instances -/

/-- What a closed line became (R20, R23, R57): one per accepted tick. -/
structure LineSlot where
  /-- Accepted-tick number at which the inlet closed it. -/
  tick : Nat
  line : Word
  admitted : Bool
  dropped : Bool
  flags : Byte
  sheet : BitVec 24
  /-- Ordinal of that sheet in the instance (Sheet.ord). -/
  ord : Nat := 0
  /-- ADP_I_EDITION at this accepted tick (R271). -/
  adp : Word := 0
  /-- Its result has been committed. -/
  done : Bool := false
  /-- OUT has taken a VOID for it: it has no result (R170). -/
  voided : Bool := false
  /-- Its result is to be discarded: it was in the pipeline at a freewheel entry (R24). -/
  lost : Bool := false
deriving DecidableEq, Repr

/-- A segment held in an assembly slot (R38, R39). -/
structure Seg where
  line : Word
  entry : Nat
  segIndex : Nat
  pixelOffset : Nat
  pixelCount : Nat
  sheet : BitVec 24
  sos : Bool
  stream : Nat
  payload : List DWord
deriving DecidableEq, Repr

/-- The row of a stream-map entry in the line last closed, after padding (R23, R250): one code per pixel and channel. -/
structure InletRow where
  entry : Nat
  line : Word
  samples : List Nat
deriving DecidableEq, Repr

/-- A reconfiguration armed for a stage (R302, R303): the patch, or none for a promotion or rollback (R304). -/
structure Armed where
  patch : Option Patch
  /-- A patch: linear address of its copy in the instance's window, and the local transfer queue that its reads count against
  (INS_I_RELOAD, R302, R303). -/
  src : Nat := 0
  queue : Nat := 0
deriving DecidableEq, Repr

/-- An epoch marker still to be injected into device queue `queue`: it goes in once the producer (stage id, 0 the inlet)
has no line left whose accepted tick is below `before` (R167). -/
structure MarkDue where
  queue : Nat
  producer : Nat
  before : Nat
deriving DecidableEq, Repr

/-- A stage while its instance is loaded (R19, R56, R166 to R172). -/
structure Stage where
  id : Nat
  st : StageState := .held
  epoch : BitVec 2 := 0
  /-- Lines scheduled at or before now, not dropped and not started (the slip, R19), oldest first. -/
  waiting : List LineSlot := []
  working : Option LineSlot := none
  /-- Instant at which it finished its last line, until the next accepted tick measures the slack (R17). -/
  finish : Option Nat := none
  marks : List MarkDue := []
  /-- Line starts so far; TICKWAIT returns one of them each (R197). -/
  starts : Nat := 0
  lastLine : Word := 0
  /-- Tainted by poisoned weights or constants (R343). -/
  taint : Bool := false
  /-- A tile or core of the stage has loaded a poisoned word in the line in hand (R339). -/
  lineTaint : Bool := false
  /-- A repair write has been made; taint clears at the next line start (R345). -/
  repaired : Bool := false
  armed : Option Armed := none
  /-- The change in force while draining or reloading. -/
  change : Option Armed := none
  relStep : Nat := 0
  /-- Stopped by a poisoned fetch; waits for a reload (R347, R433), with the accepted tick of the stop. -/
  stopTick : Option Nat := none
  /-- OR of the flags of the tokens discarded while stopped (R433). -/
  discFlags : Byte := 0
  /-- W_s now in force. -/
  workCycles : Nat := 0
  /-- Repair of a unit: 0 none, 1 pending, 2 copying, 3 copied (R180, R305). -/
  unitRepair : Nat := 0
deriving DecidableEq, Repr

/-- A seal taken for a sheet (R281, R282): its correction map's bytes, if any, and whether the deadline was missed. -/
structure Seal where
  map : Option (List Byte)
  missed : Bool
deriving DecidableEq, Repr

/-- A sheet of an instance (R277, R281 to R283). -/
structure Sheet where
  num : BitVec 24
  /-- Count of the instance's sheets before it since the release. -/
  ord : Nat := 0
  /-- Its edition is sealed; kept for lines of it that are still in the pipeline (R277). -/
  sealed_ : Bool := false
  /-- Line closed by the tick that carried its mark (R275), and that accepted tick. -/
  firstLine : Word := 0
  opened : Nat := 0
  firstAdmitted : Option Word := none
  /-- Accepted-tick number of its end, none while open. -/
  ended : Option Nat := none
  byR26 : Bool := false
  storm : Bool := false
  /-- Record decisions in the sheet (R277). -/
  records : Nat := 0
  stormCounts : SMap Nat := []
  results : Nat := 0
  /-- short, gap, warm-up, tainted, late, storm, mismatch (R283). -/
  flagCounts : List Nat := [0, 0, 0, 0, 0, 0, 0]
  boxes : Nat := 0
  boxDrop : Nat := 0
  counted : Nat := 0
  alarms : List Nat := [0, 0, 0, 0, 0, 0, 0]
  /-- Its edition transaction, once a record has been accepted (R321). -/
  txn : Option Nat := none
  /-- The store has refused that transaction, and counted it (R328). -/
  refused : Bool := false
  /-- Records of earlier sheets in that transaction. -/
  carried : Nat := 0
  sealReq : Option Seal := none
deriving DecidableEq, Repr

/-- A sealed edition: its number, sheet, status byte, bytes (summary, storm counts, map) and transaction. -/
structure Edition where
  num : Nat
  sheet : BitVec 24
  status : Byte
  bytes : List Byte
  txn : Option Nat
  /-- Accepted ticks of the instance at its publication (R287). -/
  stamp : Nat := 0
deriving DecidableEq, Repr

/-- Per-line output work of ACT (R272 to R279): boxes decided for a line that has no result yet. -/
structure LineBoxes where
  line : Word
  boxes : Nat
  boxDrop : Nat
  alarms : Byte
deriving DecidableEq, Repr

/-- Adaptation (R253 to R269). Slots are 0 to 2; 3 stands for none. -/
structure Adp where
  /-- 0 idle, 1 evaluating, 2 awaiting, 3 evaluated. -/
  state : Nat := 0
  live : Nat := 3
  cand : Nat := 3
  rollback : Nat := 3
  awaiting : Nat := 0
  evalSheet : BitVec 24 := 0
  /-- ADP_I_CMD at the last accepted tick: the commands written before it (R264). -/
  cmdAt : Word := 0
  /-- A plan core has stopped (R201). -/
  stopped : Bool := false
  /-- Checkpoint: 0 none, 1 in progress; and whether another is ordered. -/
  ckptBusy : Bool := false
  ckptOrdered : Bool := false
  ckptTxn : Option Nat := none
  ckptAfterReload : Bool := false
deriving DecidableEq, Repr

/-- A repair of poisoned weights or constants (R345). -/
structure Repair where
  desc : Nat
  piece : Nat
  stage : Nat
  /-- 0 queued, 1 bytes on their way, 2 asked of the host, 3 fetched, 4 asked of the partner. -/
  phase : Nat
  bytes : List Byte
  since : Nat
deriving DecidableEq, Repr

/-- One instance (R7, R289 to R306). -/
structure Inst where
  st : InstState := .unloaded
  loadCode : Byte := 0
  resetDone : Bool := false
  /-- Image being loaded: its bytes, or none when the source is unreadable. -/
  load : Option (Option (List Byte)) := none
  image : Option Image := none
  /-- Step of the release (R297). -/
  relStep : Nat := 0
  /-- Instant of the last accepted tick (R18). -/
  lastAccepted : Option Nat := none
  ticks : Nat := 0
  curLine : Option Word := none
  lastAdmitted : Option Word := none
  window : Option Word := none
  segs : List Seg := []
  hostMark : Bool := false
  pendMark : Bool := false
  /-- The last accepted tick carried a mark for this instance (R14). -/
  marked : Bool := false
  /-- What tick-only frames of the tick stream have said of lines not yet closed: line, SOS, sheet (R38). -/
  marks : List (Word × Bool × BitVec 24) := []
  gapNext : Bool := false
  resGap : Bool := false
  warmupLeft : Nat := 0
  /-- Accepted tick at which it last left freewheel (R361). -/
  fwExit : Nat := 0
  hist : List LineSlot := []
  inletRows : List InletRow := []
  stages : List Stage := []
  /-- Sheets of the instance, oldest first; the last is the open one. -/
  sheets : List Sheet := []
  /-- Sheets opened since the release. -/
  nextSheet : Nat := 0
  /-- Lines admitted since it last left freewheel that carry warm-up in their tokens. -/
  warmLines : Nat := 0
  editions : List Edition := []
  /-- Editions that this device has published as a follower since the lead's last MARK (R375). -/
  unmarked : List Edition := []
  /-- Latest published edition (R288). -/
  lastEdition : Option Edition := none
  boxes : List LineBoxes := []
  adp : Adp := {}
  reload : Option (Option (List Byte)) := none
  /-- Window, byte offset and transfer queue that the reload in hand names (R302). -/
  reloadAt : Nat × Nat × Nat := (0, 0, 0)
  repairs : List Repair := []
  /-- The last line whose result the taint of FLT_I_TAINT reaches (R344). -/
  taintFrom : Word := 0
  /-- Cadence.braked at the last accepted tick. -/
  brakeAt : SMap Nat := []
  /-- Line of the last result mirrored, which MARK carries (R374, R375). -/
  lastMirrored : Word := 0
deriving DecidableEq, Repr

/-! ### Cadence -/

/-- A tick instant to come (R8). `src` 0 CADENCE_IN, 1 internal, 2 framing, 3 tandem. `edge`: the active edge of
CADENCE_IN that it belongs to (R13). -/
structure DueTick where
  at_ : Nat
  src : Nat
  mark : Bool
  edge : Option Nat := none
deriving DecidableEq, Repr

/-- A frame that has checked at or after the instant of a tick not yet delivered: it arrives after that tick (R40). Its
three header words, payload and trailer, and the instant of its check. -/
structure HeldFrame where
  words : List DWord
  at_ : Nat
deriving DecidableEq, Repr

structure Cadence where
  /-- The CADENCE_IN pulse in progress: its active edge (R431). -/
  pulse : Option Nat := none
  /-- The newest active edge. -/
  lastEdge : Option Nat := none
  /-- The pulse of the newest active edge has been judged to mark. -/
  wide : Bool := false
  /-- The active edge whose tick was delivered last, and whether that tick carried a mark. -/
  tickEdge : Option Nat := none
  tickMarked : Bool := false
  due : List DueTick := []
  genStart : Nat := 0
  genPeriod : Nat := 2000
  tickSrc : BitVec 2 := 0
  sheetSrc : BitVec 2 := 0
  /-- A switch of sources waiting for the next tick of the old source (R11). -/
  switching : Bool := false
  lastTick : Option Nat := none
  /-- The instant the next interval is measured from: the last delivered tick, or a switch of sources (R11). -/
  from_ : Option Nat := none
  pulseMark : Bool := false
  /-- A host mark waits for the next delivered tick, to number it (R14, R16). -/
  hostMark : Bool := false
  /-- Frames that arrive after the tick that is due (R40), oldest first. -/
  frames : List HeldFrame := []
  silentFrom : Nat := 0
  silentLogged : Bool := false
  stampRef : Option Word := none
  /-- CADENCE_OUT edges to come: the instant, and whether the tick carried a mark. -/
  outAt : List (Nat × Bool) := []
  outLevel : Bool := false
  outEnd : Nat := 0
  /-- Braked time of each domain since cold start, ns, and its value at the last delivered tick (R17, R388). -/
  braked : SMap Nat := []
  brakedAt : SMap Nat := []
deriving DecidableEq, Repr

/-! ### The record store -/

/-- A transaction (R318 to R322). -/
structure Txn where
  num : Nat
  kind : Nat
  part : Nat
  /-- 0 to 7, 0xFF none. -/
  inst : Nat
  /-- Payload ahead of the records: the whole payload for the kinds without records. -/
  payload : List Byte
  records : List (List Byte) := []
  sheet : Nat := 0
  /-- Edition or boot index. -/
  index : Nat := 0
  /-- COMMIT status: 0 sealed, 1 orphan. -/
  status : Nat := 0
  /-- 0 open, 1 stands whole, 2 committed on the medium, 3 rolled back, 4 released. -/
  phase : Nat := 0
  /-- Page addresses of the payload ahead of the records, and of the records, in order. -/
  pages : List Nat := []
  recPages : List Nat := []
  /-- Those of them that hold an uncorrectable sector's bytes as decoded (R326). -/
  badPages : List Nat := []
  /-- Its BEGIN entry is journalled. -/
  begun : Bool := false
  /-- Record bytes already placed in pages. -/
  placed : Nat := 0
  /-- Payload bytes on the medium. -/
  onMedium : Nat := 0
  /-- Its COMMIT entry is journalled. -/
  journalled : Bool := false
  uncorrectable : Bool := false
deriving DecidableEq, Repr

/-- A journal entry: type, partition, instance, count of page addresses, transaction and body (R318, R319). -/
structure JEntry where
  type : Nat
  part : Nat
  inst : Nat
  count : Nat
  txn : Nat
  body : List Byte
deriving DecidableEq, Repr

/-- A block of the medium (R325 to R328). `st` 0 free, 1 in use, 2 bad, 3 spare. -/
structure BlockInfo where
  erases : Nat := 0
  reads : Nat := 0
  st : Nat := 0
deriving DecidableEq, Repr

/-- A page of the medium (R314): kind 1 superblock, 2 journal, 3 transaction data. -/
structure Page where
  kind : Nat
  part : Nat
  seq : Nat
  txn : Nat
  index : Nat
  payload : List Byte
  /-- The block's erase count when it was erased. -/
  erases : Nat := 0
deriving DecidableEq, Repr

/-- A page program in hand: its address, its page, the old address of a relocated page, the transactions whose COMMIT a
journal page carries, and, for a data page, the journal pages that come first: those of a lower seq (R320). -/
structure PageJob where
  addr : Nat
  page : Page
  old : Option Nat := none
  commits : List Nat := []
  after : Nat := 0
deriving DecidableEq, Repr

/-- A map object's contents (R322): the transactions begun and not ended, with their page addresses and without their
payloads, the blocks, the seq of the last journal page it covers, the first page of the journal block in use, and the next
transaction number. -/
structure MapObj where
  txns : List Txn
  blocks : SMap BlockInfo
  seq : Nat
  jaddr : Nat
  next : Nat
deriving DecidableEq, Repr

/-- A store command or internal read in hand: `op` is that of R335, or 0x10 a load, 0x11 a restore, 0x12 a scan, 0x13 a
relocation; `fn` the function, or the instance of a load or restore. `pages` are still to be read, each with its payload
bytes. `dest`: where a relocated journal page goes. -/
structure StoJob where
  op : Nat
  fn : Nat
  tag : Word
  part : Nat
  txn : Nat
  addr : Nat
  offset : Nat
  length : Nat
  got : List Byte
  pages : List (Nat × Nat)
  bad : Bool
  dest : Option Nat := none
deriving DecidableEq, Repr

structure Store where
  /-- STO_STAT.state: 0 absent, 1 mounting, 2 ready, 3 read-only, 4 closed, 5 unformatted. -/
  st : Nat := 0
  txns : List Txn := []
  /-- Journal entries not yet placed in a page, oldest first. -/
  jbuf : List JEntry := []
  /-- Journal pages since the newest map object. -/
  jpages : Nat := 0
  /-- Next page of the journal block in use, and of its copy (R318). -/
  jopen : Option (Nat × Nat) := none
  /-- Journal blocks in the order of JNEXT: the block that JNEXT names, and the blocks that hold the two copies now. -/
  jchain : List (Nat × Nat × Nat) := []
  /-- Map objects on the medium, by transaction (R322). -/
  maps : SMap MapObj := []
  /-- map_seq of the newest programmed superblock. -/
  mapSeq : Nat := 0
  /-- Blocks by page address / 4,096; an unlisted block is free and never erased. -/
  blocks : SMap BlockInfo := []
  /-- Programmed pages, by page address. -/
  pages : SMap Page := []
  /-- Next page of the block that each target is filling, by target. -/
  opens : SMap Nat := []
  lastChannel : Nat := 8
  /-- Targets in the order of their last allocation, the latest last (R315). -/
  turn : List Nat := []
  todo : List PageJob := []
  /-- Pages that wait for a free place; their addresses are not yet set. -/
  unplaced : List PageJob := []
  /-- Blocks to erase. -/
  erasing : List Nat := []
  /-- Blocks whose live pages are scanned because their reads have reached STO_RD_LIMIT (R327). -/
  halving : List Nat := []
  /-- Initialisation is in hand; the targets that have not acknowledged (R309). -/
  initing : Bool := false
  silent : List Nat := []
  /-- Pages that the mount in hand could not read (R322). -/
  unread : List Nat := []
  /-- Rate of each target's data interface in MT/s; unlisted: SDR timing mode 0 (R307, R309). -/
  rates : SMap Nat := []
  nextTxn : Nat := 0
  seq : Nat := 0
  /-- Generation of the newest superblock; 0 before a format. -/
  generation : Nat := 0
  formatId : DWord := 0
  jobs : List StoJob := []
  /-- Fence list of the newest committed object (R353): kind, unit, cause, transients, uptime in s, remap. -/
  fences : List (Nat × Nat × Nat × Nat × Nat × Nat) := []
  fenceGen : Nat := 0
  /-- A close is in hand: the cause of its CLOSE entry (R330, R334). -/
  closing : Option Nat := none
  /-- Hold-up commit (R330, R331): 0 none, 1 running, 2 complete, 3 not started, 4 cut at the floor. -/
  hold : Nat := 0
  holdFrom : Nat := 0
  mainRise : Option Nat := none
deriving DecidableEq, Repr

/-! ### Faults, logs and tests -/

/-- A log entry (R356). -/
structure LogEntry where
  tick : Nat
  imageId : Nat
  source : Nat
  code : Nat
  severity : Nat
  inst : Nat
  stage : Nat
  flags : Nat
  count : Nat
  unit : Nat
  detail : Word
deriving DecidableEq, Repr

/-- A log ring (R358 to R360); ring 0 is the device's, ring 1 + i instance i's. -/
structure Ring where
  entries : SMap LogEntry := []
  head : Nat := 0
  tail : Nat := 0
  sticky : Option LogEntry := none
  /-- No entry has been written since the last clear. -/
  clear : Bool := true
deriving DecidableEq, Repr

/-- A test queued or running (R348 to R352): kind as the fence list, physical unit, cause 0 poison, 1 manager,
2 tandem, 3 retest. -/
structure TestJob where
  kind : Nat
  unit : Nat
  cause : Nat
  /-- Logical unit at the request, for engines and columns. -/
  logical : Nat
  /-- An uncorrectable word was found in the bank during the test (R351). -/
  spoiled : Bool
deriving DecidableEq, Repr

/-- A takeover of a logical column: the physical column that will serve it, whether this is the copy run in reverse
(R350), and whether the copy has begun. -/
structure Takeover where
  col : Nat
  toCol : Nat
  back : Bool
  on : Bool
deriving DecidableEq, Repr

structure Faults where
  rings : SMap Ring := []
  testQ : List TestJob := []
  testing : List TestJob := []
  /-- Transients of a physical unit: kind, unit and instants, newest first (R349). -/
  history : List (Nat × Nat × Nat) := []
  /-- Fenced units of this power cycle: kind, unit, cause, transients, uptime in s, remap (R353). -/
  fenced : List (Nat × Nat × Nat × Nat × Nat × Nat) := []
  /-- Physical engine serving each logical engine, listed where it is not the same number (R46). -/
  engMap : SMap Nat := []
  colMap : SMap Nat := []
  /-- Free spare engines and columns, ascending; none until the fuse map is applied (R354). -/
  engFree : List Nat := []
  colFree : List Nat := []
  /-- Columns served through a proxy (R180). -/
  proxy : List Nat := []
  /-- Column takeover in hand (R180, R350). -/
  takeover : Option Takeover := none
  /-- Engine repair in hand: logical engine, spare. -/
  engRepair : Option (Nat × Nat) := none
  /-- Repairs that wait for the one in hand: kind 0 engine, 1 column, 2 a column's return (unit is logical column + 64 *
  physical column); logical unit; for a stage fault (R306, R47, R350). -/
  repairWait : List (Nat × Nat × Bool) := []
  /-- Bulk bank remap: (die * 512 + bank, spare bank); copies in hand. -/
  remap : SMap Nat := []
  remapping : List (Nat × Nat × Nat) := []
  /-- Bank copies that have completed: the remaps to switch at the next tick. -/
  remapReady : SMap Nat := []
  /-- Device kickstand (R355). -/
  down : Bool := false
  /-- Next byte that each scrubber reads, by the linear address of its memory's first byte. -/
  scrubAt : SMap Nat := []
deriving DecidableEq, Repr

/-! ### Tandem, clocks, power, host interface, pins -/

/-- A frame sent on the tandem link and not yet acknowledged, or one received ahead of a gap. -/
structure LinkFrame where
  seq : Word
  /-- Its acknowledgement field (R367). -/
  ack : Word := 0
  msgs : List (List Byte)
deriving DecidableEq, Repr

/-- A signature (R371). -/
structure Sign where
  inst : Nat
  void : Bool
  line : Word
  sig : Word
  flags : Byte
deriving DecidableEq, Repr

/-- Bytes that came in as DATA (R368): kind, instance or queue, offset, bytes. -/
structure DataIn where
  kind : Nat
  id : Nat
  off : Nat
  bytes : List Byte
deriving DecidableEq, Repr

/-- A tandem test of an instance on this device (R372): the engine and column tested (0xFF none), which of the two tests
still run, and whether one failed. -/
structure Verdict where
  engine : Nat
  column : Nat
  engLeft : Bool
  colLeft : Bool
  failed : Bool
deriving DecidableEq, Repr

/-- A host write that a paired lead has taken while a tick was still to be delivered (R370): the instant of that tick,
function, BAR, offset, byte enables and data. -/
structure HeldWrite where
  after : Nat
  fn : Nat
  bar : Nat
  off : Nat
  be : BitVec 4
  v : Word
deriving DecidableEq, Repr

structure Tandem where
  /-- 0 standalone, 1 pairing, 2 paired, 3 solo, 4 out. -/
  st : Nat := 0
  prev : Nat := 0
  role : Nat := 0
  strap : Nat := 0
  pairAt : Nat := 0
  txSeq : Word := 0
  rxSeq : Word := 0
  unacked : List LinkFrame := []
  ahead : List LinkFrame := []
  inbox : List (List Byte) := []
  sent : List LinkFrame := []
  lastRx : Nat := 0
  lastTx : Nat := 0
  lastAck : Nat := 0
  /-- Signatures of the partner, and results of this device that wait for one (with the instant). -/
  partner : List Sign := []
  waiting : List (Sign × Nat) := []
  /-- Scheduled tests: instance, engine, column, tick. -/
  tests : List (Nat × Nat × Nat × Nat) := []
  /-- Tandem tests by instance, and the partner's verdicts that have come in: 0 pass, 1 fail. -/
  verdictMine : SMap Verdict := []
  verdictTheirs : SMap Nat := []
  markLine : SMap Word := []
  /-- Instance faults here that the partner has not matched: instance, accepted tick. -/
  faults : List (Nat × Nat) := []
  theirs : List Nat := []
  takeover : Bool := false
  lanesUp : BitVec 8 := 0
  /-- Ticks are delivered TDM_DELAY after their instant, since a takeover (R375). -/
  delayed : Bool := false
  dataIn : List DataIn := []
  held : List HeldWrite := []
deriving DecidableEq, Repr

/-- A clock domain (R382 to R385). Ratios 0 to 3 stand for 1, 1/2, 1/4, 1/8. -/
structure Domain where
  gated : Bool := false
  /-- 0 steady, 1 climbing, 2 descending to a stop, 3 moving to a new divider. -/
  ramp : Nat := 0
  ratio : Nat := 0
  braked : Bool := false
  brakedFrom : Nat := 0
  stopped : Bool := false
deriving DecidableEq, Repr

structure Clock where
  doms : SMap Domain := []
  good : Nat := 0
  refLost : Bool := false
  onRc : Bool := false
  /-- Sensors below their threshold. -/
  braking : BitVec 16 := 0
  /-- Instant from which a braking sensor has braked, by sensor. -/
  sensorFrom : SMap Nat := []
  parkCount : Nat := 0
deriving DecidableEq, Repr

structure HostIf where
  /-- Read shadows and write shadows, key function * 2^26 + PF offset (R404, R405). -/
  readShadow : SMap Word := []
  writeShadow : SMap Word := []
  /-- Per-function registers of the virtual functions, same key: QUE_SEL, FLT_RD_SEL. -/
  fnRegs : SMap Word := []
  /-- Registers whose stored parity bit mismatches (R407), and those already reported. -/
  parityBad : List Nat := []
  parityReported : List Nat := []
  vfEnabled : BitVec 8 := 0
  /-- The host has written VF Enable since the last flash boot (R424). -/
  vfWritten : Bool := false
  /-- MSI-X: function masks, and by function * 256 + vector the vectors whose mask bit has been cleared and the PBA bits. -/
  fnMask : BitVec 9 := 0
  vecOpen : List Nat := []
  pba : List Nat := []
  /-- Messages sent, newest first: function and vector (R411). -/
  msgs : List (Nat × Nat) := []
  /-- Pending bits as last taken, by function * 32 + source. -/
  pend : List Nat := []
  /-- Value that the last register read returned (DBGACC, SMBus, READ_SHADOW_LATCH). -/
  lastRead : Word := 0
deriving DecidableEq, Repr

/-- A debug memory access (R430): memory, unit and byte offset of its word, and the word of a write. -/
structure MemOp where
  memory : Nat
  unit : Nat
  off : Nat
  word : Option DWord
deriving DecidableEq, Repr

structure Signals where
  /-- The straps BOOT0, BOOT1, REF_SRC, TANDEM0, TANDEM1, AUTH, SMB_ADDR0, SMB_ADDR1 from bit 0 up; none until they are
  sampled (R422). -/
  straps : Option (BitVec 8) := none
  perst : Bool := false
  released : Bool := false
  anyReleased : Bool := false
  /-- JTAG instruction register and DBGACC data register (R426). -/
  ir : Byte := 1
  /-- The effect in force after a refusal: 0x00 EXTEST, 0x03 HIGHZ, 0x04 CLAMP, else 0xFF. -/
  scan : Byte := 0xFF
  dr : BitVec 72 := 0
  smbPtr : Word := 0
  alert : Bool := false
  /-- GPIO pulse ends by pin (R428). -/
  gpioEnd : SMap Nat := []
  gpioLevel : BitVec 8 := 0
  /-- Probe windows: pin shows sel_b. -/
  probeB : BitVec 4 := 0
  probeArmed : BitVec 4 := 0
  /-- Windows open or to come: pin, opening, closing, and whether it is a mode-2 window. -/
  windows : List (Nat × Nat × Nat × Bool) := []
  mapped : Bool := false
  /-- Flash boot: 0 none, 1 first index, 2 fallback, 3 finished. -/
  boot : Nat := 0
  bootAgain : Bool := false
  /-- Debug memory access in progress. -/
  memOp : Option MemOp := none
deriving DecidableEq, Repr

/-- Segments waiting or being sent on the outlet lanes (R287): lane, instance, edition, first unit, units. -/
structure OutSeg where
  lane : Nat
  inst : Nat
  edition : Nat
  first : Nat
  units : Nat
  sending : Bool
  /-- The VLF words of the frame, header to trailer (R31, R287). -/
  words : List DWord
deriving DecidableEq, Repr

/-- A 64b/66b block on an outlet lane: sync header and scrambled payload (R286). -/
structure TxBlock where
  sync : BitVec 2
  body : DWord
deriving DecidableEq, Repr

/-- The whole device. -/
structure State where
  /-- The commands that wait, oldest first. -/
  pending : List Instr := []
  now : Nat := 0
  /-- Free values drawn so far (Config.freeValue). The model's own field. -/
  free : Nat := 0
  regs : SMap Word := []
  /-- SECDED memories, by linear address (Ops.lean, `memAddr`). -/
  mem : List Host.Cell := []
  /-- Poisoned 64-bit words, by linear address (R338). -/
  poison : List Nat := []
  /-- Words with upsets not yet found, by linear address: the number of flipped bits, at most 2 (R338). -/
  upsets : SMap Nat := []
  /-- Bytes the host has placed in its memory or Lenuk has written there; an unlisted address gives a completion error. -/
  hostMem : List Host.Cell := []
  queues : SMap Queue := []
  tasks : List Task := []
  nextTask : Nat := 0
  engines : SMap Engine := []
  tiles : SMap Tile := []
  cores : SMap Core := []
  insts : SMap Inst := []
  cad : Cadence := {}
  /-- The stream map and the action table in force until the next delivered tick (R41, R276). -/
  mapLive : SMap Word := []
  /-- Values that INL_CTRL.enable has taken, with their instants, newest first (R432). -/
  inlEn : List (Nat × Bool) := []
  /-- The instant at which an inlet lane last gained block lock (R432). -/
  lockAt : SMap Nat := []
  actLive : SMap Word := []
  store : Store := {}
  flt : Faults := {}
  tdm : Tandem := {}
  clk : Clock := {}
  hif : HostIf := {}
  sig : Signals := {}
  outSegs : List OutSeg := []
  /-- The blocks of the last frame that each outlet lane has sent, as they stood on the lane (R286). -/
  outTx : SMap (List TxBlock) := []
  /-- Entries that have entered queues. The model's own field. -/
  nextOrd : Nat := 0
deriving DecidableEq, Repr

/-- Right after cold start: every register at the Reset column of its table, every queue empty, every instance
unloaded, the gateable domains gated at ratio 1/8. -/
def State.reset : State :=
  { clk := { doms := (List.range 92).map (fun d => (d, { gated := true, ratio := 3 : Domain })) } }

end Sys2Proof.Machine
end

