-- ==== Sys2Proof/Machine/Ops.lean ====
section
/-! DEFINITION. The shared operations over registers, events, interrupts, logs and memories. -/

namespace Sys2Proof.Machine

/-! ### Bit fields -/

/-- Bits `hi:lo` of a word, as a number. -/
def bits (v : Word) (hi lo : Nat) : Nat := (v.toNat >>> lo) % 2 ^ (hi - lo + 1)

/-- Bits `hi:lo` of a 64-bit word, as a number. -/
def bits64 (v : DWord) (hi lo : Nat) : Nat := (v.toNat >>> lo) % 2 ^ (hi - lo + 1)

/-- The mask of bits `hi:lo`. -/
def fieldMask (hi lo : Nat) : Word := BitVec.ofNat 32 ((2 ^ (hi - lo + 1) - 1) <<< lo)

/-- Replace bits `hi:lo` by `x`. -/
def setBits (v : Word) (hi lo x : Nat) : Word :=
  (v &&& ~~~ fieldMask hi lo) ||| (BitVec.ofNat 32 (x <<< lo) &&& fieldMask hi lo)

/-- Add `n` to a counter that saturates at 0xFFFF_FFFF (every chapter's register section). -/
def satAdd (v : Word) (n : Nat) : Word := BitVec.ofNat 32 (min (v.toNat + n) 0xFFFFFFFF)

/-- The byte mask of four byte enables (R403). -/
def beMask (be : BitVec 4) : Word :=
  (if be.getLsbD 0 then 0xFF else 0) ||| (if be.getLsbD 1 then 0xFF00 else 0) |||
  (if be.getLsbD 2 then 0xFF0000 else 0) ||| (if be.getLsbD 3 then 0xFF000000 else 0)

/-- `n` after `m` modulo 2^32 (01: the difference lies from 1 to 2^31 - 1). -/
def isAfter (n m : Word) : Bool := let d := (n - m).toNat; decide (1 ≤ d) && decide (d < 2 ^ 31)

/-- Round up the quotient. -/
def ceilDiv (a b : Nat) : Nat := (a + b - 1) / b

/-! ### Registers -/

/-- The stored value of the register at PF BAR0 offset `a`. -/
def State.rd (s : State) (a : Nat) : Word := SMap.get (resetValue a) s.regs a

/-- Store `v` in the register at offset `a`. -/
def State.wr (s : State) (a : Nat) (v : Word) : State :=
  { s with regs := SMap.set (resetValue a) a v s.regs }

/-- Writes that land on the registers that `p` names recompute their parity bits (R407). -/
def State.healIf (s : State) (p : Nat → Bool) : State :=
  { s with hif := { s.hif with parityBad := s.hif.parityBad.filter (fun a => !p a)
                               parityReported := s.hif.parityReported.filter (fun a => !p a) } }

/-- Lenuk itself writes a register that carries parity. -/
def State.wrHeal (s : State) (a : Nat) (v : Word) : State := (s.wr a v).healIf (· == a)

/-- The key under which the parity bit of a register of queue q is kept. -/
def queueKey (q off : Nat) : Nat := 2 ^ 26 * (16 + q) + off

/-- A field of a register. -/
def State.fld (s : State) (a hi lo : Nat) : Nat := bits (s.rd a) hi lo

/-- Store a field of a register. -/
def State.setFld (s : State) (a hi lo x : Nat) : State := s.wr a (setBits (s.rd a) hi lo x)

/-- One bit of a register. -/
def State.bit (s : State) (a n : Nat) : Bool := (s.rd a).getLsbD n

/-- A counter register rises by `n` and saturates. -/
def State.countBy (s : State) (a n : Nat) : State := s.wr a (satAdd (s.rd a) n)

/-- A counter register rises by one and saturates. -/
def State.count (s : State) (a : Nat) : State := s.countBy a 1

/-- A 64-bit counter in two registers, low first. -/
def State.rd64 (s : State) (lo hi : Nat) : Nat := (s.rd lo).toNat + 2 ^ 32 * (s.rd hi).toNat

/-- Store a 64-bit value in two registers. -/
def State.wr64 (s : State) (lo hi n : Nat) : State :=
  (s.wr lo (BitVec.ofNat 32 n)).wr hi (BitVec.ofNat 32 (n / 2 ^ 32))

/-- Delivered ticks of the device (CAD_TICK). -/
def State.devTick (s : State) : Nat := s.rd64 Reg.CAD_TICK_LO Reg.CAD_TICK_HI

/-! ### Tables of units -/

def State.inst (s : State) (i : Nat) : Inst := SMap.get {} s.insts i
def State.setInst (s : State) (i : Nat) (x : Inst) : State := { s with insts := SMap.set {} i x s.insts }
def State.core (s : State) (k : Nat) : Core := SMap.get {} s.cores k
def State.setCore (s : State) (k : Nat) (x : Core) : State := { s with cores := SMap.set {} k x s.cores }
def State.engine (s : State) (e : Nat) : Engine := SMap.get {} s.engines e
def State.setEngine (s : State) (e : Nat) (x : Engine) : State := { s with engines := SMap.set {} e x s.engines }
def State.queue (s : State) (q : Nat) : Queue := SMap.get {} s.queues q
def State.setQueue (s : State) (q : Nat) (x : Queue) : State := { s with queues := SMap.set {} q x s.queues }

/-- The key of tile (column, row). -/
def tileKey (c r : Nat) : Nat := 32 * c + r
def State.tile (s : State) (c r : Nat) : Tile := SMap.get {} s.tiles (tileKey c r)
def State.setTile (s : State) (c r : Nat) (x : Tile) : State :=
  { s with tiles := SMap.set {} (tileKey c r) x s.tiles }

def State.modInst (s : State) (i : Nat) (g : Inst → Inst) : State := s.setInst i (g (s.inst i))
def State.modCore (s : State) (k : Nat) (g : Core → Core) : State := s.setCore k (g (s.core k))
def State.modEngine (s : State) (e : Nat) (g : Engine → Engine) : State := s.setEngine e (g (s.engine e))
def State.modQueue (s : State) (q : Nat) (g : Queue → Queue) : State := s.setQueue q (g (s.queue q))

/-- Move the clock of the model on to `t`; it never runs back. -/
def State.at_ (s : State) (t : Nat) : State := { s with now := max s.now t }

/-- The next free value (Config.freeValue); the counter advances. -/
def State.draw (s : State) : DWord × State := (Config.freeValue s.free, { s with free := s.free + 1 })

/-- The pulse of the tick last delivered has still to be judged: whether that tick carries a mark is open (R13). -/
def State.markOpen (s : State) : Bool :=
  s.cad.tickSrc == 0 && s.cad.sheetSrc == 0 && s.cad.pulse.isSome && s.cad.pulse == s.cad.tickEdge && !s.cad.wide

/-! ### The fuse map (R45) -/

/-- Is physical unit p among the first `n` units that the fuses name? R45 bounds how many of them a part can have. -/
def fusedAmong (off : Nat → Bool) (n p : Nat) : Bool :=
  off p && decide (((List.range p).filter off).length < n)

/-- Physical engine p is fused off: at most 4 of the 68 are. -/
def engineFused (p : Nat) : Bool := fusedAmong Config.engineFusedOff 4 p
/-- Physical column p is fused off or used at the factory: at most 2 of the 66 are. -/
def columnFused (p : Nat) : Bool := fusedAmong Config.columnFusedOff 2 p

/-! ### Ownership (R53, R290, R399) -/

/-- Does mask `m` name unit `u`? -/
def hasBit (m u : Nat) : Bool := m.testBit u

/-- Engines assigned to instance i. -/
def State.engMask (s : State) (i : Nat) : Nat := s.rd64 (Reg.INS_I_ENGINES_LO i) (Reg.INS_I_ENGINES_HI i)

/-- Is logical column c, one of the 64, in the run of instance i (INS_I_COLS)? -/
def State.ownsCol (s : State) (i c : Nat) : Bool :=
  let v := s.rd (Reg.INS_I_COLS i)
  decide (bits v 5 0 ≤ c) && decide (c < bits v 5 0 + bits v 14 8) && decide (c < 64)

/-- Is core k, one of the 128, assigned to instance i? -/
def State.ownsCore (s : State) (i k : Nat) : Bool := decide (k < 128) && (s.rd (Reg.INS_I_CORES i (k / 32))).getLsbD (k % 32)

/-- The instances, in order. -/
def instNums : List Nat := [0, 1, 2, 3, 4, 5, 6, 7]

/-- The owner of logical engine e. -/
def State.engOwner (s : State) (e : Nat) : Option Nat := instNums.find? (fun i => hasBit (s.engMask i) e)
/-- The owner of logical column c. -/
def State.colOwner (s : State) (c : Nat) : Option Nat := instNums.find? (fun i => s.ownsCol i c)
/-- The owner of core k. -/
def State.coreOwner (s : State) (k : Nat) : Option Nat := instNums.find? (fun i => s.ownsCore i k)

/-- The owner field of a queue (QUE_Q_ASSIGN): 0 to 7 instance, 8 manager, 15 unassigned. -/
def Queue.owner (x : Queue) : Nat := if x.assign.getLsbD 31 then bits x.assign 27 24 else 15

/-- Physical engine serving logical engine e (R46). -/
def State.engPhys (s : State) (e : Nat) : Nat := SMap.get e s.flt.engMap e
/-- Physical column serving logical column c (R46). -/
def State.colPhys (s : State) (c : Nat) : Nat := SMap.get c s.flt.colMap c

/-- The stages of instance i's image. -/
def Inst.stageDescs (x : Inst) : List StageDesc := match x.image with | some im => im.stages | none => []

/-- The stage of instance x that holds engine e. -/
def Inst.stageOfEngine (x : Inst) (e : Nat) : Option StageDesc := x.stageDescs.find? (fun d => hasBit d.engines e)
def Inst.stageOfCol (x : Inst) (c : Nat) : Option StageDesc := x.stageDescs.find? (fun d => hasBit d.columns c)
def Inst.stageOfCore (x : Inst) (k : Nat) : Option StageDesc := x.stageDescs.find? (fun d => hasBit d.cores k)

/-- The running data of stage `sid`. -/
def Inst.stage (x : Inst) (sid : Nat) : Option Stage := x.stages.find? (fun g => g.id == sid)
/-- Replace the running data of a stage. -/
def Inst.setStage (x : Inst) (g : Stage) : Inst :=
  { x with stages := x.stages.map (fun y => if y.id == g.id then g else y) }
def Inst.modStage (x : Inst) (sid : Nat) (h : Stage → Stage) : Inst :=
  { x with stages := x.stages.map (fun y => if y.id == sid then h y else y) }
def Inst.stageDesc (x : Inst) (sid : Nat) : Option StageDesc := x.stageDescs.find? (fun d => d.id == sid)

/-- Running or in freewheel: the states in which ticks act on an instance. -/
def Inst.live (x : Inst) : Bool := x.st == .running || x.st == .freewheel

/-! ### Interrupts (R410 to R412) -/

/-- Source number of the block that holds register `a` (R357, R414). -/
def sourceOf (a : Nat) : Nat :=
  if a < 0x10000 then 0x11
  else if a < 0x100000 then 0
  else match (a - 0x100000) / 0x10000 with
    | 0 => 0x01 | 1 => 0x02 | 2 => 0x03 | 3 => 0x04 | 4 => 0x05 | 5 => 0x06 | 6 => 0x07 | 7 => 0x08
    | 8 => 0x09 | 9 => 0x0A | 10 => 0x0B | 11 => 0x0C | 12 => 0x0D | 13 => 0x0E | 14 => 0x0F | 15 => 0x10
    | 16 => 0x12 | _ => 0

/-- Per-instance event registers: block, offset of row 0, stride, distance of the enable register. -/
def instEvtRows : List (Nat × Nat) := [
  (Reg.CAD_I_EVT 0, 0x40), (Reg.XFR_I_EVT 0, 0x20), (Reg.INS_I_EVT 0, 0x80), (Reg.ADP_I_EVT 0, 0x40),
  (Reg.OUT_I_EVT 0, 0x80), (Reg.ACT_I_EVT 0, 0x40), (Reg.STO_I_EVT 0, 0x20), (Reg.FLT_I_EVT 0, 0x40),
  (Reg.TDM_I_EVT 0, 0x20)]

/-- Per-unit event rows: first row, count; stride 0x40. -/
def unitEvtRows : List (Nat × Nat) := [(Reg.ENG_E_EVT 0, 64), (Reg.TIL_C_EVT 0, 64), (Reg.SVC_K_EVT 0, 128)]

/-- Device-wide event registers. -/
def devEvts : List Nat := [
  Reg.CAD_EVT, Reg.INL_LANE_EVT, Reg.INL_EVT, Reg.STO_EVT, Reg.FLT_EVT, Reg.CLK_EVT, Reg.PWR_EVT, Reg.TDM_EVT,
  Reg.HIF_EVT, Reg.DBG_EVT]

/-- The enable register stands 4 above its event register. HIF_EVT.nm has no enable bit (17). -/
def evtLive (s : State) (a : Nat) : Bool := (s.rd a &&& s.rd (a + 4)) != 0

/-- The instance that owns the unit row of event register `a`, if `a` is one of a unit, a queue or an instance. -/
def evtOwner (s : State) (a : Nat) : Option Nat :=
  match instEvtRows.find? (fun p => decide (p.1 ≤ a) && decide (a < p.1 + 8 * p.2) && (a - p.1) % p.2 == 0) with
  | some p => some ((a - p.1) / p.2)
  | none =>
    match unitEvtRows.find? (fun p => decide (p.1 ≤ a) && decide (a < p.1 + 0x40 * p.2) && (a - p.1) % 0x40 == 0) with
    | some p =>
      let u := (a - p.1) / 0x40
      if p.1 = Reg.ENG_E_EVT 0 then s.engOwner u
      else if p.1 = Reg.TIL_C_EVT 0 then s.colOwner u
      else s.coreOwner u
    | none => none

/-- The functions that an event of an owner reaches (R410). -/
def reaches (s : State) : Option Nat → List Nat
  | some i => if s.bit Reg.HIF_WATCH i then [i + 1, 0] else [i + 1]
  | none => [0]

/-- Is the function's message for `vec` masked (R411)? -/
def State.masked (s : State) (f vec : Nat) : Bool :=
  s.hif.fnMask.getLsbD f || !s.hif.vecOpen.contains (256 * f + vec)

/-- A paired follower (R370). -/
def State.follower (s : State) : Bool := s.tdm.st == 2 && s.tdm.role == 2

/-- Does this device leave the outlet, the mirrors, host memory and MSI-X to its partner: a paired follower, or one that has
lost its lead and has not yet taken over (R370, R375)? -/
def State.follows (s : State) : Bool := s.follower || s.tdm.takeover

/-- Send function f's message on a vector, or hold it in the PBA, or drop it (R411). -/
def State.sendVec (s : State) (f vec : Nat) : State :=
  if (if f = 0 then 256 else 32) ≤ vec then s.count Reg.HIF_MSG_DROP
  else if s.masked f vec then { s with hif := { s.hif with pba := insKey (256 * f + vec) s.hif.pba } }
  else { s with hif := { s.hif with msgs := (f, vec) :: s.hif.msgs } }

/-- The vector of source `src` of function f (HIF_F_EVEC). -/
def State.evec (s : State) (f src : Nat) : Nat :=
  bits (s.rd (Reg.HIF_F_EVEC f (src / 4))) (8 * (src % 4) + 7) (8 * (src % 4))

/-- A message of source `src`, unless this follower sends only those of TDM (R370). -/
def State.message (s : State) (f src : Nat) : State :=
  if s.follows && src != 0x10 then s else s.sendVec f (s.evec f src)

/-- Pending bit `src` of function f becomes 1; a rise sends the message (R411). -/
def State.pendSet (s : State) (src : Nat) (f : Nat) : State :=
  if s.hif.pend.contains (f * 32 + src) then s
  else { s with hif := { s.hif with pend := insKey (f * 32 + src) s.hif.pend } }.message f src

/-- The bits of event registers whose rise asserts SMBALERT# (R419). -/
def alertBits (a : Nat) : Word :=
  if a = Reg.HIF_EVT then 8 else if a = Reg.CLK_EVT then 1 else if a = Reg.PWR_EVT then 0x1A else 0

/-- Event bits rise: the register keeps them, SMBALERT# follows R419, and enabled bits make their source pending. -/
def State.raise (s : State) (a : Nat) (b : Word) : State :=
  let old := s.rd a
  let s := s.wr a (old ||| b)
  let s := if (b &&& ~~~old &&& alertBits a) != 0 then { s with sig := { s.sig with alert := true } } else s
  if evtLive s a then (reaches s (evtOwner s a)).foldl (fun s f => s.pendSet (sourceOf a) f) s else s

/-- Event bit `n` rises. -/
def State.event (s : State) (a n : Nat) : State := s.raise a (BitVec.ofNat 32 (2 ^ n))

/-- An event bit of a queue rises (QUE_Q_EVT). -/
def State.queueEvent (s : State) (q n : Nat) : State :=
  let x := s.queue q
  let x := { x with evt := x.evt ||| BitVec.ofNat 6 (2 ^ n) }
  let s := s.setQueue q x
  if (x.evt &&& x.evtEn) != 0 then
    (reaches s (if x.owner < 8 then some x.owner else none)).foldl (fun s f => s.pendSet 0x07 f) s
  else s

/-- HIF_F_PEND[f] bit `src` taken afresh (R410): the OR of every enabled event bit that reaches f. -/
def State.pendNow (s : State) (f src : Nat) : Bool :=
  let own (o : Option Nat) : Bool := (reaches s o).contains f
  if src = 0 then f == 0 && s.bit Reg.HIF_EVT 3
  else
    devEvts.any (fun a => sourceOf a == src && f == 0 && evtLive s a)
    || instEvtRows.any (fun p => sourceOf p.1 == src &&
        instNums.any (fun i => own (some i) && evtLive s (p.1 + i * p.2)))
    || unitEvtRows.any (fun p => sourceOf p.1 == src &&
        (List.range p.2).any (fun u => evtLive s (p.1 + 0x40 * u) && own (evtOwner s (p.1 + 0x40 * u))))
    || (src == 0x07 && s.queues.any (fun e => (e.2.evt &&& e.2.evtEn) != 0 &&
        own (if e.2.owner < 8 then some e.2.owner else none)))

/-- After a write that clears an event or enable bit of a source, or sets an enable bit: take the pending bits of
every function afresh; one that is still 1, or newly 1, sends its message (R411). -/
def State.pendRefresh (s : State) (src : Nat) : State :=
  (List.range 9).foldl (fun s f =>
    if s.pendNow f src then { s with hif := { s.hif with pend := insKey (f * 32 + src) s.hif.pend } }.message f src
    else { s with hif := { s.hif with pend := delKey (f * 32 + src) s.hif.pend } }) s

/-- As `pendRefresh`, for a write that sets enable bits and clears nothing: only a rise sends. -/
def State.pendRise (s : State) (src : Nat) : State :=
  (List.range 9).foldl (fun s f => if s.pendNow f src then s.pendSet src f else s) s

/-- A non-maskable event (R6, R412): HIF_EVT.nm, SMBALERT#, and the message of byte 0 whatever is enabled. -/
def State.nonMaskable (s : State) : State :=
  let s := s.raise Reg.HIF_EVT 8
  let s := { s with hif := { s.hif with pend := insKey 0 s.hif.pend } }
  s.sendVec 0 (s.evec 0 0)

/-! ### Error logs (R356 to R360) -/

/-- Entries of a ring: 1,024 for the device, 256 for an instance. -/
def ringSize (n : Nat) : Nat := if n = 0 then 1024 else 256
/-- Pointers are 11 bits wide for the device ring and 9 for an instance ring. -/
def ringMod (n : Nat) : Nat := 2 * ringSize n

def State.ring (s : State) (n : Nat) : Ring := SMap.get {} s.flt.rings n
def State.setRing (s : State) (n : Nat) (x : Ring) : State :=
  { s with flt := { s.flt with rings := SMap.set {} n x s.flt.rings } }

/-- Entries in a ring. -/
def Ring.fill (x : Ring) (n : Nat) : Nat := (x.head + ringMod n - x.tail) % ringMod n

/-- Event register of a ring's function: FLT_EVT or FLT_I_EVT. -/
def ringEvt (n : Nat) : Nat := if n = 0 then Reg.FLT_EVT else Reg.FLT_I_EVT (n - 1)

/-- Does slot k hold an entry not yet consumed? -/
def Ring.held (x : Ring) (n k : Nat) : Bool := decide ((k + ringSize n - x.tail % ringSize n) % ringSize n < x.fill n)

/-- The place of the held entry that a report coalesces into: same source and code, written in this tick (R358). -/
def Ring.coalesce (x : Ring) (n src code tick : Nat) : Option (Nat × LogEntry) :=
  x.entries.find? (fun e => x.held n e.1 && e.2.source == src && e.2.code == code && e.2.tick == tick)

/-- One report enters ring `n`, coalesces, or is dropped (R358, R359). -/
def State.ringReport (s : State) (n : Nat) (e : LogEntry) : State :=
  let x := s.ring n
  match x.coalesce n e.source e.code e.tick with
  | some (k, old) =>
    let c := min (old.count + 1) 65535
    let f := (old.flags ||| 1) ||| (if old.count + 1 > 65535 then 2 else 0)
    s.setRing n { x with entries := SMap.put k { old with count := c, flags := f } x.entries }
  | none =>
    if x.fill n = ringSize n then
      let ovf := if n = 0 then Reg.FLT_LOG_OVF else Reg.FLT_I_LOG_OVF (n - 1)
      let last := if n = 0 then Reg.FLT_LOG_LASTDROP else Reg.FLT_I_LOG_LASTDROP (n - 1)
      let s := (s.count ovf).wr last (BitVec.ofNat 32 (65536 * e.source + e.code))
      if n = 0 then s.event Reg.FLT_EVT 1 else s
    else
      let x := { x with entries := SMap.put (x.head % ringSize n) e x.entries
                        head := (x.head + 1) % ringMod n
                        sticky := if x.clear then some e else x.sticky
                        clear := false }
      (s.setRing n x).event (ringEvt n) 0

/-- A report: its source, code, severity, owner, stage, unit and detail (R356 to R358). -/
def State.report (s : State) (src code sev : Nat) (owner : Option Nat) (stage unit : Nat) (detail : Word) : State :=
  let img := match owner with
    | some i => (match (s.inst i).image with | some im => im.imageId | none => 0)
    | none => 0
  let e : LogEntry :=
    { tick := s.devTick, imageId := img, source := src, code := code, severity := sev,
      inst := owner.getD 0xFF, stage := stage, flags := 0, count := 1, unit := unit, detail := detail }
  let s := s.wr Reg.FLT_SRC_SUM (s.rd Reg.FLT_SRC_SUM ||| BitVec.ofNat 32 (2 ^ src))
  let s := s.ringReport 0 e
  match owner with
  | some i =>
    let s := s.wr (Reg.FLT_I_SRC_SUM i) (s.rd (Reg.FLT_I_SRC_SUM i) ||| BitVec.ofNat 32 (2 ^ src))
    s.ringReport (1 + i) e
  | none => s

/-! ### Memories (R49, R338) -/

/-- Kinds of SECDED memory, numbered as DBG_MEM_ADDR_HI.memory. -/
inductive MemKind where
  | weight | staging | acc | tile | core | bulk | commit
deriving DecidableEq, Repr

def MemKind.num : MemKind → Nat
  | .weight => 0 | .staging => 1 | .acc => 2 | .tile => 3 | .core => 4 | .bulk => 5 | .commit => 6

/-- Bytes of one unit of each memory (R49); a tile column is 32 tiles of 16 KiB. -/
def MemKind.size : MemKind → Nat
  | .weight => 0x100000 | .staging => 0x20000 | .acc => 0x40000 | .tile => 0x80000 | .core => 0x20000
  | .bulk => 0x6000000 | .commit => 0x800000

/-- Units built of each memory: 68 engines, 66 columns, 128 cores, 4 dies, 1 commit buffer (R45, R49). -/
def MemKind.units : MemKind → Nat
  | .weight => 68 | .staging => 68 | .acc => 68 | .tile => 66 | .core => 128 | .bulk => 4 | .commit => 1

/-- The linear address of byte `off` of unit `u` (physical) of a memory. -/
def memAddr (k : MemKind) (u off : Nat) : Nat := 0x1000000000 * k.num + 0x10000000 * u + off

/-- One byte; an unlisted byte reads 0. -/
def State.rdByte (s : State) (a : Nat) : Byte := SMap.get 0 s.mem a

/-- `n` bytes from `a` upwards. -/
def State.rdBytes (s : State) (a : Nat) : Nat → List Byte
  | 0 => []
  | n + 1 => s.rdByte a :: s.rdBytes (a + 1) n

/-- Store one byte, leaving the marks of its word. -/
def State.wrByte (s : State) (a : Nat) (b : Byte) : State := { s with mem := SMap.set 0 a b s.mem }

/-- Store bytes from `a` upwards, leaving marks. -/
def State.wrBytesRaw (s : State) (a : Nat) : List Byte → State
  | [] => s
  | b :: bs => (s.wrByte a b).wrBytesRaw (a + 1) bs

/-- Is the word at `w` wholly inside `a .. a + n`? -/
def wordInside (a n w : Nat) : Bool := decide (a ≤ w) && decide (w + 8 ≤ a + n)

/-- Store bytes with good check bits: a word written whole loses its mark and its upsets, a word written in part keeps
its mark (R338). -/
def State.wrBytes (s : State) (a : Nat) (bs : List Byte) : State :=
  let n := bs.length
  let s := s.wrBytesRaw a bs
  { s with poison := s.poison.filter (fun w => !wordInside a n w)
           upsets := s.upsets.filter (fun e => !wordInside a n e.1) }

/-- Is any word that holds one of the bytes `a .. a + n` poisoned? -/
def State.poisoned (s : State) (a n : Nat) : Bool :=
  s.poison.any (fun w => decide (w < a + n) && decide (a < w + 8))

/-- Little-endian value of bytes (R87). -/
def leNat : List Byte → Nat
  | [] => 0
  | b :: bs => b.toNat + 256 * leNat bs

/-- Little-endian bytes of a number. -/
def leBytes : Nat → Nat → List Byte
  | 0, _ => []
  | n + 1, v => BitVec.ofNat 8 v :: leBytes n (v / 256)

/-- Little-endian field of a byte string. -/
def leField (bs : List Byte) (off n : Nat) : Nat := leNat ((bs.drop off).take n)

/-- Zero every byte of a unit of a memory and clear its marks (R300 step 4). -/
def State.zeroMem (s : State) (k : MemKind) (u off n : Nat) : State :=
  let lo := memAddr k u off
  { s with mem := SMap.dropRange lo (lo + n) s.mem
           poison := s.poison.filter (fun w => !(decide (lo ≤ w) && decide (w < lo + n)))
           upsets := SMap.dropRange lo (lo + n) s.upsets }

/-- Copy a range of memory with every mark (R180, R305, R240). -/
def State.copyMem (s : State) (src dst n : Nat) : State :=
  let cells := SMap.inRange src (src + n) s.mem
  let s := { s with mem := SMap.dropRange dst (dst + n) s.mem
                    poison := s.poison.filter (fun w => !(decide (dst ≤ w) && decide (w < dst + n)))
                    upsets := SMap.dropRange dst (dst + n) s.upsets }
  let marks := s.poison.filter (fun w => decide (src ≤ w) && decide (w < src + n))
  let ups := SMap.inRange src (src + n) s.upsets
  { s with mem := cells.foldl (fun m c => SMap.set 0 (c.1 - src + dst) c.2 m) s.mem
           poison := marks.foldl (fun m w => insKey (w - src + dst) m) s.poison
           upsets := ups.foldl (fun m c => SMap.put (c.1 - src + dst) c.2 m) s.upsets }

/-! ### Host memory -/

/-- One byte of host memory; none is a completion error. -/
def State.hostByte (s : State) (a : Nat) : Option Byte := SMap.find s.hostMem a

/-- `n` bytes of host memory, or none when any is absent. -/
def State.hostBytes (s : State) (a : Nat) : Nat → Option (List Byte)
  | 0 => some []
  | n + 1 =>
    match s.hostByte a, s.hostBytes (a + 1) n with
    | some b, some bs => some (b :: bs)
    | _, _ => none

/-- Lenuk or the host writes bytes of host memory. -/
def State.wrHost (s : State) (a : Nat) : List Byte → State
  | [] => s
  | b :: bs => { s with hostMem := SMap.put a b s.hostMem }.wrHost (a + 1) bs

/-- The host has placed these bytes before its access. -/
def State.placeHost (s : State) (cells : List (Nat × Byte)) : State :=
  { s with hostMem := cells.foldl (fun m c => SMap.put c.1 c.2 m) s.hostMem }

/-! ### The window table (R293) -/

/-- Owner, id, die, first byte, bytes and access of window entry k. -/
structure Win where
  valid : Bool
  owner : Nat
  id : Nat
  die : Nat
  base : Nat
  size : Nat
  access : Nat
deriving DecidableEq, Repr

/-- Entry k of the window table. DESIGN CHOICE (log entry 62): an entry whose base + size exceeds the die's 1,536 units, which
INS_W_PLACE forbids without an effect, ends at the end of the die. -/
def State.win (s : State) (k : Nat) : Win :=
  let m := s.rd (Reg.INS_W_MATCH k)
  let p := s.rd (Reg.INS_W_PLACE k)
  { valid := m.getLsbD 31, owner := bits m 27 24, id := bits m 5 0, die := bits p 31 30,
    base := 0x10000 * bits p 26 16, size := min (0x10000 * bits p 10 0) (0x6000000 - 0x10000 * bits p 26 16), access := bits (s.rd (Reg.INS_W_ACCESS k)) 2 0 }

/-- The window of instance i with local id w: the lowest valid entry (R293). -/
def State.window (s : State) (i w : Nat) : Option Win :=
  ((List.range 512).map s.win).find? (fun x => x.valid && x.owner == i && x.id == w)

/-- The owner of a byte of a bulk die (R293). -/
def State.bulkOwner (s : State) (die off : Nat) : Option Nat :=
  match ((List.range 512).map s.win).find? (fun x => x.valid && x.die == die && decide (x.base ≤ off) &&
      decide (off < x.base + x.size)) with
  | some x => if x.owner < 8 then some x.owner else none
  | none => none

/-- The linear address of byte `off` of a window, if it lies inside. -/
def Win.addr (x : Win) (off : Nat) : Option Nat :=
  if off < x.size then some (memAddr .bulk x.die (x.base + off)) else none

/-! ### Outcomes -/

/-- The outcome of a meaning. -/
abbrev Res := Host.Outcome State Fault Refusal

/-- A command that takes effect when a condition holds, and changes nothing otherwise: an event that cannot occur in
this state. -/
def State.onlyIf (s : State) (c : Bool) (t : State) : Res := .next (if c then t else s)

end Sys2Proof.Machine
end

