-- ==== Sys2Proof/Machine/Format.lean ====
section
/-! DEFINITION. The seventeen number formats, their values, the two roundings and the conversions (R86 to R98, R103),
and FP32 arithmetic rounded once toward zero. -/

namespace Sys2Proof.Machine

/-- The codes of R86, as numbers. -/
def fmtU1 : Nat := 0x01
def fmtU2 : Nat := 0x02
def fmtU8Z : Nat := 0x03
def fmtU10 : Nat := 0x04
def fmtU12 : Nat := 0x05
def fmtINT4 : Nat := 0x06
def fmtINT8 : Nat := 0x07
def fmtINT16 : Nat := 0x08
def fmtINT32 : Nat := 0x09
def fmtFP4 : Nat := 0x0A
def fmtE4M3 : Nat := 0x0B
def fmtE5M2 : Nat := 0x0C
def fmtBF16 : Nat := 0x0D
def fmtFP16 : Nat := 0x0E
def fmtFP32 : Nat := 0x0F
def fmtCB4 : Nat := 0x10
def fmtGS : Nat := 0x11

/-- A code that R86 lists. -/
def fmtListed (c : Nat) : Bool := decide (1 ≤ c) && decide (c ≤ 0x11)

/-- Width in bits of an element (R86). -/
def fmtWidth (c : Nat) : Nat :=
  if c = fmtU1 then 1 else if c = fmtU2 then 2 else if c = fmtU8Z then 8 else if c = fmtU10 then 10
  else if c = fmtU12 then 12 else if c = fmtINT4 then 4 else if c = fmtINT8 then 8 else if c = fmtINT16 then 16
  else if c = fmtINT32 then 32 else if c = fmtFP4 then 4 else if c = fmtE4M3 then 8 else if c = fmtE5M2 then 8
  else if c = fmtBF16 then 16 else if c = fmtFP16 then 16 else if c = fmtFP32 then 32 else if c = fmtCB4 then 4
  else if c = fmtGS then 8 else 0

/-- Bits that an element occupies in storage: U10 and U12 sit in 16-bit containers (R87). -/
def fmtStored (c : Nat) : Nat := if c = fmtU10 ∨ c = fmtU12 then 16 else fmtWidth c

/-- A two's complement format. -/
def fmtSigned (c : Nat) : Bool := decide (fmtINT4 ≤ c) && decide (c ≤ fmtINT32)

/-- An unsigned integer format without zero point. -/
def fmtUnsigned (c : Nat) : Bool := c == fmtU1 || c == fmtU2 || c == fmtU10 || c == fmtU12

/-- Any floating-point format (R89). -/
def fmtFloat (c : Nat) : Bool := decide (fmtFP4 ≤ c) && decide (c ≤ fmtFP32)

/-! ### Values -/

/-- A value: NaN, an infinity, or plus or minus m times 2^e, a zero keeping its sign. -/
inductive FVal where
  | nan
  | inf (neg : Bool)
  | fin (neg : Bool) (m : Nat) (e : Int)
deriving DecidableEq, Repr

/-- A floating-point format: exponent bits, mantissa bits, bias, largest finite code, infinity code and canonical NaN
(R89, R90); `none` where the format has no such encoding. -/
structure FloatFmt where
  e : Nat
  m : Nat
  bias : Nat
  top : Nat
  inf : Option Nat
  nan : Option Nat
deriving DecidableEq, Repr

/-- The parameters of R89 and the canonical NaN of R90. -/
def floatFmt (c : Nat) : FloatFmt :=
  if c = fmtFP4 then ⟨2, 1, 1, 0x7, none, none⟩
  else if c = fmtE4M3 then ⟨4, 3, 7, 0x7E, none, some 0x7F⟩
  else if c = fmtE5M2 then ⟨5, 2, 15, 0x7B, some 0x7C, some 0x7E⟩
  else if c = fmtBF16 then ⟨8, 7, 127, 0x7F7F, some 0x7F80, some 0x7FC0⟩
  else if c = fmtFP16 then ⟨5, 10, 15, 0x7BFF, some 0x7C00, some 0x7E00⟩
  else ⟨8, 23, 127, 0x7F7FFFFF, some 0x7F800000, some 0x7FC00000⟩

/-- The value of a floating-point code (R89). A magnitude above the largest finite one is the infinity or NaN. -/
def floatVal (f : FloatFmt) (x : Nat) : FVal :=
  let neg := x.testBit (f.e + f.m)
  let mag := x % 2 ^ (f.e + f.m)
  if some mag = f.inf then .inf neg
  else if f.top < mag then .nan
  else
    let ex := mag / 2 ^ f.m
    let mm := mag % 2 ^ f.m
    if ex = 0 then .fin neg mm (1 - (f.bias : Int) - f.m)
    else .fin neg (mm + 2 ^ f.m) ((ex : Int) - f.bias - f.m)

/-- The value of the element with stored code `x`, with zero point `z` for U8Z (R88, R89, R103). -/
def decodeElem (c z x : Nat) : FVal :=
  let w := fmtWidth c
  let x := x % 2 ^ w
  if fmtFloat c then floatVal (floatFmt c) x
  else if c = fmtGS then (if x = 255 then .nan else .fin false 1 ((x : Int) - 127))
  else if fmtSigned c then (if 2 ^ (w - 1) ≤ x then .fin true (2 ^ w - x) 0 else .fin false x 0)
  else if c = fmtU8Z then (if x < z then .fin true (z - x) 0 else .fin false (x - z) 0)
  else .fin false x 0

/-! ### Rounding (R93, R94) -/

/-- The magnitude m × 2^e counted in units of 2^q, its integer part, and the first 16 bits of the fraction. -/
def scaleTo (m : Nat) (e q : Int) : Nat × Nat :=
  if q ≤ e then (m <<< (e - q).toNat, 0)
  else
    let sh := (q - e).toNat
    (m >>> sh, ((m <<< 16) >>> sh) % 65536)

/-- Round a magnitude to units of 2^q: toward zero, or stochastically with draw `d` (R93, R94). -/
def roundMag (m : Nat) (e q : Int) : Option Nat → Nat
  | none => (scaleTo m e q).1
  | some d => let k := scaleTo m e q; if 65536 ≤ k.2 + d then k.1 + 1 else k.1

/-- Exponent of the leading bit of m × 2^e. -/
def leadExp (m : Nat) (e : Int) : Int := (Nat.log2 m : Int) + e

/-- The code of a finite magnitude in a floating-point format, saturated at the largest finite one (R98). -/
def floatMag (f : FloatFmt) (m : Nat) (e : Int) (d : Option Nat) : Nat :=
  if m = 0 then 0
  else
    let emin : Int := 1 - f.bias
    let lead := max (leadExp m e) emin
    if (f.bias : Int) + 2 < lead then f.top
    else
      let k := roundMag m e (lead - f.m) d
      min f.top ((lead - emin).toNat * 2 ^ f.m + k)

/-- Sign bit of a floating-point code. -/
def signBit (f : FloatFmt) (neg : Bool) : Nat := if neg then 2 ^ (f.e + f.m) else 0

/-- The code of a value in a floating-point format, by the rows of R98. -/
def encodeFloat (c : Nat) (v : FVal) (d : Option Nat) : Nat :=
  let f := floatFmt c
  match v with
  | .nan => f.nan.getD 0
  | .inf neg =>
    signBit f neg + (if c = fmtE5M2 then f.top else f.inf.getD f.top)
  | .fin neg m e => signBit f neg + floatMag f m e d

/-- The integer nearest below in magnitude, or the stochastic one; none for NaN; infinities as `big`. -/
def toInt (v : FVal) (big : Nat) (d : Option Nat) : Int :=
  match v with
  | .nan => 0
  | .inf neg => if neg then -(big : Int) else big
  | .fin neg m e =>
    let k := if 64 < leadExp m e ∧ m ≠ 0 then big else roundMag m e 0 d
    if neg then -(k : Int) else k

/-- Clamp into a range. -/
def clampInt (lo hi x : Int) : Int := if x < lo then lo else if hi < x then hi else x

/-- Two's complement code of an integer, `w` bits. -/
def intCode (w : Nat) (x : Int) : Nat := (x % (2 ^ w : Int)).toNat

/-- The stored code of a value in destination format `c` (R98), with zero point `z`, by RTZ or with a draw. -/
def encodeElem (c z : Nat) (v : FVal) (d : Option Nat) : Nat :=
  let w := fmtWidth c
  if fmtFloat c then encodeFloat c v d
  else
    let x := toInt v (2 ^ 65) d
    if fmtSigned c then intCode w (clampInt (-(2 ^ (w - 1) : Int)) (2 ^ (w - 1) - 1) x)
    else if c = fmtU8Z then (clampInt 0 255 (x + z)).toNat
    else (clampInt 0 (2 ^ w - 1) x).toNat

/-- Does a conversion unit of a core read and write this format (R193)? -/
def fmtConv (c : Nat) : Bool := fmtListed c && c != fmtCB4 && c != fmtGS

/-- How an integer format of up to 32 bits sits in a 32-bit lane: sign- or zero-extended by its class; a
floating-point pattern is zero-extended (R193). -/
def inLane (c : Nat) (x : Nat) : Word :=
  let w := fmtWidth c
  if fmtSigned c ∧ 2 ^ (w - 1) ≤ x then BitVec.ofInt 32 ((x : Int) - 2 ^ w) else BitVec.ofNat 32 x

/-- One conversion of R193: element in the low bits of `x`, the result as it sits in a lane. -/
def convElem (src dst z : Nat) (x : Word) (d : Option Nat) : Word :=
  inLane dst (encodeElem dst z (decodeElem src z x.toNat) d)

/-! ### The rounding generator (R95) -/

/-- One step of the Galois register: the next state and the output bit. -/
def lfsrStep (x : Word) : Word × Bool :=
  let out := x.getLsbD 0
  let y := x >>> 1
  (if out then y ^^^ 0x80200003 else y, out)

/-- `n` steps, the output bits gathered from the top. -/
def lfsrSteps : Nat → Word → Nat → Word × Nat
  | 0, x, d => (x, d)
  | n + 1, x, d => let r := lfsrStep x; lfsrSteps n r.1 (2 * d + (if r.2 then 1 else 0))

/-- A draw: 16 steps, the first giving bit 15 (R95). -/
def draw16 (x : Word) : Word × Nat := lfsrSteps 16 x 0

/-- A store into lfsr: 0 becomes 1 (R96). -/
def lfsrStore (x : Word) : Word := if x = 0 then 1 else x

/-- The seed of core k for an image (R96). -/
def lfsrSeed (imageId k : Nat) : Word :=
  lfsrStore (BitVec.ofNat 32 imageId ^^^ BitVec.ofNat 32 (0x9E3779B9 * (k + 1)))

/-- `n` draws in order, newest state first in the pair (R97). -/
def drawMany : Nat → Word → Word × List Nat
  | 0, x => (x, [])
  | n + 1, x => let r := draw16 x; let q := drawMany n r.1; (q.1, r.2 :: q.2)

/-! ### FP32 arithmetic (R90, R91, R93, R191) -/

/-- The value of an FP32 pattern. -/
def f32 (x : Word) : FVal := floatVal (floatFmt fmtFP32) x.toNat
/-- The FP32 pattern of a value, rounded once by RTZ. -/
def toF32 (v : FVal) : Word := BitVec.ofNat 32 (encodeFloat fmtFP32 v none)
/-- The canonical NaN (R90). -/
def nan32 : Word := 0x7FC00000
/-- Is the pattern a NaN? -/
def isNan (x : Word) : Bool := f32 x == .nan

/-- Signed integer m × 2^(e - q), for q ≤ e. -/
def alignInt (neg : Bool) (m : Nat) (e q : Int) : Int :=
  let k : Int := (m <<< (e - q).toNat : Nat)
  if neg then -k else k

/-- The exact sum of two finite values; a zero sum is +0 unless both are −0 (R93). -/
def addFin (n1 : Bool) (m1 : Nat) (e1 : Int) (n2 : Bool) (m2 : Nat) (e2 : Int) : FVal :=
  let q := min e1 e2
  let x := alignInt n1 m1 e1 q + alignInt n2 m2 e2 q
  if x = 0 then .fin (n1 && n2 && m1 == 0 && m2 == 0) 0 0
  else .fin (decide (x < 0)) x.natAbs q

/-- Sum of two values; opposite infinities give NaN. -/
def addVal : FVal → FVal → FVal
  | .nan, _ => .nan
  | _, .nan => .nan
  | .inf a, .inf b => if a = b then .inf a else .nan
  | .inf a, .fin _ _ _ => .inf a
  | .fin _ _ _, .inf b => .inf b
  | .fin a m e, .fin b n f => addFin a m e b n f

/-- The value with its sign changed. -/
def negVal : FVal → FVal
  | .nan => .nan
  | .inf a => .inf (!a)
  | .fin a m e => .fin (!a) m e

/-- Product of two values; infinity times zero gives NaN. -/
def mulVal : FVal → FVal → FVal
  | .nan, _ => .nan
  | _, .nan => .nan
  | .inf a, .inf b => .inf (a != b)
  | .inf a, .fin b m _ => if m = 0 then .nan else .inf (a != b)
  | .fin a m _, .inf b => if m = 0 then .nan else .inf (a != b)
  | .fin a m e, .fin b n f => .fin (a != b) (m * n) (e + f)

/-- Difference, the result of a zero difference being −0 only when both operands are −0 (R93). -/
def subVal (x y : FVal) : FVal :=
  match x, y with
  | .fin a m e, .fin b n f =>
    match addFin a m e (!b) n f with
    | .fin _ 0 q => .fin (a && b && m == 0 && n == 0) 0 q
    | v => v
  | _, _ => addVal x (negVal y)

/-- Quotient truncated far below any FP32 quantum; none where the operands have no quotient (a zero divisor, or two
infinities). -/
def divVal : FVal → FVal → Option FVal
  | .nan, _ => some .nan
  | _, .nan => some .nan
  | .inf _, .inf _ => none
  | .inf a, .fin b m _ => if m = 0 then none else some (.inf (a != b))
  | .fin a _ _, .inf b => some (.fin (a != b) 0 0)
  | .fin a m e, .fin b n f =>
    if n = 0 then none
    else
      let sh := 64 + Nat.log2 n
      some (.fin (a != b) ((m <<< sh) / n) (e - f - sh))

/-- Integer square root by bits, from bit `n` down. -/
def isqrtBits : Nat → Nat → Nat → Nat
  | 0, _, r => r
  | n + 1, x, r => let t := r + 2 ^ n; isqrtBits n x (if t * t ≤ x then t else r)

/-- Square root truncated far below any FP32 quantum; a value below zero gives NaN (R192). -/
def sqrtVal : FVal → FVal
  | .nan => .nan
  | .inf a => if a then .nan else .inf false
  | .fin a m e =>
    if m = 0 then .fin a 0 0
    else if a then .nan
    else
      let sh : Nat := 128 + (if e % 2 = 0 then 0 else 1)
      .fin false (isqrtBits 96 (m <<< sh) 0) ((e - sh) / 2)

/-- Value times 2^n. -/
def scaleVal (n : Int) : FVal → FVal
  | .fin a m e => .fin a m (e + n)
  | v => v

/-- Order of two values that are no NaN; −0 and +0 are equal. -/
def ltVal : FVal → FVal → Bool
  | .nan, _ => false
  | _, .nan => false
  | .inf a, .inf b => a && !b
  | .inf a, .fin _ _ _ => a
  | .fin _ _ _, .inf b => !b
  | .fin a m e, .fin b n f =>
    let q := min e f
    decide (alignInt a m e q < alignInt b n f q)

/-- Equality of value; false where an operand is NaN. -/
def eqVal (x y : FVal) : Bool := x != .nan && y != .nan && !ltVal x y && !ltVal y x

/-! ### Integer lanes -/

/-- Saturate to INT32. -/
def sat32 (x : Int) : Word := BitVec.ofInt 32 (clampInt (-(2 ^ 31 : Int)) (2 ^ 31 - 1) x)

/-- Right shift of the magnitude (RTZ, R93). -/
def shrRtz (x : Int) (n : Nat) : Int := if x < 0 then -((x.natAbs >>> n : Nat) : Int) else ((x.natAbs >>> n : Nat) : Int)

end Sys2Proof.Machine
end

