-- ==== Sys2Proof/Machine/Flags.lean ====
section
/-! DEFINITION. Result flag bytes (R4, R5) and the fields of tokens (R157, R158, R160). -/

namespace Sys2Proof.Machine

/-! ### The flag byte (R4) -/

def flagValid : Byte := 0x01
def flagShort : Byte := 0x02
def flagGap : Byte := 0x04
def flagWarmup : Byte := 0x08
def flagTainted : Byte := 0x10
def flagLate : Byte := 0x20
def flagStorm : Byte := 0x40
def flagMismatch : Byte := 0x80

/-- The flag `x` when `c` holds, else no flag. -/
def flagIf (c : Bool) (x : Byte) : Byte := if c then x else 0

/-- The flags that stages carry along the line path: short, gap, warm-up and tainted (R161). -/
def flagCarried : Byte := 0x1E

/-! ### Token word 0 (R157) -/

/-- Token kinds of R157. -/
def kindData : Nat := 0
def kindControl : Nat := 1
def kindMarker : Nat := 2

def Entry.kind (x : Entry) : Nat := bits64 x.w0 63 62
def Entry.epoch (x : Entry) : BitVec 2 := x.w0.extractLsb' 60 2
def Entry.fmt (x : Entry) : BitVec 5 := x.w0.extractLsb' 55 5
def Entry.r (x : Entry) : Byte := x.w0.extractLsb' 47 8
def Entry.flags (x : Entry) : Byte := x.w0.extractLsb' 39 8
def Entry.zc (x : Entry) : Bool := x.w0.getLsbD 38
/-- Number of channels (ch_m1 + 1). -/
def Entry.chans (x : Entry) : Nat := bits64 x.w0 37 32 + 1
def Entry.tokLine (x : Entry) : Word := x.w0.extractLsb' 0 32
def Entry.firstPx (x : Entry) : Nat := bits64 x.w1 63 48
def Entry.pxCount (x : Entry) : Nat := bits64 x.w1 47 32
def Entry.window (x : Entry) : Nat := bits64 x.w1 31 24
def Entry.offset (x : Entry) : Nat := bits64 x.w1 22 0
/-- Code of a control token (R160). -/
def Entry.code (x : Entry) : Nat := bits64 x.w1 63 56
/-- Value of a control token (R160). -/
def Entry.value (x : Entry) : Word := x.w1.extractLsb' 0 32

/-- Control codes of R160. -/
def codeVoid : Nat := 1
def codeSheet : Nat := 2
def codeCount : Nat := 3
def codeSelect : Nat := 4
def codeUser : Nat := 5

/-- A code that R160 lists. -/
def codeListed (c : Nat) : Bool := decide (1 ≤ c) && decide (c ≤ 5)

/-- The epoch field of word 0 (R157). -/
def epochField (e : BitVec 2) : DWord := e.setWidth 64 <<< 60

/-- The token with its epoch field replaced (R166). -/
def Entry.stamp (x : Entry) (e : BitVec 2) : Entry :=
  { x with w0 := (x.w0 &&& 0xCFFFFFFFFFFFFFFF) ||| epochField e }

/-- A control token made by Lenuk (R160): notice 0. -/
def controlToken (e : BitVec 2) (flags : Byte) (line : Word) (code : Nat) (value : Word) (t : Nat) : Entry :=
  { w0 := 0x4000000000000000 ||| epochField e ||| (flags.setWidth 64 <<< 39) ||| line.setWidth 64
    w1 := BitVec.ofNat 64 (code <<< 56) ||| value.setWidth 64
    at_ := t }

/-- The VOID of a line with flags (R160, R166). -/
def voidToken (e : BitVec 2) (flags : Byte) (line : Word) (t : Nat) : Entry :=
  controlToken e flags line codeVoid 0 t

/-- An epoch marker (R157): flags and line are 0. -/
def markerToken (e : BitVec 2) (t : Nat) : Entry :=
  { w0 := 0x8000000000000000 ||| epochField e, at_ := t }

/-- A data token (R157, R158). -/
def dataToken (e : BitVec 2) (fmt : BitVec 5) (r flags : Byte) (zc : Bool) (chans : Nat) (line : Word)
    (firstPx pxCount window offset : Nat) (t : Nat) : Entry :=
  { w0 := epochField e ||| (fmt.setWidth 64 <<< 55) ||| (r.setWidth 64 <<< 47) ||| (flags.setWidth 64 <<< 39)
      ||| (if zc then 0x4000000000 else 0) ||| BitVec.ofNat 64 (((chans - 1) % 64) <<< 32) ||| line.setWidth 64
    w1 := BitVec.ofNat 64 ((firstPx % 65536) <<< 48) ||| BitVec.ofNat 64 ((pxCount % 65536) <<< 32)
      ||| BitVec.ofNat 64 ((window % 256) <<< 24) ||| BitVec.ofNat 64 (offset % 2 ^ 23)
    at_ := t }

/-- The token with `f` ORed into its flags (R161). -/
def Entry.orFlags (x : Entry) (f : Byte) : Entry :=
  { x with w0 := x.w0 ||| (f.setWidth 64 <<< 39) }

/-- The 16 bytes of a token, word 0 first, little-endian (R87). -/
def Entry.tokenBytes (x : Entry) : List Byte := leBytes 8 x.w0.toNat ++ leBytes 8 x.w1.toNat

end Sys2Proof.Machine
end

