-- ==== Sys2Proof/Machine/Queues.lean ====
section
/-! DEFINITION. The hardware queues: fill, writing with notices and overflow, and reading with epochs, parity and
underflow (R219 to R228, R166, R169). -/

namespace Sys2Proof.Machine

/-! ### A queue's numbers (R219, R221, R222) -/

/-- Kinds of QUE_Q_CFG. -/
def qToken : Nat := 0
def qTask : Nat := 1
def qLight : Nat := 2
def qH2D : Nat := 3
def qD2H : Nat := 4
def qRecord : Nat := 5

def Queue.qkind (x : Queue) : Nat := bits x.cfg 31 28
def Queue.log2 (x : Queue) : Nat := bits x.cfg 19 16
def Queue.emptyMode (x : Queue) : Bool := x.cfg.getLsbD 8
def Queue.noticeMode (x : Queue) : Nat := bits x.cfg 5 4

/-- Entries of the queue; a token slot with depth field 0 is unused (R221). -/
def Queue.depth (x : Queue) : Nat := if x.qkind = qToken ∧ x.log2 = 0 then 0 else 2 ^ x.log2

/-- Pointers are n + 1 bits wide (R222). -/
def Queue.ptrMod (x : Queue) : Nat := 2 ^ (x.log2 + 1)

/-- Fill (R222). -/
def Queue.fill (x : Queue) : Nat := (x.wr + x.ptrMod - x.rd) % x.ptrMod

def Queue.full (x : Queue) : Bool := x.fill == x.depth
def Queue.empty (x : Queue) : Bool := x.fill == 0

/-- Does the queue live in host memory (R230)? -/
def Queue.ring (x : Queue) : Bool := x.qkind == qH2D || x.qkind == qD2H

/-- The device queue bound to local id `l` of instance i (R220). -/
def State.localQueue (s : State) (i l : Nat) : Option Nat :=
  (s.queues.find? (fun e => e.2.localId == some l && e.2.owner == i)).map (·.1)

/-- The function that owns the queue: 0 the manager, i + 1 instance i; none when unassigned. -/
def Queue.function (x : Queue) : Option Nat :=
  if x.owner < 8 then some (x.owner + 1) else if x.owner = 8 then some 0 else none

/-- `n` bytes whose value the manual leaves open. -/
def State.openBytes (s : State) (n : Nat) : List Byte × State :=
  ((List.range n).map (fun j => (Config.freeValue (s.free + j)).setWidth 8), { s with free := s.free + n })

/-- Column that holds a token queue (R219). -/
def queueCol (q : Nat) : Nat := q / 192
/-- Row that holds a token queue (R219). -/
def queueRow (q : Nat) : Nat := q % 192 / 6

/-- An entry of 64 bytes that has come from host memory: its first 16 bytes are what a core pops as a token's two words
(log entry 23). -/
def hostEntry (bs : List Byte) : Entry :=
  { w0 := BitVec.ofNat 64 (leField bs 0 8), w1 := BitVec.ofNat 64 (leField bs 8 8), bytes := bs }

/-! ### Writing (R222, R224, R228, R166) -/

/-- The notice bit of a written entry (R228). -/
def Entry.noticeBit (x : Entry) (kind : Nat) : Bool :=
  if kind = qToken then
    (if x.kind = kindData then x.w1.getLsbD 23 else if x.kind = kindControl then x.w1.getLsbD 55 else false)
  else if kind = qTask ∨ kind = qLight then false
  else (x.bytes.getD 63 0).getLsbD 0

/-- Does the write of `e`, which brought the fill to `fill`, raise a notice (R228)? -/
def Queue.notices (x : Queue) (e : Entry) : Bool :=
  if x.noticeMode = 1 then true
  else if x.noticeMode = 2 then x.fill == x.thresh.toNat
  else if x.noticeMode = 3 then e.noticeBit x.qkind
  else false

/-- A notice of queue q: an MSI-X message for the host kinds (R413), an event for the others (R228). -/
def State.notice (s : State) (q : Nat) : State :=
  let x := s.queue q
  if x.ring then
    match x.function with
    | some f => if s.follows then s else s.sendVec f (bits (s.rd (Reg.HIF_QV (q - 14336))) 7 0)
    | none => s
  else s.queueEvent q 3

/-- Bytes of the slots of a tile at and above slot `j`'s end (R221): 16 for each entry of slots 0 to j. -/
def State.slotBytes (s : State) (tileBase j : Nat) : Nat :=
  (List.range (j + 1)).foldl (fun n k => n + 16 * (s.queue (tileBase + k)).depth) 0

/-- Byte address, in its tile's SRAM, of entry n of token queue q (R221): slot 0 highest. -/
def State.slotAddr (s : State) (q n : Nat) : Nat :=
  0x4000 - s.slotBytes (q - q % 6) (q % 6) + 16 * n

/-- The linear address of a byte of tile (logical column c, row r). -/
def State.tileAddr (s : State) (c r off : Nat) : Nat := memAddr .tile (s.colPhys c) (0x4000 * r + off % 0x4000)

/-- Store an entry where the queue holds it: a token in its tile's SRAM (R221), a ring entry in host memory followed
by the write pointer (R230, R231). -/
def State.storeEntry (s : State) (q : Nat) (x : Queue) (e : Entry) : State :=
  if x.qkind = qToken then
    s.wrBytes (s.tileAddr (queueCol q) (queueRow q) (s.slotAddr q (x.wr % x.depth))) e.tokenBytes
  else if x.qkind = qD2H then
    if s.follows then s
    else
      (s.wrHost (x.base.toNat + 64 * (x.wr % x.depth)) e.bytes).wrHost (x.base.toNat + 64 * x.depth)
        (leBytes 4 ((x.wr + 1) % x.ptrMod))
  else s

/-- Write an entry into queue q, which has room. -/
def State.pushEntry (s : State) (q : Nat) (e : Entry) : State :=
  let x := s.queue q
  let s := s.storeEntry q x e
  let e := { e with ord := s.nextOrd, at_ := if x.owner < 8 then (s.inst x.owner).ticks else 0 }
  let s := { s with nextOrd := s.nextOrd + 1 }
  let y := { x with wr := (x.wr + 1) % x.ptrMod
                    entries := if x.qkind = qD2H then x.entries else x.entries ++ [e] }
  let s := s.setQueue q y
  if y.notices e then s.notice q else s

/-- The stopped stage that reads queue q, if one does (R433). -/
def State.stoppedReader (s : State) (q : Nat) : Option (Nat × Nat) :=
  let x := s.queue q
  match x.localId with
  | none => none
  | some l =>
    if x.owner < 8 then
      let y := s.inst x.owner
      (y.stageDescs.find? (fun d => d.edges.any (fun e => e.queue == l) &&
        (match y.stage d.id with | some g => g.stopTick.isSome | none => false))).map (fun d => (x.owner, d.id))
    else none

/-- A token enters queue q, stamped with the queue's epoch (R166); a stopped stage's input is discarded on arrival, and
its flags are kept (R433). The queue has room. -/
def State.pushToken (s : State) (q : Nat) (e : Entry) : State :=
  match s.stoppedReader q with
  | some (i, sid) =>
    s.modInst i (fun y => y.modStage sid (fun g => { g with discFlags := g.discFlags ||| e.flags }))
  | none => s.pushEntry q (e.stamp (s.queue q).epoch)

/-- A producer that never waits: a full queue drops the entry, counts it and logs it (R224). -/
def State.pushDrop (s : State) (q : Nat) (e : Entry) : State :=
  let x := s.queue q
  if x.full then
    let s := s.setQueue q { x with drop := satAdd x.drop 1 }
    (s.queueEvent q 0).report 0x07 0x0300 0 (if x.owner < 8 then some x.owner else none) 0 q 0
  else if x.qkind = qToken then s.pushToken q e
  else s.pushEntry q e

/-- A producer that waits while the queue is full (R224): none while it waits. -/
def State.pushWait (s : State) (q : Nat) (e : Entry) : Option State :=
  let x := s.queue q
  if x.full && (s.stoppedReader q).isNone then none
  else if x.qkind = qToken then some (s.pushToken q e)
  else some (s.pushEntry q e)

/-! ### Reading (R169, R225, R226) -/

/-- A marker, read as one. -/
def Entry.isMarker (e : Entry) : Bool := !e.bad && e.kind == kindMarker

/-- Markers at the head of a queue. -/
def Queue.leading (x : Queue) : List Entry := x.entries.takeWhile Entry.isMarker

/-- Has the marker of the queue's present epoch been read, or does it stand among the markers at the head (R167 to R169)?
A marker of an earlier change is not it. -/
def Queue.atMarker (x : Queue) : Bool := x.markerPast || x.leading.any (fun e => e.epoch == x.epoch)

/-- What R169 says of a token at the head. -/
inductive Judged where
  | deliver | old | mismatch | stale
deriving DecidableEq, Repr

/-- The table of R169. -/
def Queue.judge (x : Queue) (e : Entry) : Judged :=
  let d := x.epoch - e.epoch
  if d = 0 then .deliver
  else if d = 1 then (if x.markerPast then .mismatch else if x.discard then .old else .deliver)
  else .stale

/-- Count and log a token dropped from queue q (R169): in the row of the column that holds the queue. -/
def State.countDropped (s : State) (q : Nat) : Judged → State
  | .deliver => s
  | .old => s.count (Reg.TIL_C_TOK_OLD (queueCol q))
  | .mismatch =>
    let c := queueCol q
    let x := s.queue q
    let err : Word := BitVec.ofNat 32 (0x30000000 + 65536 * queueRow q)
    let s := ((s.count (Reg.TIL_C_TOK_STALE c)).event (Reg.TIL_C_EVT c) 1).wr (Reg.TIL_C_ERR c) err
    s.report 0x05 0x0201 0 (if x.owner < 8 then some x.owner else none) 0 c err
  | .stale =>
    let c := queueCol q
    let x := s.queue q
    let s := (s.count (Reg.TIL_C_TOK_STALE c)).event (Reg.TIL_C_EVT c) 2
    s.report 0x05 0x0202 0 (if x.owner < 8 then some x.owner else none) 0 c 0

/-- The VOID in place of a token that is dropped for its epoch (R166, R169). -/
def Entry.voided (e : Entry) (ep : BitVec 2) : Entry := { voidToken ep e.flags e.tokLine e.at_ with ord := e.ord, filler := true }

/-- Consume the markers at the head of token queue q and put a VOID in place of a head token that R169 drops, so that
the head is a token to deliver (R196). A VOID that stands for a dropped token is not counted. -/
def State.settle (s : State) (q : Nat) : State :=
  let x := s.queue q
  if x.qkind != qToken then s
  else
    let n := x.leading.length
    let past := x.atMarker
    let x := { x with entries := x.entries.drop n
                      rd := if n = 0 then x.rd else (x.rd + n) % x.ptrMod
                      markerPast := past
                      discard := x.discard && !past }
    match x.entries with
    | [] => s.setQueue q x
    | e :: es =>
      if e.bad then s.setQueue q x
      else
        match x.judge e with
        | .deliver => s.setQueue q x
        | j =>
          let t := s.setQueue q { x with entries := e.voided x.epoch :: es }
          if e.filler then t else t.countDropped q j

/-- A parity failure of the entry that queue q delivers (R226): the VOID in its place. -/
def State.parityVoid (s : State) (q : Nat) (e : Entry) : State × Entry :=
  let x := s.queue q
  let line := if e.badLine then x.lastLine + 1 else e.tokLine
  let s := s.setQueue q { x with perr := satAdd x.perr 1 }
  let s := (s.queueEvent q 2).report 0x07 0x0302 0 (if x.owner < 8 then some x.owner else none) 0 q 0
  (s, voidToken x.epoch 0 line s.now)

/-- An empty underflow-mode queue is read (R225): count, and the VOID that the reader receives. -/
def State.underflow (s : State) (q : Nat) : State × Entry :=
  let x := s.queue q
  let s := s.setQueue q { x with under := satAdd x.under 1 }
  let s := (s.queueEvent q 1).report 0x07 0x0301 0 (if x.owner < 8 then some x.owner else none) 0 q 0
  (s, voidToken x.epoch 0 (x.lastLine + 1) s.now)

/-- Line of the last token that queue q delivered. -/
def State.setLastLine (s : State) (q : Nat) (l : Word) : State := s.modQueue q (fun x => { x with lastLine := l })

/-- The entry at the head of queue q fails parity as it is read: bit j of `p` is its word j (R226). -/
def State.upsetHead (s : State) (q : Nat) (p : BitVec 4) : State :=
  if p = 0 then s
  else s.modQueue q (fun x => match x.entries with
    | [] => x
    | e :: es => { x with entries := { e with bad := true, badLine := e.badLine || p.getLsbD 0 } :: es })

/-- The head of queue q is a control token whose code R160 reserves. -/
def State.reservedHead (s : State) (q : Nat) : Bool :=
  match (s.settle q).queue q with
  | x => match x.entries with
    | e :: _ => x.qkind == qToken && !e.bad && e.kind == kindControl && !codeListed e.code
    | [] => false

/-- Read one entry of queue q; none while the reader waits (R225). -/
def State.readQueue (s : State) (q : Nat) : State × Option Entry :=
  let s := s.settle q
  let x := s.queue q
  match x.entries with
  | e :: es =>
    let s := s.setQueue q { x with entries := es, rd := (x.rd + 1) % x.ptrMod }
    let r := if e.bad then s.parityVoid q e else (s, e)
    (r.1.setLastLine q r.2.tokLine, some r.2)
  | [] =>
    if x.emptyMode then
      let r := s.underflow q
      (r.1.setLastLine q r.2.tokLine, some r.2)
    else (s, none)

/-- QWAIT on an input queue (R196, R225): true when it returns. -/
def State.waitQueue (s : State) (q : Nat) : State × Bool :=
  let s := s.settle q
  let x := s.queue q
  match x.entries with
  | _ :: _ => (s, true)
  | [] => if x.emptyMode then ((s.underflow q).1, true) else (s, false)

/-- Empty a queue at an entry boundary (R227): the read pointer takes the write pointer. -/
def State.emptyQueue (s : State) (q : Nat) : State :=
  s.modQueue q (fun x => { x with entries := [], rd := x.wr })

end Sys2Proof.Machine
end

