-- ==== Sys2Proof/Machine/Park.lean ====
section
/-! DEFINITION. What a fault does to an instance: kickstand, the stop of a stage, poison and its classes, taint, repair
and the test queue (R299, R337 to R348, R351, R361, R433). -/

namespace Sys2Proof.Machine

/-! ### Messages to the tandem partner (R367, R368) -/

/-- One 64-byte message: its bytes, filled with 0. -/
def message64 (bs : List Byte) : List Byte := (bs ++ List.replicate 64 0).take 64

/-- Send a frame of messages; the frame is kept until it is acknowledged (R367). -/
def State.tdmFrame (s : State) (ms : List (List Byte)) : State :=
  let f : LinkFrame := { seq := s.tdm.txSeq, ack := s.tdm.rxSeq, msgs := ms }
  { s with tdm := { s.tdm with txSeq := s.tdm.txSeq + 1, unacked := s.tdm.unacked ++ [f]
                               sent := f :: s.tdm.sent, lastTx := s.now } }

/-- Send one message in paired state; nothing in any other. -/
def State.tdmPost (s : State) (m : List Byte) : State :=
  if s.tdm.st = 2 then s.tdmFrame [message64 m] else s

/-- Is this device a paired lead (R369, R370)? -/
def State.leads (s : State) : Bool := s.tdm.st == 2 && s.tdm.role == 1

/-! ### Logical units of physical ones (R46) -/

/-- Logical engine served by physical engine p. -/
def State.engLogical (s : State) (p : Nat) : Option Nat := (List.range 64).find? (fun e => s.engPhys e == p)
/-- Logical column served by physical column p. -/
def State.colLogical (s : State) (p : Nat) : Option Nat := (List.range 64).find? (fun c => s.colPhys c == p)

/-- The unit that a log names (R46, R356) for a unit of the test queue or the fence list: engines, columns and their banks by
logical number; `l` is that of an engine or column already replaced. None is 0xFFFF. -/
def State.unitName (s : State) (kind unit l : Nat) : Nat :=
  let eng (p : Nat) : Nat := (s.engLogical p).getD l
  let col (p : Nat) : Nat := (s.colLogical p).getD l
  let bank (u n b : Nat) : Nat := if u < 64 then n * u + b else 0xFFFF
  match kind with
  | 0 => eng unit
  | 1 => col unit
  | 16 => bank (eng (unit / 16)) 16 (unit % 16)
  | 17 => eng unit
  | 18 => eng unit
  | 19 => bank (col (unit / 128)) 128 (unit % 128)
  | _ => unit

/-! ### Kickstand (R298, R299) -/

/-- Instance i owns queue x. -/
def Queue.ofInst (x : Queue) (i : Nat) : Bool := x.assign.getLsbD 31 && bits x.assign 27 24 == i

/-- XFR_E_STAT.busy of engine x from the contexts in use. -/
def State.busyContexts (s : State) (x : Nat) : State :=
  s.setFld (Reg.XFR_E_STAT x) 8 0 ((s.tasks.filter (fun t => t.eng == x)).length)

/-- Discard the queued transfer work of instance i, and abandon its tasks in flight, without completion tokens
(R248). Their contexts become free. -/
def State.dropTransfers (s : State) (i : Nat) : State :=
  let gone := (s.tasks.filter (fun t => t.inst == i)).map (·.eng)
  let s := { s with
    queues := SMap.mapVals {} (fun _ x =>
      if x.ofInst i && (x.qkind == qTask || x.qkind == qLight) then { x with entries := [], rd := x.wr } else x) s.queues
    tasks := s.tasks.filter (fun t => t.inst != i) }
  gone.foldl State.busyContexts s

/-- Hold the units of instance i in the partial-load state (R296): tiles and cores stop, engine command queues are
emptied. -/
def State.holdUnits (s : State) (i : Nat) : State :=
  { s with
    engines := SMap.mapVals {} (fun e x =>
      if hasBit (s.engMask i) e then { x with queue := [], epis := [], fills := [], waitTick := none } else x) s.engines
    tiles := SMap.mapVals {} (fun c x =>
      if s.ownsCol i (c / 32) then { x with running := false, waitTick := none, waitKind := 0 } else x) s.tiles
    cores := SMap.mapVals {} (fun k x =>
      if s.ownsCore i k && x.st != .idle && x.st != .stopped && x.st != .fenced then
        { x with st := .held, waitTick := none }
      else x) s.cores }

/-- A host reload of instance x is in hand (R302, R304). -/
def Inst.reloading (x : Inst) : Bool :=
  x.reload.isSome || x.stages.any (fun g =>
    (match g.armed with | some a => a.patch.isSome | none => false) ||
    (match g.change with | some a => a.patch.isSome | none => false))

/-- Does an instance fault park an instance in this state (R298)? -/
def InstState.parks : InstState → Bool
  | .loading | .held | .running | .freewheel => true
  | .unloaded | .kickstand | .resetting => false

/-- Instance i enters kickstand (R298, R299, R304); nothing happens in a state that does not park. -/
def State.kick (s : State) (i : Nat) : State :=
  let x := s.inst i
  if !x.st.parks then s
  else
    let failed := x.reloading || s.bit (Reg.INS_I_CMD i) 3
    let s := (s.dropTransfers i).holdUnits i
    let s := s.setInst i { x with st := .kickstand, load := none, reload := none, repairs := []
                                  stages := x.stages.map (fun g => { g with st := .held, armed := none, change := none
                                                                            stopTick := none, unitRepair := 0 }) }
    let s := s.event (Reg.INS_I_EVT i) 3
    if failed then (s.setFld (Reg.INS_I_CMD i) 3 3 0).event (Reg.INS_I_EVT i) 6 else s

/-- FAULT is sent while paired, unless the partner has already reported this instance's fault (R376). -/
def State.tdmFault (s : State) (i : Nat) : State :=
  if s.tdm.st = 2 then
    let s := s.tdmPost [0x0A, BitVec.ofNat 8 i, 3]
    if s.tdm.theirs.contains i then { s with tdm := { s.tdm with theirs := s.tdm.theirs.filter (· != i) } }
    else { s with tdm := { s.tdm with faults := s.tdm.faults ++ [(i, s.devTick)] } }
  else s

/-- Park instance i if its state parks, and tell the partner. -/
def State.parkInst (s : State) (i : Nat) : State :=
  if (s.inst i).st.parks then (s.kick i).tdmFault i else s

/-- Put back the commands, epilogues and fills that the engines of a stage held in state `t`: after the stop of a core they run
to completion (R201). -/
def State.keepCommands (s t : State) (d : StageDesc) : State :=
  let keep (e : Nat) (x : Engine) : Engine :=
    if hasBit d.engines e then { x with queue := (t.engine e).queue, epis := (t.engine e).epis, fills := (t.engine e).fills }
    else x
  { s with engines := SMap.mapVals {} keep s.engines }

/-- A detection of instance-fault severity (R6, R337): with no owner it is a notice and changes nothing else. -/
def State.instFault (s : State) (o : Option Nat) (src code stage unit : Nat) (detail : Word) : State :=
  match o with
  | none => s.report src code 0 none stage unit detail
  | some i => (s.report src code 3 (some i) stage unit detail).parkInst i

/-- A stage fault that has no repair path escalates (R347): FLT code 0x0022, FLT_I_EVT.no_path, kickstand. -/
def State.noPath (s : State) (i sid unit : Nat) (detail : Word) : State :=
  (s.event (Reg.FLT_I_EVT i) 3).instFault (some i) 0x0D 0x0022 sid unit detail

/-- Do writes by routers and programs reach the SRAM of a unit of instance i, of stage `d` if of one: not while the unit is in
the partial-load state, of the instance or of a reload (R172, R296), whose write enables return with the second release step. -/
def State.unitWritable (s : State) (i : Nat) (d : Option StageDesc) : Bool :=
  (s.inst i).live && (match d with
    | some d => (match (s.inst i).stage d.id with
      | some g => g.st != .held && (g.st != .reloading || decide (2 ≤ g.relStep))
      | none => true)
    | none => true)

/-- Do writes reach the SRAM of logical column c? -/
def State.tileWritable (s : State) (c : Nat) : Bool :=
  match s.colOwner c with | some i => s.unitWritable i ((s.inst i).stageOfCol c) | none => false

/-- Do writes by others reach the SRAM of core k? -/
def State.coreWritable (s : State) (k : Nat) : Bool :=
  match s.coreOwner k with | some i => s.unitWritable i ((s.inst i).stageOfCore k) | none => false

/-! ### Output edges and the VOIDs of a stopped stage (R433) -/

/-- The last output stage: the output stage of largest offset. -/
def Inst.lastOutput (x : Inst) : Option StageDesc :=
  x.stageDescs.foldl (fun b d =>
    if d.output then (match b with | some c => if c.offset ≤ d.offset then some d else b | none => some d) else b) none

/-- Device queues of the output edges of a stage: the queues of the edges it produces for, and the result queue of the
last output stage (R74, R272). -/
def State.outQueues (s : State) (i sid : Nat) : List Nat :=
  let x := s.inst i
  let ls := (x.stageDescs.flatMap (fun d => d.edges)).filterMap (fun e => if e.producer = sid then some e.queue else none)
  let ls := match x.lastOutput with
    | some d => if d.id = sid then ls ++ [s.fld (Reg.OUT_I_QUEUES i) 13 0] else ls
    | none => ls
  ls.filterMap (fun l => s.localQueue i l)

/-- Put a VOID of a line on each output edge of a stage (R433). -/
def State.sendVoids (s : State) (i sid : Nat) (line : Word) (flags : Byte) : State :=
  (s.outQueues i sid).foldl (fun s q => s.pushDrop q (voidToken 0 flags line s.now)) s

/-! ### Stage stops (R201, R433) -/

/-- Every core of a stage stops (R201); cores without a program stay idle. -/
def State.stopCores (s : State) (i : Nat) (d : StageDesc) : State :=
  { s with cores := SMap.mapVals {} (fun k x =>
      if s.ownsCore i k && hasBit d.cores k && x.st != .idle && x.st != .fenced then
        { x with st := .stopped, waitTick := none }
      else x) s.cores }

/-- Every tile of a stage's columns stops (07, the TIL_C_ERR paragraph). -/
def State.stopTiles (s : State) (d : StageDesc) : State :=
  { s with tiles := SMap.mapVals {} (fun c x =>
      if hasBit d.columns (c / 32) && x.running then { x with running := false, stopped := true, waitTick := none }
      else x) s.tiles }

/-- A stage stopped by a poisoned fetch enters fenced-repairing and awaits a host reload (R339, R347); the line in hand
goes out as a VOID (R433). -/
def State.stopForReload (s : State) (i : Nat) (d : StageDesc) : State :=
  let x := s.inst i
  match x.stage d.id with
  | none => s
  | some g =>
    let s := (s.stopCores i d).stopTiles d
    let s := s.modInst i (fun y => y.modStage d.id (fun g =>
      { g with st := .fencedRepairing, stopTick := some x.ticks, discFlags := 0, working := none }))
    match g.working with
    | some l => s.sendVoids i d.id l.line 0
    | none => s

/-! ### The test queue (R348, R351) -/

/-- Busy and queued of FLT_TEST_STAT after a change of the test queue. -/
def State.testStat (s : State) : State :=
  let a := Reg.FLT_TEST_STAT
  (s.setFld a 31 31 (if s.flt.testing.isEmpty then 0 else 1)).setFld a 22 16 s.flt.testQ.length

/-- A request enters the test queue: it joins an equal one, and a full queue of 64 drops it (R351). -/
def State.queueTest (s : State) (j : TestJob) : State :=
  let same (k : TestJob) : Bool := k.kind == j.kind && k.unit == j.unit
  if s.flt.testQ.any same || s.flt.testing.any same then s
  else if s.flt.testQ.length = 64 then s.report 0x0D 0x0014 0 none 0 (s.unitName j.kind j.unit j.logical) 0
  else { s with flt := { s.flt with testQ := s.flt.testQ ++ [j] } }.testStat

/-- Kind number of the march test of a bank of memory k; kinds 0 to 7 are those of the fence list (R353). -/
def bankKind (k : MemKind) : Nat := 16 + k.num

/-- The bank of R340 that holds byte `off` of unit p, numbered over the whole device; a bulk bank under the number that its
addresses name. -/
def bankOf (k : MemKind) (p off : Nat) : Nat :=
  match k with
  | .weight => p * 16 + off / 0x10000 % 16
  | .staging => p
  | .acc => p
  | .tile => (p * 32 + off / 0x4000) * 4 + off / 16 % 4
  | .core => p * 4 + off / 0x8000 % 4
  | .bulk => 512 * p + off / 0x40000
  | .commit => off / 0x40000

/-- The bank that holds the bytes: a bulk bank that has been remapped is its spare (R352). -/
def State.bankAt (s : State) (k : MemKind) (p off : Nat) : Nat :=
  let b := bankOf k p off
  if k = .bulk then (match SMap.find s.flt.remap b with | some n => 512 * p + n | none => b) else b

/-- Queue the march test of a bank after an uncorrectable word (R343, R348). -/
def State.marchBank (s : State) (k : MemKind) (p off : Nat) : State :=
  s.queueTest { kind := bankKind k, unit := s.bankAt k p off, cause := 0, logical := 0xFFFF, spoiled := false }

/-- An uncorrectable word in a bank under test fails that test (R351). -/
def State.spoilBank (s : State) (k : MemKind) (p off : Nat) : State :=
  { s with flt := { s.flt with testing := s.flt.testing.map (fun j =>
      if j.kind == bankKind k && j.unit == s.bankAt k p off then { j with spoiled := true } else j) } }

/-! ### Taint and repair (R343 to R347) -/

/-- Line taint (R344): FLT_I_TAINT takes M, and results up to line L + M − 1 will carry tainted. -/
def State.lineTaint (s : State) (i : Nat) : State :=
  let x := s.inst i
  match x.image with
  | none => s
  | some im =>
    let l := match x.curLine with | some l => l | none => x.lastAdmitted.getD 0
    let s := s.wr (Reg.FLT_I_TAINT i) (BitVec.ofNat 32 im.m)
    let s := s.modInst i (fun y => { y with taintFrom := l + BitVec.ofNat 32 im.m - 1 })
    s.report 0x0D 0x0031 1 (some i) 0 0xFFFF 0

/-- Mark a stage tainted until its first line start after the repair write (R343). A bulk word is held by no one stage:
it taints every stage of the instance. -/
def State.taintStage (s : State) (i sid : Nat) (k : MemKind) : State :=
  s.modInst i (fun x => { x with stages := x.stages.map (fun g =>
    if k = .bulk ∨ g.id = sid then { g with taint := true, repaired := false } else g) })

/-- Where a repair descriptor's region lies: linear address of its first byte (R77, R82). -/
def State.descBase (s : State) (i : Nat) (d : RepairDesc) : Option Nat :=
  match d.kind with
  | 0 => some (memAddr .weight (s.engPhys d.unit) d.dest)
  | 1 => some (memAddr .weight (s.engPhys d.unit) d.dest)
  | 2 => match s.window i d.unit with
    | some w => some (memAddr .bulk w.die (w.base + d.dest))
    | none => none
  | 3 => some (memAddr .tile (s.colPhys d.unit) (0x4000 * d.index + d.dest))
  | 4 => some (memAddr .core d.index d.dest)
  | _ => none

/-- The lowest-index descriptor of instance i that covers linear address `a`, with its index (R82). -/
def State.covering (s : State) (i a : Nat) : Option (Nat × RepairDesc) :=
  match (s.inst i).image with
  | none => none
  | some im =>
    (im.repairs.zipIdx.find? (fun p =>
      match s.descBase i p.1 with
      | some b => decide (b ≤ a) && decide (a < b + p.1.length)
      | none => false)).map (fun p => (p.2, p.1))

/-- Piece index of the byte at `dest` of a region that begins at `first` (R345). -/
def pieceIndex (first dest : Nat) : Nat := dest / 4096 - first / 4096

/-- A piece's first byte and length within its memory (R345). -/
def RepairDesc.piece (d : RepairDesc) (n : Nat) : Nat × Nat :=
  let lo := max d.dest (4096 * (d.dest / 4096 + n))
  let hi := min (d.dest + d.length) (4096 * (d.dest / 4096 + n + 1))
  (lo, hi - lo)

/-- A piece's offset from the region's first byte (R345, R346). -/
def RepairDesc.pieceOffset (d : RepairDesc) (n : Nat) : Nat := (d.piece n).1 - d.dest

/-- FLT_I_REPAIR shows the repair in hand and how many wait. -/
def State.repairReg (s : State) (i : Nat) : State :=
  match (s.inst i).repairs with
  | [] => s.wr (Reg.FLT_I_REPAIR i) 0
  | r :: rs => s.wr (Reg.FLT_I_REPAIR i) (BitVec.ofNat 32 (0x1000000 * r.desc + 0x10000 * rs.length + r.piece))

/-- The committed boot image that repair source 0 names (R324): lowest boot index whose image_id is this one. -/
def State.bootById (s : State) (imageId : Nat) : Option Txn :=
  s.store.txns.foldl (fun b t =>
    if t.kind = 3 ∧ t.phase = 2 ∧ leField t.payload 0x18 8 = imageId then
      (match b with | some u => if u.index ≤ t.index then b else some t | none => some t)
    else b) none

/-- The repair in hand takes its descriptor's source (R345, R346): source 0 reads the store, and source 1 asks the host; a
source 0 without an image has no path (R347). -/
def State.repairSource (s : State) (i : Nat) : State :=
  let x := s.inst i
  match x.repairs, x.image with
  | r :: rs, some im =>
    match im.repairs[r.desc]? with
    | none => s
    | some d =>
      let put (ph : Nat) : State :=
        (s.setInst i { x with repairs := { r with phase := ph, since := x.ticks } :: rs }).repairReg i
      if d.source = 0 then
        match s.bootById im.imageId with
        | some _ => put 1
        | none => s.noPath i r.stage 0xFFFF (BitVec.ofNat 32 (d.piece r.piece).1)
      else (put 2).event (Reg.FLT_I_EVT i) 1
  | _, _ => s

/-- The first waiting repair starts: FLT code 0x0020. While paired the piece is asked of the partner (R376). -/
def State.startRepair (s : State) (i : Nat) : State :=
  let x := s.inst i
  match x.repairs, x.image with
  | r :: rs, some im =>
    match im.repairs[r.desc]? with
    | none => s
    | some d =>
      let s := s.report 0x0D 0x0020 1 (some i) r.stage 0xFFFF (BitVec.ofNat 32 (d.piece r.piece).1)
      let put (ph : Nat) : State :=
        (s.setInst i { x with repairs := { r with phase := ph, since := x.ticks } :: rs }).repairReg i
      if s.tdm.st = 2 then
        (put 4).tdmPost ([0x0B, BitVec.ofNat 8 i, BitVec.ofNat 8 r.desc, 0] ++ leBytes 4 (d.pieceOffset r.piece))
      else s.repairSource i
  | _, _ => s

/-- A word of class weights or constants asks for a repair (R345): it joins the repair of its piece, waits, or, as the
seventeenth, has no path. -/
def State.askRepair (s : State) (i sid a : Nat) : State :=
  match s.covering i a with
  | none => s.noPath i sid 0xFFFF (BitVec.ofNat 32 (a % 0x10000000))
  | some (n, d) =>
    match s.descBase i d with
    | none => s
    | some b =>
      let p := pieceIndex d.dest (d.dest + (a - b))
      let x := s.inst i
      if x.repairs.any (fun r => r.desc == n && r.piece == p) then s
      else if 17 ≤ x.repairs.length then s.noPath i sid 0xFFFF (BitVec.ofNat 32 (a % 0x10000000))
      else
        let r : Repair := { desc := n, piece := p, stage := sid, phase := 0, bytes := [], since := x.ticks }
        let s := s.setInst i { x with repairs := x.repairs ++ [r] }
        if x.repairs.isEmpty then s.startRepair i else s.repairReg i

/-! ### Errors found in memories (R126, R155, R218, R341 to R343) -/

/-- Owner, stage and logical number (0xFFFF none) of byte `off` of unit p of a memory (R343). -/
def State.placeOf (s : State) (k : MemKind) (p off : Nat) : Option Nat × Nat × Nat :=
  match k with
  | .weight | .staging | .acc =>
    match s.engLogical p with
    | some e =>
      let o := s.engOwner e
      let d := match o with | some i => (s.inst i).stageOfEngine e | none => none
      (o, (d.map (·.id)).getD 0, e)
    | none => (none, 0, 0xFFFF)
  | .tile =>
    match s.colLogical p with
    | some c =>
      let o := s.colOwner c
      let d := match o with | some i => (s.inst i).stageOfCol c | none => none
      (o, (d.map (·.id)).getD 0, c)
    | none => (none, 0, 0xFFFF)
  | .core =>
    let o := s.coreOwner p
    let d := match o with | some i => (s.inst i).stageOfCore p | none => none
    (o, (d.map (·.id)).getD 0, p)
  | .bulk => (s.bulkOwner p off, 0, bankOf .bulk p off)
  | .commit => (none, 0, bankOf .commit p off)

/-- Source and code of the report of an error found in a memory: corrected, or uncorrectable (R357). -/
def errSource (k : MemKind) (ue : Bool) : Nat × Nat :=
  match k with
  | .weight | .staging | .acc => (0x04, if ue then 0x0204 else 0x0203)
  | .tile => (0x05, if ue then 0x0205 else 0x0204)
  | .core => (0x06, if ue then 0x0204 else 0x0203)
  | .bulk | .commit => (0x0D, if ue then 0x0002 else 0x0001)

/-- A single-bit error of unit p is corrected and counted, and logged as a notice. -/
def State.corrected (s : State) (k : MemKind) (p off : Nat) : State :=
  let pl := s.placeOf k p off
  let u := pl.2.2
  let s := match k with
    | .weight | .staging | .acc =>
      if u < 64 then (s.count (Reg.ENG_E_CE u)).event (Reg.ENG_E_EVT u) 3 else s
    | .tile => if u < 64 then (s.count (Reg.TIL_C_CE u)).event (Reg.TIL_C_EVT u) 4 else s
    | .core => (s.count (Reg.SVC_K_CE p)).event (Reg.SVC_K_EVT p) 3
    | .bulk | .commit => s.count Reg.FLT_BULK_CE
  s.report (errSource k false).1 (errSource k false).2 0 pl.1 pl.2.1 u (BitVec.ofNat 32 off)

/-- Counters, event and address register of an uncorrectable word (R126, R155, R218, 14). -/
def State.recordUe (s : State) (k : MemKind) (p off u : Nat) : State :=
  match k with
  | .weight | .staging | .acc =>
    if u < 64 then
      ((s.count (Reg.ENG_E_UE u)).event (Reg.ENG_E_EVT u) 4).wr (Reg.ENG_E_POISON u)
        (BitVec.ofNat 32 (0x40000000 * k.num + off % 0x100000))
    else s
  | .tile =>
    if u < 64 then
      ((s.count (Reg.TIL_C_UE u)).event (Reg.TIL_C_EVT u) 5).wr (Reg.TIL_C_POISON u)
        (BitVec.ofNat 32 (0x8000000 * (off / 0x4000) + off % 0x4000))
    else s
  | .core =>
    ((s.count (Reg.SVC_K_UE p)).event (Reg.SVC_K_EVT p) 4).wr (Reg.SVC_K_POISON p) (BitVec.ofNat 32 off)
  | .bulk =>
    (s.count Reg.FLT_BULK_UE).wr Reg.FLT_BULK_POISON (BitVec.ofNat 32 (0x40000000 * p + off))
  | .commit => (s.count Reg.FLT_BULK_UE).wr Reg.FLT_BULK_POISON (BitVec.ofNat 32 off)

/-- Which transaction holds a word of the commit buffer: the manual does not place transactions in the buffer, so a
free value chooses one of them, or none. -/
def State.pickTxn (s : State) : Option Txn × State :=
  let r := s.draw
  let ts := s.store.txns.filter (fun t => decide (t.phase < 2))
  (ts[r.1.toNat % (ts.length + 1)]?, r.2)

/-- The transaction carries the uncorrectable flag once committed (R339, R343). -/
def State.markTxn (s : State) (n : Nat) : State :=
  { s with store := { s.store with txns := s.store.txns.map (fun t =>
      if t.num == n then { t with uncorrectable := true } else t) } }

/-- A newly poisoned word at byte `off` of unit p: the table of R343. The bank's march test waits for the owner's repair writes
(`State.repairFirst`). -/
def State.discover (s : State) (k : MemKind) (p off : Nat) : State :=
  let a := memAddr k p off
  let pl := s.placeOf k p off
  let u := pl.2.2
  let s := { s with poison := insKey a s.poison, upsets := SMap.del a s.upsets }
  let s := (s.recordUe k p off u).spoilBank k p off
  let src := errSource k true
  let d : Word := BitVec.ofNat 32 off
  match k with
  | .commit =>
    let r := s.pickTxn
    match r.1 with
    | some t =>
      ((r.2.markTxn t.num).report src.1 src.2 0 (if t.inst < 8 then some t.inst else none) 0 u d).marchBank k p off
    | none => (r.2.report src.1 src.2 0 none 0 u d).marchBank k p off
  | _ =>
    match pl.1 with
    | none => (s.report src.1 src.2 0 none 0 u d).marchBank k p off
    | some i =>
      let s := s.report src.1 src.2 1 (some i) pl.2.1 u d
      if k = .weight ∨ (s.covering i a).isSome then ((s.taintStage i pl.2.1 k).askRepair i pl.2.1 a).marchBank k p off
      else (s.lineTaint i).marchBank k p off

/-- The 8-byte words that hold bytes `a .. a + n`. -/
def wordsOf (a n : Nat) : List Nat :=
  if n = 0 then [] else (List.range ((a + n - 1) / 8 - a / 8 + 1)).map (fun j => (a / 8 + j) * 8)

/-- Unit and byte offset of a linear address. -/
def unitOf (a : Nat) : Nat × Nat := (a / 0x10000000 % 256, a % 0x10000000)

/-- Reading one word meets its upsets: one flipped bit is corrected and counted, two poison the word. -/
def State.meetUpset (k : MemKind) (s : State) (w : Nat) : State :=
  match SMap.find s.upsets w with
  | none => s
  | some n =>
    let u := unitOf w
    if n ≤ 1 then s.corrected k u.1 u.2 else s.discover k u.1 u.2

/-- Read bytes `a .. a + n` of a SECDED memory: errors are met, and the second component says whether a poisoned word
was read (R126, R155, R218, R339). -/
def State.secded (s : State) (k : MemKind) (a n : Nat) : State × Bool :=
  let s := (wordsOf a n).foldl (State.meetUpset k) s
  (s, s.poisoned a n)

/-! ### What fetch and transfers see of a core's SRAM -/

/-- The byte of core k's SRAM that fetch and transfers see: the one before a store that no FENCE with bit 0 has followed (R187,
R251). -/
def State.coreByte (s : State) (k a : Nat) : Byte :=
  match SMap.find (s.core k).unseen a with | some b => b | none => s.rdByte (memAddr .core k a)

/-- A write from outside core k into its SRAM stands whatever the core has stored. -/
def State.coreSeen (s : State) (k a n : Nat) : State :=
  if (s.core k).unseen.isEmpty then s else s.modCore k (fun x => { x with unseen := SMap.dropRange a (a + n) x.unseen })

/-! ### SECDED of the token queues (R155, R221, R226) -/

/-- Taint of the line in hand in the stage that reads token queue q (R339). -/
def State.readerTaint (s : State) (q : Nat) : State :=
  let x := s.queue q
  match x.localId with
  | none => s
  | some l =>
    if x.owner < 8 then
      match (s.inst x.owner).stageDescs.find? (fun d => d.edges.any (fun e => e.queue == l)) with
      | some d => s.modInst x.owner (fun y => y.modStage d.id (fun g => { g with lineTaint := true }))
      | none => s
    else s

/-- The head of a token queue is about to be read: its two words in tile SRAM meet their errors (R155). A word that cannot be
corrected is delivered as stored and taints the reader's line (R339), or fails the parity of R226: which of the two, an open
choice of the flipped bits, a free value says. -/
def State.eccHead (s : State) (q : Nat) : State :=
  let s := s.settle q
  let x := s.queue q
  match x.entries with
  | [] => s
  | e :: es =>
    if x.qkind != qToken || x.depth == 0 then s
    else
      let a := s.tileAddr (queueCol q) (queueRow q) (s.slotAddr q (x.rd % x.depth))
      let r := s.secded .tile a 16
      if !r.2 then r.1
      else
        let f := r.1.draw
        if f.1.getLsbD 0 then
          f.2.setQueue q { f.2.queue q with entries := { e with bad := true, badLine := e.badLine || s.poisoned a 4 || f.1.getLsbD 1 } :: es }
        else f.2.readerTaint q

end Sys2Proof.Machine
end

