-- ==== Sys2Proof/Machine/Xfer.lean ====
section
/-! DEFINITION. Transfer tasks and light requests: address programs, spaces, DEP marks, aborts, poison and completion
tokens (R229, R232 to R244, R249). -/

namespace Sys2Proof.Machine

/-! ### Tags (R249) -/

/-- Tags that instance i holds: its queued and active tasks and light requests, engine commands and fills. -/
def State.tagsHeld (s : State) (i : Nat) : Nat :=
  (s.queues.foldl (fun n e =>
    if e.2.ofInst i && (e.2.qkind == qTask || e.2.qkind == qLight) then n + e.2.entries.length else n) 0)
  + (s.tasks.filter (fun t => t.inst == i)).length
  + (s.engines.foldl (fun n e =>
    if hasBit (s.engMask i) e.1 then n + e.2.queue.length + e.2.epis.length + e.2.fills.length else n) 0)

/-- Is a tag of instance i free? -/
def State.tagFree (s : State) (i : Nat) : Bool := decide (s.tagsHeld i < s.fld (Reg.INS_I_TAGS i) 18 0)

/-! ### Completion tokens and aborts (R229, R239) -/

/-- Post a completion token, or the VOID of an abort, on the queue with local id `l` of instance i. -/
def State.postToken (s : State) (i l : Nat) (e : Entry) : State :=
  match s.localQueue i l with
  | some q => s.pushDrop q e
  | none => s

/-- Record an abort of a task, light request, LOADW or EFILL of device queue q (R239); the severity is a notice for a
completion error or a resetting instance, else an instance fault (R337). -/
def State.recordAbort (s : State) (i q prog cause beat : Nat) : State :=
  let at_ : Word := BitVec.ofNat 32 (0x10000000 * cause + beat % 0x10000000)
  let l := ((s.queue q).localId).getD 0
  let s := (s.count (Reg.XFR_I_ABORTS i)).wr (Reg.XFR_I_ERR_Q i) (BitVec.ofNat 32 (0x40000 * l + prog % 0x10000))
  let s := (s.wr (Reg.XFR_I_ERR_AT i) at_).event (Reg.XFR_I_EVT i) 0
  if cause = 6 ∨ cause = 7 then s.report 0x08 0x0100 0 (some i) 0 q at_
  else s.instFault (some i) 0x08 0x0100 0 q at_

/-! ### Spaces (R234) -/

/-- A byte that one side of a task addresses. -/
inductive Loc where
  | mem (k : MemKind) (a : Nat)
  | host (a : Nat)
  | record (q : Nat)
deriving DecidableEq, Repr

/-- A byte of a window of instance i; cause 1 outside it or without the access (R73, R293). -/
def State.locWindow (s : State) (i w : Nat) (off : Int) (write : Bool) : Except Nat Loc :=
  match s.window i w with
  | none => .error 1
  | some x =>
    if off < 0 ∨ (x.size : Int) ≤ off then .error 1
    else if !x.access.testBit (if write then 1 else 0) then .error 1
    else .ok (.mem .bulk (memAddr .bulk x.die (x.base + off.toNat)))

/-- A byte of the tile address space (R234). -/
def State.locTile (s : State) (i : Nat) (a : Int) : Except Nat Loc :=
  if a < 0 then .error 1
  else
    let n := a.toNat
    let c := n / 0x80000
    if !s.ownsCol i c then .error 1
    else .ok (.mem .tile (memAddr .tile (s.colPhys c) (n % 0x80000)))

/-- A byte of the core address space (R234). -/
def State.locCore (s : State) (i : Nat) (a : Int) : Except Nat Loc :=
  if a < 0 then .error 1
  else
    let n := a.toNat
    if 128 ≤ n / 0x20000 ∨ !s.ownsCore i (n / 0x20000) then .error 1
    else .ok (.mem .core (memAddr .core (n / 0x20000) (n % 0x20000)))

/-- The byte at offset `u` of a space descriptor (R233, R234). -/
def State.locOf (s : State) (i : Nat) (d : DWord) (u : Int) (write : Bool) : Except Nat Loc :=
  match bits64 d 63 60 with
  | 0 => s.locWindow i (bits64 d 59 52) (bits64 d 51 20 + u) write
  | 1 => s.locTile i (bits64 d 24 0 + u)
  | 2 => s.locCore i (bits64 d 23 0 + u)
  | 3 => if (bits64 d 59 0 : Int) + u < 0 then .error 1 else .ok (.host ((bits64 d 59 0 : Int) + u).toNat)
  | 4 =>
    if !write then .error 2
    else
      match s.localQueue i (bits64 d 13 0) with
      | some q => if (s.queue q).qkind = qRecord then .ok (.record q) else .error 1
      | none => .error 1
  | _ => .error 2

/-! ### Reading and writing bytes of a stream -/

/-- Read one byte: its value and whether its word is poisoned; an absent host byte is a completion error (6). -/
def State.getByte (s : State) : Loc → Except Nat (State × Byte × Bool)
  | .mem k a =>
    let r := s.secded k a 1
    .ok (r.1, if k = .core then r.1.coreByte (unitOf a).1 (unitOf a).2 else r.1.rdByte a, r.2)
  | .host a => match s.hostByte a with
    | some b => .ok (s, b, false)
    | none => .error 6
  | .record _ => .error 2

/-- Does a write reach a byte: not in the SRAM of a tile or core that is held or reloading (R172, R296). -/
def State.locWritable (s : State) : Loc → Bool
  | .mem .tile a => (match (List.range 64).find? (fun c => s.colPhys c == (unitOf a).1) with | some c => s.tileWritable c | none => true)
  | .mem .core a => s.coreWritable (unitOf a).1
  | _ => true

/-- The entry of record ring q that its bytes so far make: one write of 64 bytes, which carries the mark of a poisoned word
(R230, R240). -/
def State.pushPart (s : State) (q : Nat) (bs : List Byte) : State :=
  let x := s.queue q
  (s.setQueue q { x with part := [], partBad := false }).pushDrop q { bytes := bs, carried := x.partBad }

/-- A record ring whose last entry a task leaves short: its other bytes are open. -/
def State.endPart (s : State) (q : Nat) : State :=
  let x := s.queue q
  if x.part.isEmpty then s
  else
    let r := s.openBytes (64 - x.part.length)
    r.2.pushPart q (x.part ++ r.1)

/-- Write one byte of a poisoned word or a good one; a follower writes nothing to host memory (R370). -/
def State.putByte (s : State) (l : Loc) (b : Byte) (poison : Bool) : State :=
  match l with
  | .mem k a => (if k = .core then s.coreSeen (unitOf a).1 (unitOf a).2 1 else s).wrByte a b
  | .host a => if s.follows then s else s.wrHost a [b]
  | .record q =>
    let x := s.queue q
    let bs := x.part ++ [b]
    let s := s.setQueue q { x with part := bs, partBad := x.partBad || poison }
    if 64 ≤ bs.length then s.pushPart q bs else s

/-- After a run: words of SECDED memory written whole with good data lose their mark, words that took poisoned bytes
gain one (R338, R240). `ws` are the written addresses with their poison. -/
def State.markWords (s : State) (ws : List (Nat × Bool)) : State :=
  let words := (ws.map (fun w => w.1 / 8 * 8)).eraseDups
  words.foldl (fun s w =>
    let mine := ws.filter (fun x => x.1 / 8 * 8 == w)
    if mine.any (·.2) then { s with poison := insKey w s.poison, upsets := SMap.del w s.upsets }
    else if 8 ≤ mine.length then { s with poison := delKey w s.poison, upsets := SMap.del w s.upsets }
    else s) s

/-- What copying a stream has come to: the state, the written words, poisoned words met, whether one of them went where no
mark can stand, the source beats touched, the beats in hand of both sides, and the cause that stopped it. -/
structure Copy where
  s : State
  writes : List (Nat × Bool) := []
  poison : List Nat := []
  lost : Bool := false
  beats : Nat := 0
  srcBeat : Option Int := none
  dstBeat : Option Int := none
  cause : Option Nat := none

/-- The 64-byte unit of a space descriptor that holds offset `u` (R237). -/
def beatOf (d : DWord) (u : Int) : Int :=
  let o : Int := match bits64 d 63 60 with
    | 0 => bits64 d 51 20
    | 1 => bits64 d 24 0
    | 2 => bits64 d 23 0
    | 3 => bits64 d 59 0
    | _ => 0
  (o + u) / 64

/-- The first cause among the bytes of the beat that begins with the first of `us`, on the source side or the other. -/
def State.beatCause (s : State) (i : Nat) (d : DWord) (write : Bool) : List Int → Option Nat
  | [] => none
  | u :: us =>
    ((u :: us).takeWhile (fun v => beatOf d v == beatOf d u)).findSome? (fun v =>
      match s.locOf i d v write with
      | .error e => some e
      | .ok (.host a) => if write || (s.hostByte a).isSome then none else some 6
      | .ok _ => none)

/-- Copy one byte with its beat on both sides: no byte of a beat that meets a cause moves (R239). -/
def Copy.move (c : Copy) (i : Nat) (src dst : DWord) (u v : Int) : Copy :=
  match c.s.locOf i src u false, c.s.locOf i dst v true with
  | .error e, _ => { c with cause := some e }
  | _, .error e => { c with cause := some e }
  | .ok a, .ok b =>
    match c.s.getByte a with
    | .error e => { c with cause := some e }
    | .ok (s, x, p) =>
      if s.locWritable b then
        { c with s := s.putByte b x p
                 writes := match b with | .mem _ w => (w, p) :: c.writes | _ => c.writes
                 poison := if p then (match a with | .mem _ w => insKey (w / 8 * 8) c.poison | _ => c.poison) else c.poison
                 lost := c.lost || (p && (match b with | .mem _ _ => false | _ => true)) }
      else { c with s := s }

/-- Copy the bytes of a run, given by their offsets on both sides. -/
def Copy.bytes (i : Nat) (src dst : DWord) : List (Int × Int) → Copy → Copy
  | [], c => c
  | (u, v) :: xs, c =>
    match c.cause with
    | some _ => c
    | none =>
      let newSrc := c.srcBeat != some (beatOf src u)
      let newDst := c.dstBeat != some (beatOf dst v)
      match if newSrc then c.s.beatCause i src false (u :: xs.map (·.1)) else none with
      | some e => { c with cause := some e }
      | none =>
        let c := { c with beats := if newSrc then c.beats + 1 else c.beats, srcBeat := some (beatOf src u) }
        match if newDst then c.s.beatCause i dst true (v :: xs.map (·.2)) else none with
        | some e => { c with cause := some e, beats := c.beats - 1 }
        | none => Copy.bytes i src dst xs ({ c with dstBeat := some (beatOf dst v) }.move i src dst u v)

/-- Copy one run: it touches its beats anew (R237). -/
def Copy.pieces (c : Copy) (i : Nat) (src dst : DWord) (xs : List (Int × Int)) : Copy :=
  match c.cause with
  | some _ => c
  | none =>
    let c := Copy.bytes i src dst xs { c with srcBeat := none, dstBeat := none }
    { c with s := c.s.markWords c.writes, writes := [] }

/-! ### Address programs (R232, R233) -/

/-- Signed 32-bit field of an address program. -/
def sField (p : List Byte) (off : Nat) : Int := (BitVec.ofNat 32 (leField p off 4)).toInt

def progLevels (p : List Byte) : Nat := leField p 3 1
def progRun (p : List Byte) : Nat := leField p 4 4
def progNotify (p : List Byte) : Bool := (leField p 2 1).testBit 0
def progWaitPrev (p : List Byte) : Bool := (leField p 2 1).testBit 1
def progNotifyQ (p : List Byte) : Nat := leField p 8 2
def progUser (p : List Byte) : Word := BitVec.ofNat 32 (leField p 0x10 4)
def progSrc (p : List Byte) : DWord := BitVec.ofNat 64 (leField p 0x18 8)
def progDst (p : List Byte) : DWord := BitVec.ofNat 64 (leField p 0x20 8)
/-- Iterations of level l. -/
def progCount (p : List Byte) (l : Nat) : Nat := if l < progLevels p then leField p (0x40 + 10 * l) 2 + 1 else 1

/-- Runs of the program: the product of its counts. -/
def progRuns (p : List Byte) : Nat := progCount p 0 * progCount p 1 * progCount p 2 * progCount p 3

/-- Task length (R233). -/
def progLength (p : List Byte) : Nat := progRun p * progRuns p

/-- Iteration index of level l at run n, level 0 fastest (R236). -/
def iterAt (p : List Byte) (n l : Nat) : Nat :=
  n / ((List.range l).foldl (fun t j => t * progCount p j) 1) % progCount p l

/-- The reserved fields of an address program are 0, and its levels and run are in range (R232). -/
def progFieldsOk (p : List Byte) : Bool :=
  decide (leField p 2 1 < 4) && decide (1 ≤ progLevels p) && decide (progLevels p ≤ 4)
  && decide (1 ≤ progRun p) && decide (progRun p ≤ 65536)
  && leField p 0x0E 2 == 0 && leField p 0x14 4 == 0 && leField p 0x68 24 == 0
  && (List.range 4).all (fun l => decide (l < progLevels p) || leField p (0x40 + 10 * l) 10 == 0)
  && (bits64 (progSrc p) 63 60 != 0 || bits64 (progSrc p) 19 0 == 0)
  && (bits64 (progDst p) 63 60 != 0 || bits64 (progDst p) 19 0 == 0)

/-- Offset of one side's byte b in run n, before the origin (R233). -/
def sideOffset (p : List Byte) (k : BitVec 16) (start wrap kOff strideOff n b : Nat) : Int :=
  let u : Int := leField p start 4 + k.toNat * sField p kOff +
    ((List.range (progLevels p)).foldl (fun t l => t + iterAt p n l * sField p (strideOff + 10 * l)) 0) + b
  let w := leField p wrap 4
  if w = 0 then u else u % (64 * w : Nat)

def srcOffset (p : List Byte) (k : BitVec 16) (n b : Nat) : Int := sideOffset p k 0x28 0x30 0x38 0x42 n b
def dstOffset (p : List Byte) (k : BitVec 16) (n b : Nat) : Int := sideOffset p k 0x2C 0x34 0x3C 0x46 n b

/-- The cause found before the first beat (R239): a poisoned entry, a reserved field, an unknown id, a disallowed space,
a length above max_bytes. -/
def State.taskCause (x : Queue) (e : Entry) : Option Nat :=
  let p := e.bytes
  if e.bad then some 8
  else if !progFieldsOk p then some 5
  else if leField p 0 2 ≠ e.w0.toNat % 65536 then some 4
  else if 4 ≤ bits64 (progSrc p) 63 60 ∨ 5 ≤ bits64 (progDst p) 63 60 then some 2
  else if x.maxb.toNat < progLength p then some 3
  else none

/-- Does DEP mark `m` stand before run n (R236)? -/
def depAt (p : List Byte) (m n : Nat) : Bool :=
  let l := m / 0x1000 % 4
  let i := iterAt p n l
  m.testBit 15 && decide (0 < i) && i % (m % 0x1000 + 1) == 0 &&
    (List.range l).all (fun j => iterAt p n j == 0)

/-- Is an earlier task of the same queue incomplete? -/
def State.earlierTask (s : State) (t : Task) : Bool := s.tasks.any (fun u => u.q == t.q && decide (u.id < t.id))

/-- Is the source side held at run n: by wait_prev, or by a kind 1 mark, while an earlier task of the queue is
incomplete (R236)? Every write that the task issued before a kind 0 mark is acknowledged in the model. -/
def State.depHolds (s : State) (t : Task) (n : Nat) : Bool :=
  let d0 := leField t.prog 0x0A 2
  let d1 := leField t.prog 0x0C 2
  let kind1 := (decide (n = 0) && progWaitPrev t.prog) || (d0.testBit 14 && depAt t.prog d0 n)
    || (d1.testBit 14 && depAt t.prog d1 n)
  kind1 && s.earlierTask t

/-- Copy one run. -/
def Copy.run (c : Copy) (t : Task) (n : Nat) : Copy :=
  c.pieces t.inst (progSrc t.prog) (progDst t.prog)
    ((List.range (progRun t.prog)).map (fun b => (srcOffset t.prog t.k n b, dstOffset t.prog t.k n b)))

/-- Copy runs from n on, at most `fuel` of them: to the end, to a mark that holds, or to a cause. -/
def State.copyRuns (t : Task) : Nat → Nat → Copy → Copy × Nat
  | 0, n, c => (c, n)
  | fuel + 1, n, c =>
    match c.cause with
    | some _ => (c, n)
    | none =>
      if c.s.depHolds t n then (c, n)
      else State.copyRuns t fuel (n + 1) (c.run t n)

/-- Poisoned words carried (R240). -/
def State.carried (s : State) (i n : Nat) : State :=
  if n = 0 then s else (s.countBy (Reg.XFR_I_POISON i) n).event (Reg.XFR_I_EVT i) 1

/-- Poisoned words that a copy has carried; where one went into host memory or the record path, which hold no mark, a notice
records it (R240). -/
def Copy.settle (c : Copy) (i q : Nat) : State :=
  let s := c.s.carried i c.poison.length
  if c.lost then s.report 0x08 0x0101 0 (some i) 0 q 0 else s

/-- Beats moved by transfer engine x. -/
def State.countBeats (s : State) (x n : Nat) : State :=
  s.wr64 (Reg.XFR_E_BEATS_LO x) (Reg.XFR_E_BEATS_HI x)
    (s.rd64 (Reg.XFR_E_BEATS_LO x) (Reg.XFR_E_BEATS_HI x) + n)

/-- Source words of a copy that are poisoned: carried and counted (R240). -/
def State.poisonIn (s : State) (a n : Nat) : Nat :=
  (s.poison.filter (fun w => decide (w < a + n) && decide (a < w + 8))).length

/-- Remove a task from its context. -/
def State.dropTask (s : State) (t : Task) : State :=
  { s with tasks := s.tasks.filter (fun u => u.id != t.id) }.busyContexts t.eng

/-- The record ring that a task writes has no more of it to come: its last entry enters, whole or short (R230). -/
def State.endRing (s : State) (t : Task) : State :=
  match s.locOf t.inst (progDst t.prog) 0 true with
  | .ok (.record q) => s.endPart q
  | _ => s

/-- Run task t on from its position: it ends done, held at a mark, or aborted with a VOID (R236 to R240). -/
def State.runTask (s : State) (t : Task) : State :=
  let total := progRuns t.prog
  let r := State.copyRuns t (total - t.pos) t.pos { s := s }
  let c := r.1
  let s := (c.settle t.inst t.q).countBeats t.eng c.beats
  let s := if c.cause.isSome || decide (total ≤ r.2) then s.endRing t else s
  match c.cause with
  | some e =>
    let s := s.dropTask t
    let s := if progNotify t.prog then s.postToken t.inst (progNotifyQ t.prog) (voidToken 0 0 t.line s.now) else s
    s.recordAbort t.inst t.q (leField t.prog 0 2) e (t.beats + c.beats)
  | none =>
    let u := { t with pos := r.2, marked := decide (r.2 < total), done := decide (total ≤ r.2), beats := t.beats + c.beats }
    { s with tasks := s.tasks.map (fun v => if v.id == t.id then u else v) }

/-! ### Starting and completing (R238, R243, R244) -/

/-- Tasks active under queue q: tasks in contexts. -/
def State.activeTasks (s : State) (q : Nat) : Nat := (s.tasks.filter (fun t => t.q == q)).length

/-- A context of the queue's home link is free, and the queue is below its cap (R243, R244). -/
def State.mayStart (s : State) (q : Nat) : Bool :=
  let x := s.queue q
  let link := bits x.cap 17 16
  s.bit Reg.XFR_CTRL 0 && decide (s.activeTasks q < bits x.cap 15 0)
  && decide ((s.tasks.filter (fun t => t.eng / 4 == link)).length < 1024)

/-- Is the task at the head of queue q the oldest of those that wait for a context of its link (R243)? -/
def State.firstWaiting (s : State) (q : Nat) : Bool :=
  let x := s.queue q
  match x.entries with
  | [] => false
  | e :: _ => s.queues.all (fun y =>
      y.1 == q || y.2.qkind != qTask || bits y.2.cap 17 16 != bits x.cap 17 16 || !s.mayStart y.1 ||
      (match y.2.entries with | f :: _ => decide (e.ord ≤ f.ord) | [] => true))

/-- A transfer engine of the link with a free context; the manual does not say which of the four, so a free value
chooses. -/
def State.pickEngine (s : State) (link : Nat) : Nat × State :=
  let r := s.draw
  let free := ((List.range 4).map (fun j => 4 * link + j)).filter
    (fun x => decide ((s.tasks.filter (fun t => t.eng == x)).length < 256))
  (free.getD (r.1.toNat % (max free.length 1)) (4 * link), r.2)

/-- The transfer queue that a reload of instance i reads against (R171, R302, R303). DESIGN CHOICE (log entry 71): a local id that
names no task or light queue of the instance counts against none. -/
def State.reloadQueue (s : State) (i l : Nat) : Option Nat :=
  match s.localQueue i l with
  | some q => if (s.queue q).qkind == qTask || (s.queue q).qkind == qLight then some q else none
  | none => none

/-- May the transfers of a reload run now (R244)? -/
def State.reloadReady (s : State) (i l : Nat) : Bool :=
  match s.reloadQueue i l with | some q => s.mayStart q | none => true

/-- A reload moves the bytes `a .. a + n` of one side's memory, of which `k` words are poisoned, by an engine of the home link of
its transfer queue (R240, R243). -/
def State.reloadMove (s : State) (i l a n k : Nat) : State :=
  let s := s.carried i k
  match s.reloadQueue i l with
  | some q =>
    let g := s.pickEngine (bits (s.queue q).cap 17 16)
    g.2.countBeats g.1 (ceilDiv (a % 64 + n) 64)
  | none => s

/-- A transfer entry of queue q fails parity (R226): counted and logged. -/
def State.badEntry (s : State) (q : Nat) : State :=
  let x := s.queue q
  ((s.modQueue q (fun y => { y with perr := satAdd y.perr 1 })).queueEvent q 2).report 0x07 0x0302 0
    (if x.owner < 8 then some x.owner else none) 0 q 0

/-- TASK_START: the oldest task of transfer queue q starts when a context is free, no task of its link has waited longer, and
its cap allows (R243, R244); it aborts before its first beat when a check fails (R239), as for an entry that fails parity (`bad`,
R226), and its VOID goes to the queue that its entry names. -/
def execTaskStart (q : Nat) (bad : Bool) (s : State) : Res :=
  let x := s.queue q
  match x.entries with
  | [] => .next s
  | e :: es =>
    if x.qkind != qTask || !s.mayStart q || !s.firstWaiting q || !decide (x.owner < 8) then .next s
    else
      let i := x.owner
      let s := s.setQueue q { x with entries := es, rd := (x.rd + 1) % x.ptrMod }
      let e := { e with bad := e.bad || bad }
      match State.taskCause x e with
      | some c =>
        let s := if e.bad then s.badEntry q else s
        let s := if progNotify e.bytes then
            s.postToken i (progNotifyQ e.bytes) (voidToken 0 0 e.line s.now) else s
        .next (s.recordAbort i q e.w0.toNat c 0)
      | none =>
        let g := s.pickEngine (bits x.cap 17 16)
        let t : Task := { id := s.nextTask, q := q, inst := i, core := e.core, eng := g.1, prog := e.bytes, k := e.k,
                          line := e.line, pos := 0, marked := false, done := false }
        let s := { g.2 with tasks := g.2.tasks ++ [t], nextTask := g.2.nextTask + 1 }
        .next ((s.busyContexts t.eng).runTask t)

/-- DEP_MARK: the source side of task x resumes once the mark's condition holds (R236). -/
def execDepMark (x : Nat) (s : State) : Res :=
  match s.tasks.find? (fun t => t.id == x) with
  | none => .next s
  | some t => if t.marked && !s.depHolds t t.pos then .next (s.runTask t) else .next s

/-- TASK_COMPLETE: the last write of task x is acknowledged and its completion token posted (R229, R238). -/
def execTaskComplete (x : Nat) (s : State) : Res :=
  match s.tasks.find? (fun t => t.id == x) with
  | none => .next s
  | some t =>
    if !t.done then .next s
    else
      let s := (s.dropTask t).count (Reg.XFR_I_TASKS t.inst)
      .next (if progNotify t.prog then
        s.postToken t.inst (progNotifyQ t.prog) (controlToken 0 0 t.line codeUser (progUser t.prog) s.now)
      else s)

/-! ### The light path (R241, R242) -/

/-- The space descriptor of a light request's far side. -/
def lightFar (w0 w1 : DWord) : DWord :=
  match bits64 w0 59 58 with
  | 0 => BitVec.ofNat 64 (2 ^ 52 * bits64 w1 63 56 + 2 ^ 20 * bits64 w1 55 24)
  | 1 => BitVec.ofNat 64 (2 ^ 60 + bits64 w1 24 0)
  | _ => BitVec.ofNat 64 (3 * 2 ^ 60 + bits64 w1 59 0)

/-- Byte address on the far side, for the boundary rule. -/
def lightOffset (w0 w1 : DWord) : Nat :=
  match bits64 w0 59 58 with
  | 0 => bits64 w1 55 24
  | 1 => bits64 w1 24 0
  | _ => bits64 w1 59 0

/-- The cause found before the first beat of a light request. -/
def State.lightCause (x : Queue) (e : Entry) : Option Nat :=
  let op := bits64 e.w0 63 60
  let n := bits64 e.w0 57 52 + 1
  if e.bad then some 8
  else if bits64 e.w0 20 0 ≠ 0 ∨ (op ≠ 1 ∧ op ≠ 2) then some 5
  else if bits64 e.w0 59 58 = 2 then some 2
  else if x.maxb.toNat < n then some 3
  else if 64 < lightOffset e.w0 e.w1 % 64 + n then some 5
  else none

/-- LIGHT_COMPLETE: the oldest light request of queue q moves its bytes, completes and posts its token, or aborts
(R241, R242); its entry may fail parity (`bad`, R226). -/
def execLightComplete (h : Head) (s : State) : Res :=
  let q := h.q
  let x := s.queue q
  match x.entries with
  | [] => .next s
  | e :: es =>
    if x.qkind != qLight || !decide (x.owner < 8) || !s.bit Reg.XFR_CTRL 0 || bits x.cap 15 0 == 0 then .next s
    else
      let i := x.owner
      let s := s.setQueue q { x with entries := es, rd := (x.rd + 1) % x.ptrMod }
      let nq := bits64 e.w0 51 38
      let e := { e with bad := e.bad || h.bad }
      match State.lightCause x e with
      | some c =>
        let s := (if e.bad then s.badEntry q else s).postToken i nq (voidToken 0 0 e.line s.now)
        .next (s.recordAbort i q 0xFFFF c 0)
      | none =>
        let near : DWord := BitVec.ofNat 64 (2 * 2 ^ 60 + 0x20000 * e.core)
        let far := lightFar e.w0 e.w1
        let a : Nat := bits64 e.w0 37 21
        let read := bits64 e.w0 63 60 == 1
        let n := bits64 e.w0 57 52 + 1
        let xs : List (Int × Int) := (List.range n).map (fun b =>
          if read then (Int.ofNat b, Int.ofNat (a + b)) else (Int.ofNat (a + b), Int.ofNat b))
        let c0 : Copy := { s := s, cause := if 0x20000 < a + n then some 1 else none }
        let c := c0.pieces i (if read then far else near) (if read then near else far) xs
        let s := c.settle i q
        match c.cause with
        | some z =>
          let s := s.postToken i nq (voidToken 0 0 e.line s.now)
          .next (s.recordAbort i q 0xFFFF z 0)
        | none =>
          let s := s.count (Reg.XFR_I_TASKS i)
          .next (s.postToken i nq (controlToken 0 0 e.line codeUser (e.w1.extractLsb' 0 32) s.now))

end Sys2Proof.Machine
end

