-- ==== Sys2Proof/Machine/EngOps.lean ====
section
/-! DEFINITION. What the engine commands share: descriptors, start checks, operand rows, weights, scale regions, the
reduction and the epilogue (R105 to R117, R125 to R149, R209 to R216). -/

namespace Sys2Proof.Machine

/-! ### Descriptor fields (R209 to R215) -/

def Descr.w (d : Descr) (n : Nat) : DWord := d.words.getD n 0
def Descr.cls (d : Descr) : Nat := bits64 (d.w 0) 63 60
def Descr.notify (d : Descr) : Bool := (d.w 0).getLsbD 59
def Descr.notifyQ (d : Descr) : Nat := bits64 (d.w 0) 58 45
def Descr.actFmt (d : Descr) : Nat := bits64 (d.w 0) 44 40
def Descr.wtFmt (d : Descr) : Nat := bits64 (d.w 0) 39 35
def Descr.outFmt (d : Descr) : Nat := bits64 (d.w 0) 34 30
def Descr.accInit (d : Descr) : Nat := bits64 (d.w 0) 29 28
def Descr.epi (d : Descr) : Nat := bits64 (d.w 0) 27 26
def Descr.wCode (d : Descr) : Nat := bits64 (d.w 0) 25 24
def Descr.gsize (d : Descr) : Nat := bits64 (d.w 0) 23 22
def Descr.rowBase (d : Descr) : Nat := bits64 (d.w 0) 21 17
def Descr.rows (d : Descr) : Nat := bits64 (d.w 0) 16 12 + 1
def Descr.accBase (d : Descr) : Nat := bits64 (d.w 1) 63 54
def Descr.outCount (d : Descr) : Nat := bits64 (d.w 1) 53 44 + 1
def Descr.outFirst (d : Descr) : Nat := bits64 (d.w 1) 43 28
def Descr.inWidth (d : Descr) : Nat := bits64 (d.w 1) 27 12 + 1
def Descr.strideCode (d : Descr) : Nat := bits64 (d.w 1) 11 10
def Descr.dil (d : Descr) : Nat := bits64 (d.w 1) 9 7 + 1
def Descr.padLeft (d : Descr) : Nat := bits64 (d.w 1) 6 1
def Descr.stepBase (d : Descr) : Nat := 32 * bits64 (d.w 2) 63 49
def Descr.stepCount (d : Descr) : Nat := bits64 (d.w 2) 48 39 + 1
def Descr.scaleSlot (d : Descr) : Nat := bits64 (d.w 2) 38 31
def Descr.padMode (d : Descr) : Nat := bits64 (d.w 2) 30 29
def Descr.padConst (d : Descr) : Nat := bits64 (d.w 2) 28 13
def Descr.zp (d : Descr) : Nat := bits64 (d.w 2) 12 5
def Descr.dyn (d : Descr) : Bool := (d.w 2).getLsbD 4
def Descr.relu (d : Descr) : Bool := (d.w 2).getLsbD 3
def Descr.half (d : Descr) : Bool := (d.w 2).getLsbD 2
def Descr.form (d : Descr) : Nat := bits64 (d.w 2) 1 1
def Descr.rSet (d : Descr) : Nat := bits64 (d.w 3) 63 56
def Descr.rowSpan (d : Descr) : Nat := bits64 (d.w 3) 55 53
def Descr.outQueue (d : Descr) : Nat := bits64 (d.w 3) 52 39
def Descr.aZp (d : Descr) : Nat := bits64 (d.w 3) 38 31
def Descr.wZp (d : Descr) : Nat := bits64 (d.w 3) 30 23

def clsLOADW : Nat := 1
def clsTAPSUM : Nat := 2
def clsMATMUL : Nat := 3
def clsDWDIAG : Nat := 4
def clsCHAIN : Nat := 5
def clsLUTCOL : Nat := 6
def clsBWD : Nat := 7
def clsSCRUBW : Nat := 8

/-- Slot width (R210). -/
def Descr.width (d : Descr) : Nat := match d.wCode with | 0 => 16 | 1 => 32 | 2 => 64 | _ => 8
/-- Stride (R211). -/
def Descr.stride (d : Descr) : Nat := match d.strideCode with | 0 => 1 | 1 => 2 | _ => 4
/-- Group size (R210). -/
def Descr.group (d : Descr) : Nat := match d.gsize with | 0 => 32 | 1 => 64 | _ => 128

/-- The row tags that a command names (R210). -/
def Descr.tags (d : Descr) : List Nat := (List.range d.rows).map (fun t => (d.rowBase + t) % 32)

/-- The classes that compute on operand rows. -/
def Descr.computes (d : Descr) : Bool :=
  d.cls == clsTAPSUM || d.cls == clsMATMUL || d.cls == clsDWDIAG || d.cls == clsBWD

/-! ### Modes (R99) -/

inductive EngMode where
  | int8 | int4 | code | float8 | mixed | float4 | float16
deriving DecidableEq, Repr

/-- The mode of a format pair; none for a pair that no row of R99 permits. -/
def engMode (a w : Nat) : Option EngMode :=
  let i8 (c : Nat) : Bool := c == fmtINT8 || c == fmtU8Z
  let f8 (c : Nat) : Bool := c == fmtE4M3 || c == fmtE5M2
  if i8 a && i8 w then some .int8
  else if (i8 a || a == fmtINT4) && w == fmtINT4 then some .int4
  else if i8 a && w == fmtCB4 then some .code
  else if f8 a && f8 w then some .float8
  else if f8 a && (w == fmtINT8 || w == fmtINT4) then some .mixed
  else if (a == fmtFP4 || a == fmtE4M3) && w == fmtFP4 then some .float4
  else if (a == fmtBF16 && w == fmtBF16) || (a == fmtFP16 && w == fmtFP16) then some .float16
  else none

/-- The accumulator is INT32 (R99). -/
def EngMode.integer : EngMode → Bool
  | .int8 | .int4 | .code => true
  | .float8 | .mixed | .float4 | .float16 => false

/-- Does the command's class take this mode (R99, R142, R147)? -/
def Descr.modeAllowed (d : Descr) (m : EngMode) : Bool :=
  if d.cls = clsDWDIAG then m == .int8 || m == .float8
  else if d.cls = clsBWD then d.actFmt == fmtE5M2 && (m == .float8 || m == .mixed)
  else true

/-- Operand rows that a step reduces: the rows of its block (R132), 128 for 4-bit weights, 32 for 16-bit ones, else 64; 8 tap
slots for DWDIAG. In BWD the 64 columns of the block, or the 64 pixels of form 1, take their place (R147). -/
def Descr.blockRows (d : Descr) : Nat :=
  if d.cls = clsDWDIAG then 8
  else if d.cls = clsBWD then 64
  else if fmtWidth d.wtFmt = 4 then 128
  else if fmtWidth d.wtFmt = 16 then 32
  else 64

/-- Rows `0 .. 2n` in two cycles of `n`. -/
def halves (n : Nat) : List (List Nat) := [List.range n, (List.range n).map (· + n)]

/-- Operand rows of each cycle of a step (R138): two cycles of 16 rows for the 16-bit formats. For the mixed mode with INT4
weights R99 and R138 differ on the cycles of a block, and the part decides (log entry 28). -/
def Descr.cycles (d : Descr) : List (List Nat) :=
  if d.blockRows = 32 then halves 16
  else if engMode d.actFmt d.wtFmt = some .mixed ∧ d.blockRows = 128 ∧ Config.mixedHalves then halves 64
  else [List.range d.blockRows]

/-! ### Weight SRAM and scale regions (R132, R133) -/

/-- A byte of the weight SRAM of physical engine p; addresses lie within 1 MiB. -/
def State.wByte (s : State) (p a : Nat) : Byte := s.rdByte (memAddr .weight p (a % 0x100000))
def State.wBytes (s : State) (p a n : Nat) : List Byte := (List.range n).map (fun j => s.wByte p (a + j))

/-- Column record fields of a scale region at byte `a` (R133). -/
def State.colBias (s : State) (p a j : Nat) : Word := BitVec.ofNat 32 (leNat (s.wBytes p (a + 16 * j) 4))
def State.colScale (s : State) (p a j : Nat) : Nat := leNat (s.wBytes p (a + 16 * j + 4) 2)
def State.colB (s : State) (p a j : Nat) : Nat := (s.wByte p (a + 16 * j + 6)).toNat
def State.colCb (s : State) (p a j : Nat) : Nat := (s.wByte p (a + 16 * j + 7)).toNat
/-- Group count n_g (R133). -/
def State.regionGroups (s : State) (p a : Nat) : Nat := leNat (s.wBytes p (a + 8) 2)
/-- Group exponent of group n, column j. -/
def State.groupExp (s : State) (p a n j : Nat) : Nat := (s.wByte p (a + 0x480 + 64 * n + j)).toNat

/-- A cb_index that names a codebook (R133). DESIGN CHOICE (log entry 65): R133 gives 0 to 7 and 0xFF alone; a column with
8 to 0xFE is an ordinary one throughout, and R134's last two checks count it. -/
def codebookIdx (n : Nat) : Bool := decide (n < 8)

/-- The checks of R134 over the bytes of a region. -/
def regionOk (byte : Nat → Nat) : Bool :=
  let ng := byte 8 + 256 * byte 9
  let cb (j : Nat) : Nat := byte (16 * j + 7)
  let cols := List.range 64
  let cbs := (cols.map cb).filter (· != 0xFF)
  decide (ng ≤ 4096)
  && cols.all (fun j => codebookIdx (cb j) ||
      (List.range ng).all (fun n =>
        let g := byte (0x480 + 64 * n + j)
        g == 0xFF || (decide (byte (16 * j + 6) ≤ g) && decide (g ≤ byte (16 * j + 6) + 15))))
  && decide (cbs.eraseDups.length = cbs.length) && decide (cbs.length ≤ 8)

/-- Is the region at byte `a` of physical engine p's weight SRAM in order (R134)? -/
def State.regionCheck (s : State) (p a : Nat) : Bool := regionOk (fun n => (s.wByte p (a + n)).toNat)

/-- Bytes of the scale region that starts at byte `a` (R133). -/
def regionBytes (byte : Nat → Nat) (a : Nat) : Nat := 0x480 + 64 * (byte (a + 8) + 256 * byte (a + 9))

/-- The slot boundary after the region that starts at byte `a` (R133). -/
def regionEnd (byte : Nat → Nat) (a : Nat) : Nat := a + 4096 * ceilDiv (regionBytes byte a) 4096

/-- The regions that follow one another from byte `a` on, up to byte `stop`. -/
def regionsFrom (byte : Nat → Nat) (stop : Nat) : Nat → Nat → List Nat
  | 0, _ => []
  | n + 1, a => if a < stop then a :: regionsFrom byte stop n (regionEnd byte a) else []

/-- First bytes of an engine's scale regions: the slots `named`, then what its entries of kind 1 (destination and length)
write, in ascending order. An entry holds regions one after the other from its slot on; one that begins inside a region
continues it. -/
def regionStarts (byte : Nat → Nat) (entries : List (Nat × Nat)) (named : List Nat) : List Nat :=
  let sorted := entries.foldl (fun m e => SMap.put e.1 (max e.2 (SMap.get 0 m e.1)) m) []
  sorted.foldl (fun rs e =>
    let a := match rs.find? (fun r => decide (r ≤ e.1) && decide (e.1 < regionEnd byte r)) with
      | some r => regionEnd byte r
      | none => e.1 / 4096 * 4096
    rs ++ regionsFrom byte (e.1 + e.2) 256 a) (named.map (4096 * ·))

/-- A byte of engine e's weight SRAM, as a number. -/
def State.regionByte (s : State) (e a : Nat) : Nat := (s.wByte (s.engPhys e) a).toNat

/-- Are the scale regions of engine e that bytes `lo .. lo + n` touch in order, as they stand (R134)? `ws` are weights
entries, `named` further slots. -/
def State.regionsHold (s : State) (e : Nat) (ws : List WeightDesc) (named : List Nat) (lo n : Nat) : Bool :=
  let es := (ws.filter (fun w => w.kind == 1 && w.unit == e)).map (fun w => (w.dest, w.bytes.length))
  (regionStarts (s.regionByte e) es named).all (fun r =>
    !(decide (r < lo + n) && decide (lo < r + regionBytes (s.regionByte e) r)) || s.regionCheck (s.engPhys e) r)

/-- The commands of a queue that are the engine's own: of the bodies behind a CHAIN that has not forwarded them, the first
alone. `k` descriptors are to be kept, then `m` left out. -/
def ownCmds : Nat → Nat → List Descr → List Descr
  | _, _, [] => []
  | 0, 0, d :: ds =>
    d :: (if d.cls = clsCHAIN ∧ !d.sent then ownCmds 1 (bits64 (d.w 1) 63 62) ds else ownCmds 0 0 ds)
  | k + 1, m, d :: ds => d :: ownCmds k m ds
  | 0, m + 1, _ :: ds => ownCmds 0 m ds

/-- A command that enters an engine's queue names a scale region at its scale_slot: a computing one (R212), or LUTCOL
(R215). -/
def Engine.noteSlot (g : Engine) (d : Descr) : Engine :=
  if d.computes then { g with scaleSlots := insKey d.scaleSlot g.scaleSlots }
  else if d.cls = clsLUTCOL then { g with scaleSlots := insKey (bits64 (d.w 1) 63 56) g.scaleSlots }
  else g

/-- A descriptor enters an engine's queue (R130). -/
def Engine.enter (g : Engine) (d : Descr) : Engine :=
  let h := { g with queue := g.queue ++ [d], entered := g.entered + 1 }
  if (ownCmds 0 0 g.queue).length < (ownCmds 0 0 h.queue).length then h.noteSlot d else h

/-- The scale regions of engine e that bytes `lo .. lo + n` touch are in order (R134): those of its instance's image and
those that commands or patches have named. -/
def State.regionsOk (s : State) (e lo n : Nat) : Bool :=
  let ws := match s.engOwner e with
    | some i => (match (s.inst i).image with | some im => im.weights | none => [])
    | none => []
  s.regionsHold e ws (s.engine e).scaleSlots lo n

/-! ### Step lists and tap slots (R135) -/

structure Tap where
  valid : Bool
  row : Nat
  dx : Nat
  cb : Nat
deriving DecidableEq, Repr

structure Step where
  slot : Nat
  sub : Nat
  taps : List Tap
deriving DecidableEq, Repr

def tapOf (n : Nat) : Tap :=
  { valid := n.testBit 15, row := n / 0x400 % 32, dx := n / 0x40 % 16, cb := n % 64 }

/-- Step n of the list at `base`. -/
def State.stepAt (s : State) (p base n : Nat) : Step :=
  let a := base + 32 * n
  { slot := (s.wByte p a).toNat, sub := (s.wByte p (a + 1)).toNat % 64
    taps := (List.range 8).map (fun q => tapOf (leNat (s.wBytes p (a + 16 + 2 * q) 2))) }

/-! ### Operands (R128, R136, R137) -/

/-- The code of `w` bits at bit offset `o` of a byte function. -/
def bitsAt (byte : Nat → Byte) (o w : Nat) : Nat :=
  leNat ((List.range 5).map (fun j => byte (o / 8 + j))) / 2 ^ (o % 8) % 2 ^ w

/-- The staging byte at which pixel x of a tag's operand row begins (R129); staging addresses wrap within 128 KiB. -/
def RowTag.pixelAt (t : RowTag) (x : Int) : Nat := (((t.base : Int) + (x - t.firstPx) * t.pitch) % 0x20000).toNat

/-- The element of pixel x, channel c of a tag's operand row (R129). -/
def State.operandCode (s : State) (p : Nat) (t : RowTag) (x : Int) (c : Nat) : Nat :=
  let w := fmtStored t.fmt.toNat
  let a := t.pixelAt x
  bitsAt (fun b => s.rdByte (memAddr .staging p ((a + b) % 0x20000))) (c * w) w % 2 ^ fmtWidth t.fmt.toNat

/-- Where an operand comes from: a pixel of the row, a constant code, or zero (R137). -/
inductive Pad where
  | pixel (x : Int)
  | code (n : Nat)
  | zero
deriving DecidableEq, Repr

/-- R136 and R137 for input position x. -/
def Descr.padAt (d : Descr) (x : Int) : Pad :=
  if 0 ≤ x ∧ x < (d.inWidth : Int) then .pixel x
  else match d.padMode with
    | 0 => .zero
    | 1 => .code d.padConst
    | 2 => .pixel (if x < 0 then -x else 2 * d.inWidth - 2 - x)
    | _ => .pixel (if x < 0 then 0 else (d.inWidth : Int) - 1)

/-- Input position of output pixel o and tap displacement dx (R136, R140). -/
def Descr.inputAt (d : Descr) (o dx : Nat) : Pad :=
  if d.cls = clsMATMUL then .pixel o
  else d.padAt ((o * d.stride + dx * d.dil : Nat) - (d.padLeft : Int))

/-- The operand row that a tap slot names (R128). -/
def Engine.tapTag (g : Engine) (d : Descr) (t : Tap) : RowTag := SMap.get {} g.tags ((d.rowBase + t.row) % 32)

/-- The value that a tap slot feeds at input position `x` for channel c, its codes taken in format `fmt` with zero point `z`
(R106, R137); an invalid slot feeds zero. -/
def State.tapVal (s : State) (p : Nat) (g : Engine) (d : Descr) (t : Tap) (fmt z : Nat) (x : Pad) (c : Nat) : FVal :=
  if !t.valid then .fin false 0 0
  else match x with
    | .zero => .fin false 0 0
    | .code n => decodeElem fmt z n
    | .pixel x => decodeElem fmt z (s.operandCode p (g.tapTag d t) x c)

/-- The operand value of channel c at output pixel o of a tap slot (R106, R136, R137). -/
def State.operand (s : State) (p : Nat) (g : Engine) (d : Descr) (t : Tap) (o c : Nat) : FVal :=
  s.tapVal p g d t d.actFmt d.aZp (d.inputAt o t.dx) c

/-- Row exponent of a tap slot's operand row. DESIGN CHOICE (log entry 65): no rule says what an exponent of 0xFF in a
token's scale field does to a sum; it scales as 2^128, the code's place in the E8M0 row. -/
def Engine.rowExp (g : Engine) (d : Descr) (t : Tap) : Nat := (g.tapTag d t).r.toNat

/-- The largest row exponent of the command's operand tokens (R111); 0xFF counts as a code above 0xFE (log entry 65). -/
def Engine.maxExp (g : Engine) (d : Descr) : Nat :=
  d.tags.foldl (fun m t => max m (SMap.get {} g.tags t).r.toNat) 0

/-! ### Weights (R132, R143, R147) -/

/-- Code of the weight element at row ρ, column j of a step's block (R132). -/
def State.weightCode (s : State) (p : Nat) (d : Descr) (st : Step) (row j : Nat) : Nat :=
  let a := 4096 * st.slot
  if d.cls = clsDWDIAG then (s.wByte p (a + 64 * st.sub + 8 * row + j % 8)).toNat
  else if fmtWidth d.wtFmt = 4 then
    let b := (s.wByte p (a + 32 * row + j / 2)).toNat
    if j % 2 = 0 then b % 16 else b / 16
  else if fmtWidth d.wtFmt = 16 then leNat (s.wBytes p (a + 128 * row + 2 * j) 2)
  else (s.wByte p (a + 64 * row + j)).toNat

/-- The block row that gives output j of BWD form 0: the block's 64 rows, or a half of the 128 of INT4 weights, which half
the part decides (log entry 28). -/
def Descr.bwdRow (d : Descr) (j : Nat) : Nat := if fmtWidth d.wtFmt = 4 then 64 * (Config.bwdHalf % 2) + j else j

/-- The weight value that column j applies at row ρ: a codebook column takes its INT8 entry (R117), an ordinary column of
a CB4 command the code as INT4 (R99). BWD form 0 reads the block transposed (R147): `row` is then the stored column and `j`
the output. DESIGN CHOICE (log entry 65): codebook, group exponent and column base are those of output `j` there too; and a
codebook column multiplies by its INT8 entry whatever activation format the command names, although R99 lists INT8 and U8Z
for the codebook mode and R143 restricts the weight format alone. -/
def State.weight (s : State) (p : Nat) (d : Descr) (st : Step) (row j : Nat) : FVal :=
  let code := if d.cls = clsBWD then s.weightCode p d st (d.bwdRow j) row else s.weightCode p d st row j
  let reg := 4096 * d.scaleSlot
  let n := s.colCb p reg j
  if codebookIdx n ∧ (d.wtFmt = fmtINT4 ∨ d.wtFmt = fmtCB4) then
    decodeElem fmtINT8 0 (s.wByte p (reg + 0x400 + 16 * n + code)).toNat
  else decodeElem (if d.wtFmt = fmtCB4 then fmtINT4 else d.wtFmt) d.wZp code

/-- The integer that a value of an integer format holds. -/
def FVal.int : FVal → Int
  | .fin neg m e => let k : Int := (m <<< e.toNat : Nat); if neg then -k else k
  | _ => 0

/-! ### The reduction (R100, R102, R111, R112, R138) -/

/-- Shift of group `n` of column j, g − b; 0 for a codebook column (R112, R117); none when g is 0xFF (R103). In BWD form 0, j
is the output (log entry 65). -/
def State.groupShift (s : State) (p : Nat) (d : Descr) (n j : Nat) : Option Int :=
  let reg := 4096 * d.scaleSlot
  if codebookIdx (s.colCb p reg j) then some 0
  else
    let g := s.groupExp p reg n j
    if g = 0xFF then none else some ((g : Int) - s.colB p reg j)

/-- One integer term: operand, row exponent against e_base, weight and group shift (R111, R112). -/
def intTerm (a w : Int) (r eBase : Int) : Option Int → Int
  | none => 0
  | some gs =>
    let x := if r < eBase then shrRtz a (eBase - r).toNat else a * 2 ^ (r - eBase).toNat
    x * w * 2 ^ gs.toNat

/-- One floating-point term (R102, R111, R112). -/
def floatTerm (a w : FVal) (r eBase : Int) : Option Int → FVal
  | none => .nan
  | some gs => scaleVal (r - eBase + gs) (mulVal a w)

/-- The tap slot and channel of row ρ of a step (R135). -/
def Descr.rowTap (d : Descr) (st : Step) (row : Nat) : Tap × Nat :=
  if d.cls = clsDWDIAG then
    (st.taps.getD row (tapOf 0), 0)
  else
    let t := st.taps.getD (row / d.width) (tapOf 0)
    (t, t.cb * d.width + row % d.width)

/-- The channel that output column j of a DWDIAG step computes: c0 + j mod 8, and whether the step computes column j. -/
def Step.diagChannel (st : Step) (j : Nat) : Option Nat :=
  match st.taps.find? (·.valid) with
  | none => none
  | some t => if 8 * t.cb % 64 ≤ j ∧ j < 8 * t.cb % 64 + 8 then some (8 * t.cb + j % 8) else none

/-- BWD form 1: the terms of output channel o and input channel j, over the 64 pixels of step n (R147, R214). Pixel `row` is
out_first + 64n + row; the gradient is that pixel's channel o, and the weight operand the saved activation of channel j at
the input position that R136 gives for the pixel. The gradient's row exponent is the term's (log entry 28). -/
def State.gradTerm (s : State) (p : Nat) (g : Engine) (d : Descr) (n : Nat) (st : Step) (o j row : Nat) :
    FVal × FVal × Int × Option Int :=
  let a := st.taps.getD (Config.gradTap % 8) (tapOf 0)
  let b := st.taps.getD (Config.savedTap % 8) (tapOf 0)
  let px := d.outFirst + 64 * n + row
  (s.tapVal p g d a d.actFmt 0 (.pixel px) (a.cb * d.width + o), s.tapVal p g d b d.wtFmt d.wZp (d.inputAt px b.dx) (b.cb * d.width + j),
    (g.rowExp d a : Int), s.groupShift p d ((64 * n + row) / d.group) j)

/-- The term of reduction row ρ for output o and column j: operand, weight, row exponent and group shift (R111, R112, R138). -/
def State.stepTerm (s : State) (p : Nat) (g : Engine) (d : Descr) (n : Nat) (st : Step) (o j row : Nat) :
    FVal × FVal × Int × Option Int :=
  if d.cls = clsBWD ∧ d.form = 1 then s.gradTerm p g d n st o j row
  else
    let t := d.rowTap st row
    let ch := if d.cls = clsDWDIAG then (st.diagChannel j).getD 0 else t.2
    (s.operand p g d t.1 o ch, s.weight p d st row j, (g.rowExp d t.1 : Int),
      s.groupShift p d ((n * d.blockRows + row) / d.group) j)

/-- Accumulator element j of one output pixel after one cycle of a step. -/
def State.cycleElem (s : State) (p : Nat) (g : Engine) (d : Descr) (int : Bool) (eBase : Int) (n : Nat) (st : Step)
    (rows : List Nat) (o j : Nat) (acc : Word) : Word :=
  let term := s.stepTerm p g d n st o j
  if d.cls = clsDWDIAG ∧ (st.diagChannel j).isNone then acc
  else if int then
    let sum := rows.foldl (fun t row => let x := term row; t + intTerm x.1.int x.2.1.int x.2.2.1 eBase x.2.2.2) 0
    sat32 (acc.toInt + sum)
  else
    toF32 (rows.foldl (fun t row => let x := term row; addVal t (floatTerm x.1 x.2.1 x.2.2.1 eBase x.2.2.2)) (f32 acc))

/-- Accumulator elements of one output pixel after every step (R138). -/
def State.reducePixel (s : State) (p : Nat) (g : Engine) (d : Descr) (int : Bool) (eBase : Int) (o : Nat)
    (acc : List Word) : List Word :=
  (List.range d.stepCount).foldl (fun acc n =>
    let st := s.stepAt p d.stepBase n
    d.cycles.foldl (fun acc rows =>
      acc.zipIdx.map (fun q => s.cycleElem p g d int eBase n st rows o q.2 q.1)) acc) acc

/-! ### The accumulator file (R127) -/

/-- Linear address of slot n of physical engine p. -/
def slotAddrAcc (p n : Nat) : Nat := memAddr .acc p (256 * n)
/-- The 64 elements of a slot. -/
def State.accSlot (s : State) (p n : Nat) : List Word :=
  (List.range 64).map (fun j => BitVec.ofNat 32 (leNat (s.rdBytes (slotAddrAcc p n + 4 * j) 4)))
/-- Store the elements of a slot. -/
def State.setSlot (s : State) (p n : Nat) (xs : List Word) : State :=
  s.wrBytes (slotAddrAcc p n) (xs.flatMap (fun x => leBytes 4 x.toNat))

/-! ### Start checks (R152, R209 to R214) -/

/-- A format that a command may write (R114). -/
def outFmtOk (c : Nat) : Bool :=
  [fmtINT32, fmtFP32, fmtINT4, fmtINT8, fmtU8Z, fmtINT16, fmtE4M3, fmtE5M2, fmtBF16, fmtFP16].contains c

/-- Every field lies in its stated range, and every field that the class does not use is 0 (R209 to R214). -/
def Descr.fieldsOk (d : Descr) (chained : Bool) : Bool :=
  bits64 (d.w 0) 11 0 == 0 && !(d.w 1).getLsbD 0 && !(d.w 2).getLsbD 0 && bits64 (d.w 3) 22 0 == 0
  && d.epi != 3 && d.gsize != 3 && d.strideCode != 3 && decide (d.inWidth ≤ 32768)
  && (d.wCode == 3) == (d.cls == clsDWDIAG)
  && (d.epi != 2 || chained)
  && (outFmtOk d.outFmt || (d.epi == 0 && d.outFmt == 0)) && d.rSet != 0xFF
  && (d.form == 0 || d.cls == clsBWD)
  && (d.cls != clsBWD || d.form == 1 || d.strideCode == 0)
  && (d.cls != clsMATMUL || (bits64 (d.w 1) 27 1 == 0 && bits64 (d.w 2) 30 13 == 0))
  && decide (d.width ≤ d.blockRows)

/-- Some column of the command's scale region is a codebook column. -/
def State.hasCodebook (s : State) (p : Nat) (d : Descr) : Bool :=
  (List.range 64).any (fun j => codebookIdx (s.colCb p (4096 * d.scaleSlot) j))

/-- The format that a tag of the command must have: the activation format (R152); in BWD form 1 a row of saved activations,
taken as the weight operand, has the weight format (R147, log entry 28). -/
def Descr.tagOk (d : Descr) (c : Nat) : Bool := c == d.actFmt || (d.cls == clsBWD && d.form == 1 && c == d.wtFmt)

/-- Groups that a command reduces (R138, R152). -/
def Descr.groups (d : Descr) : Nat := ceilDiv (d.stepCount * d.blockRows) d.group

/-- The first failure of R152, as a detail code of ENG_E_ERR. A command without an epilogue that uses no out_fmt carries 0. -/
def State.engCause (s : State) (p : Nat) (g : Engine) (d : Descr) (chained : Bool) : Option Nat :=
  let fmtBad := !fmtListed d.actFmt || !fmtListed d.wtFmt || !(fmtListed d.outFmt || (d.epi == 0 && d.outFmt == 0))
  if fmtBad then some 1
  else match engMode d.actFmt d.wtFmt with
    | none => some 2
    | some m =>
      if !d.modeAllowed m then some 2
      else if d.tags.any (fun t => !d.tagOk (SMap.get {} g.tags t).fmt.toNat) then some 3
      else if !d.fieldsOk chained then some 4
      else if 1024 < d.accBase + d.outCount then some 7
      else if (d.accInit = 3 ∧ m.integer) ∨ (d.accInit = 2 ∧ !chained) then some 8
      else if s.hasCodebook p d && !(d.wtFmt == fmtINT4 || d.wtFmt == fmtCB4) then some 5
      else if s.regionGroups p (4096 * d.scaleSlot) < d.groups then some 6
      else if d.cls = clsBWD ∧ d.outFmt ≠ fmtE5M2 then some 9
      else none

/-- Event bit of ENG_E_EVT of a detail code: a format-tag mismatch, else an illegal encoding (R152). -/
def detailBit (c : Nat) : Nat := if c = 2 ∨ c = 3 then 1 else 0

/-- The engine stops at a command (R152): event bit, record, its queue discarded, an instance fault. -/
def State.engStop (s : State) (e : Nat) (d : Descr) (bit detail : Nat) : State :=
  let err : Word := BitVec.ofNat 32 (0x10000000 * d.cls + 0x1000000 * detail + d.seq % 65536)
  let s := s.modEngine e (fun g => { g with queue := [], stopped := true, waitTick := none })
  let s := (s.event (Reg.ENG_E_EVT e) bit).wr (Reg.ENG_E_ERR e) err
  let o := s.engOwner e
  let sid := match o with
    | some i => ((s.inst i).stageOfEngine e).map (·.id) |>.getD 0
    | none => 0
  s.instFault o 0x04 (0x0200 + bit) sid e err

/-- A command completes (ENG_E_CMDS), and posts its completion token when notify is set (R131, R229); the output queues of a
held instance emit nothing (R296). -/
def State.engDone (s : State) (e : Nat) (d : Descr) (notify : Bool) (nq : Nat) : State :=
  let s := s.count (Reg.ENG_E_CMDS e)
  match s.engOwner e with
  | some i =>
    if notify && (s.inst i).live then s.postToken i nq (controlToken 0 0 d.line codeUser (BitVec.ofNat 32 (d.seq % 65536)) s.now) else s
  | none => s

/-- Step cycles (R151, ENG_E_BUSY). -/
def State.engBusy (s : State) (e : Nat) (d : Descr) : State :=
  let c := if d.cls = clsDWDIAG then ceilDiv d.outCount 8
    else if d.blockRows = 32 then 2 * d.outCount else d.outCount
  s.wr64 (Reg.ENG_E_BUSY_LO e) (Reg.ENG_E_BUSY_HI e)
    (s.rd64 (Reg.ENG_E_BUSY_LO e) (Reg.ENG_E_BUSY_HI e) + c * d.stepCount)

/-- Meet the errors of `n` bytes from byte `a` of a unit's memory, whose addresses wrap at its size; the second component
says whether a poisoned word has been read (R126, R339). -/
def lookAt (r : State × Bool) (k : MemKind) (p a n : Nat) : State × Bool :=
  let a := a % k.size
  let x := r.1.secded k (memAddr k p a) (min n (k.size - a))
  let y := x.1.secded k (memAddr k p 0) (n - (k.size - a))
  (y.1, r.2 || x.2 || y.2)

/-- The staging bytes of channels `c .. c + n` of an operand row's pixel (R129). -/
def lookPixel (r : State × Bool) (p : Nat) (t : RowTag) (c n : Nat) : Pad → State × Bool
  | .pixel x =>
    let w := fmtStored t.fmt.toNat
    lookAt r .staging p (t.pixelAt x + c * w / 8) (ceilDiv (c * w % 8 + n * w) 8)
  | _ => r

/-- The operand bytes of one step: what each valid tap slot reads for each output pixel; in BWD form 1, the pixels of the
step's block in the gradient row and the saved row. -/
def Engine.lookStep (g : Engine) (p : Nat) (d : Descr) (n : Nat) (st : Step) (r : State × Bool) : State × Bool :=
  if d.cls = clsBWD ∧ d.form = 1 then
    let a := st.taps.getD (Config.gradTap % 8) (tapOf 0)
    let b := st.taps.getD (Config.savedTap % 8) (tapOf 0)
    (List.range 64).foldl (fun r k =>
      let px := d.outFirst + 64 * n + k
      let r := if a.valid then lookPixel r p (g.tapTag d a) (a.cb * d.width) d.outCount (.pixel px) else r
      if b.valid then lookPixel r p (g.tapTag d b) (b.cb * d.width) 64 (d.inputAt px b.dx) else r) r
  else
    (st.taps.filter (·.valid)).foldl (fun r t =>
      (List.range d.outCount).foldl (fun r i =>
        lookPixel r p (g.tapTag d t) (t.cb * d.width) d.width (d.inputAt (d.outFirst + i) t.dx)) r) r

/-- The bytes of a step's weight block (R132): a sub-block for DWDIAG, 64 rows of the transposed block, none where the
weight operand comes from staging (R147). -/
def Descr.blockBytes (d : Descr) (st : Step) : Nat × Nat :=
  if d.cls = clsDWDIAG then (4096 * st.slot + 64 * st.sub, 64)
  else if d.cls = clsBWD then
    (if d.form = 1 then (0, 0) else if fmtWidth d.wtFmt = 4 then (4096 * st.slot + 32 * d.bwdRow 0, 2048) else (4096 * st.slot, 4096))
  else (4096 * st.slot, 4096)

/-- Read every range that a command computes from, meeting its errors: step list, scale region, blocks, operand rows and
kept slots. The second component says whether a poisoned word was read (R126, R339). -/
def State.engReads (s : State) (p : Nat) (g : Engine) (d : Descr) : State × Bool :=
  let r := lookAt (s, false) .weight p d.stepBase (32 * d.stepCount)
  let r := lookAt r .weight p (4096 * d.scaleSlot) (0x480 + 64 * d.groups)
  let r := (List.range d.stepCount).foldl (fun r n =>
    let st := s.stepAt p d.stepBase n
    let b := d.blockBytes st
    g.lookStep p d n st (lookAt r .weight p b.1 b.2)) r
  if d.accInit = 1 ∨ d.accInit = 2 then lookAt r .acc p (256 * d.accBase) (256 * d.outCount) else r

/-- ENG_E_EVT.poison_read (R126), with its report. -/
def State.engPoison (s : State) (e : Nat) (poison : Bool) : State :=
  if !poison then s
  else
    let o := s.engOwner e
    let sid := match o with
      | some i => ((s.inst i).stageOfEngine e).map (·.id) |>.getD 0
      | none => 0
    (s.event (Reg.ENG_E_EVT e) 5).report 0x04 0x0205 1 o sid e 0

/-- e_base of a command (R111, R144): carried from the slots with keep and chain-in (a free value where no command
started them), else its own. It may be negative. -/
def State.eBaseOf (s : State) (g : Engine) (d : Descr) (int : Bool) : Int × State :=
  if d.accInit = 1 ∨ d.accInit = 2 then
    match SMap.get none g.slotBase d.accBase with
    | some b => (b, s)
    | none => let r := s.draw; ((r.1.toNat % 256 : Nat), r.2)
  else if int then ((g.maxExp d : Int) - d.rowSpan, s)
  else (g.maxExp d, s)

/-- Starting elements of slot n (R144). -/
def State.accStart (s : State) (p : Nat) (d : Descr) (n : Nat) : List Word :=
  if d.accInit = 0 then List.replicate 64 0
  else if d.accInit = 3 then (List.range 64).map (fun j => s.colBias p (4096 * d.scaleSlot) j)
  else s.accSlot p n

/-- The steps of a command on engine e (R136 to R144, R147): its slots hold the sums, of output pixel out_first + i, or of
output channel i in BWD form 1 (R214). The result carries e_base and whether poison was read. -/
def State.engSteps (s : State) (e : Nat) (d : Descr) : State × Int × Bool :=
  let p := s.engPhys e
  let g := s.engine e
  let int := match engMode d.actFmt d.wtFmt with | some m => m.integer | none => false
  let r := s.engReads p g d
  let b := r.1.eBaseOf g d int
  let s := b.2
  let s := (List.range d.outCount).foldl (fun t i =>
    let o := if d.cls = clsBWD ∧ d.form = 1 then i else d.outFirst + i
    t.setSlot p (d.accBase + i) (s.reducePixel p g d int b.1 o (s.accStart p d (d.accBase + i)))) s
  let s := s.modEngine e (fun g =>
    { g with slotBase := (List.range d.outCount).foldl (fun m i => SMap.set none (d.accBase + i) (some b.1) m) g.slotBase })
  ((s.engBusy e d).engPoison e r.2, b.1, r.2)

/-! ### The epilogue (R108 to R110, R115) -/

/-- Q_p and Q_n of a destination format with zero point z (R108), as values. -/
def qOf (c z : Nat) : FVal × FVal :=
  let n (x : Nat) : FVal := .fin false x 0
  if c = fmtINT4 then (n 7, n 8)
  else if c = fmtINT8 then (n 127, n 128)
  else if c = fmtINT16 then (n 32767, n 32768)
  else if c = fmtU8Z then (n (255 - z), n z)
  else if c = fmtFP4 then (n 6, n 6)
  else if c = fmtE4M3 then (n 448, n 448)
  else if c = fmtE5M2 then (n 57344, n 57344)
  else if c = fmtFP16 then (n 65504, n 65504)
  else (floatVal (floatFmt fmtBF16) 0x7F7F, floatVal (floatFmt fmtBF16) 0x7F7F)

/-- x ≤ y in value, for numbers. -/
def leVal (x y : FVal) : Bool := !ltVal y x

def zeroVal : FVal := .fin false 0 0
def isZero : FVal → Bool
  | .fin _ 0 _ => true
  | _ => false

/-- P and N of a scale row (R108). -/
def rowPN (xs : List Word) : FVal × FVal :=
  xs.foldl (fun m x =>
    let v := f32 x
    if v = .nan then m
    else if ltVal v zeroVal then (m.1, if ltVal m.2 (negVal v) then negVal v else m.2)
    else (if ltVal m.1 v then v else m.1, m.2)) (zeroVal, zeroVal)

/-- Does exponent r satisfy the rule of R108? A bound with Q = 0 is left out (R109). -/
def expFits (pn q : FVal × FVal) (r : Nat) : Bool :=
  (isZero q.1 || leVal pn.1 (scaleVal ((r : Int) - 127) q.1)) && (isZero q.2 || leVal pn.2 (scaleVal ((r : Int) - 127) q.2))

/-- The dynamic row exponent (R108, R109). -/
def dynExp (xs : List Word) (c z floor : Nat) : Nat :=
  let pn := rowPN xs
  if isZero pn.1 && isZero pn.2 then floor
  else (((List.range (0xFF - floor)).map (· + floor)).find? (fun r => expFits pn (qOf c z) r)).getD 0xFE

/-- Steps 1 to 5 of R115 for one element. -/
def State.epiElem (s : State) (p : Nat) (d : Descr) (int : Bool) (eBase : Int) (j : Nat) (acc : Word) : Word :=
  let reg := 4096 * d.scaleSlot
  let x := if int then toF32 (decodeElem fmtINT32 0 acc.toNat) else acc
  if d.outFmt = fmtINT32 ∨ d.outFmt = fmtFP32 then x
  else
    let x := toF32 (mulVal (f32 x) (decodeElem fmtBF16 0 (s.colScale p reg j)))
    let b : Int := if codebookIdx (s.colCb p reg j) then 127 else s.colB p reg j
    let x := toF32 (scaleVal (b - 127 + (eBase - 127)) (f32 x))
    let x := if d.accInit = 3 then x else toF32 (addVal (f32 x) (f32 (s.colBias p reg j)))
    if d.relu && ltVal (f32 x) zeroVal then 0 else x

/-- Steps 7 and 8 of R115. -/
def Descr.requant (d : Descr) (r : Nat) (x : Word) : Nat :=
  let x := if d.half && d.outFmt != fmtINT32 && d.outFmt != fmtFP32 then
    toF32 (addVal (f32 x) (.fin false 1 ((r : Int) - 128))) else x
  encodeElem d.outFmt d.zp (scaleVal (127 - (r : Int)) (f32 x)) none

/-- Elements packed by R87, `w` bits each. -/
def packElems (w : Nat) (xs : List Nat) : List Byte :=
  let n := xs.zipIdx.foldl (fun t q => t + q.1 * 2 ^ (w * q.2)) 0
  leBytes (ceilDiv (w * xs.length) 8) n

/-- The scale row that a command's epilogue makes: its exponent and its packed bytes, pixel by pixel. BWD always takes a
dynamic exponent (R123). -/
def State.epiRow (s : State) (p : Nat) (d : Descr) (eBase : Int) : Nat × List Byte :=
  let int := match engMode d.actFmt d.wtFmt with | some m => m.integer | none => false
  let xs := (List.range d.outCount).map (fun i =>
    (s.accSlot p (d.accBase + i)).zipIdx.map (fun q => s.epiElem p d int eBase q.2 q.1))
  let raw := d.outFmt == fmtINT32 || d.outFmt == fmtFP32
  let r := if (d.dyn || d.cls == clsBWD) && !raw then dynExp xs.flatten d.outFmt d.zp d.rSet else d.rSet
  (r, xs.flatMap (fun px => packElems (fmtStored d.outFmt) (px.map (d.requant r))))

/-! ### Rows in windows and in tile SRAM (R74, R145, R158) -/

/-- The stage that reads the edge with local queue `l`, and the edge (R74). -/
def State.edgeOf (s : State) (i l : Nat) : Option (StageDesc × EdgeDesc) :=
  ((s.inst i).stageDescs.flatMap (fun d => d.edges.map (fun e => (d, e)))).find? (fun x => x.2.queue == l)

/-- The tiles of a stage. -/
def StageDesc.tiles (d : StageDesc) : List (Nat × Nat) :=
  ((List.range 64).filter (hasBit d.columns)).flatMap (fun c => (List.range 32).map (fun r => (c, r)))

/-- Where the bytes of a row of `n` bytes at offset `off` stand in the tile SRAM of stage d: column, row, local address. The
part in each tile begins at address 64 × off; the compiler's spread over the tiles is open (R158). -/
def StageDesc.spread (d : StageDesc) (off n : Nat) : List (Nat × Nat × Nat) :=
  let ts := d.tiles
  if ts.isEmpty then []
  else
    ((List.range n).foldl (fun (a : List (Nat × Nat × Nat) × SMap Nat) j =>
      let k := Config.rowTile d.id j % ts.length
      let u := ts.getD k (0, 0)
      let m := SMap.get 0 a.2 k
      ((u.1, u.2, (64 * off + m) % 0x4000) :: a.1, SMap.put k (m + 1) a.2)) ([], [])).1.reverse

/-- Linear address of a byte of a tile. -/
def State.tileByteAt (s : State) (u : Nat × Nat × Nat) : Nat := memAddr .tile (s.colPhys u.1) (0x4000 * u.2.1 + u.2.2)

/-- Linear addresses of the `n` bytes of a row at 64-byte unit `off` of window w of instance i, 0xFF naming the tile SRAM of
stage d; none where they do not all lie in it. -/
def State.rowBytes (s : State) (i : Nat) (d : Option StageDesc) (w off n : Nat) : Option (List Nat) :=
  if w = 0xFF then
    match d with
    | some d => if d.tiles.isEmpty then none else some ((d.spread off n).map s.tileByteAt)
    | none => none
  else
    match s.window i w with
    | some x => if x.size < 64 * off + n then none else some ((List.range n).map (fun j => memAddr .bulk x.die (x.base + 64 * off + j)))
    | none => none

/-- Reading bytes at linear addresses of a memory meets the errors of each of their words once (R155, R338). -/
def State.meetWords (s : State) (k : MemKind) (as : List Nat) : State :=
  ((as.map (fun a => a / 8 * 8)).eraseDups).foldl (State.meetUpset k) s

/-- Write bytes at linear addresses with good check bits: words written whole lose their mark (R338). -/
def State.wrAt (s : State) (xs : List (Nat × Byte)) : State :=
  (xs.foldl (fun s x => s.wrByte x.1 x.2) s).markWords (xs.map (fun x => (x.1, false)))

/-- Linear addresses at which a write of `n` bytes at a place of window w lands: none where it does not lie in the window, or
where tile writes are inhibited. -/
def State.rowOut (s : State) (i : Nat) (d : Option StageDesc) (w off n : Nat) : List Nat :=
  if w = 0xFF ∧ !(match d with | some d => ((List.range 64).filter (hasBit d.columns)).all s.tileWritable | none => false) then []
  else (s.rowBytes i d w off n).getD []

/-- Write the bytes of a row at a place of window w. -/
def State.writeRow (s : State) (i : Nat) (d : Option StageDesc) (w off : Nat) (bs : List Byte) : State :=
  s.wrAt ((s.rowOut i d w off bs.length).zip bs)

/-- The byte and bit shift of element n of a row with `w` bits per stored element (R87). -/
def elemAt (w n : Nat) : Nat × Nat := (n * w / 8, n * w % 8)

/-- Store elements (index and code, `w` bits) of a row whose bytes stand at `as`; words written whole lose their mark. -/
def State.putElems (s : State) (as : List Nat) (w : Nat) (es : List (Nat × Nat)) : State :=
  let r := es.foldl (fun (r : State × List Nat) e =>
    let o := elemAt w e.1
    (List.range (ceilDiv w 8)).foldl (fun (r : State × List Nat) j =>
      match as[o.1 + j]? with
      | none => r
      | some a =>
        let old := (r.1.rdByte a).toNat
        let b := if w < 8 then old - old / 2 ^ o.2 % 2 ^ w * 2 ^ o.2 + e.2 % 2 ^ w * 2 ^ o.2 else e.2 / 256 ^ j % 256
        (r.1.wrByte a (BitVec.ofNat 8 b), if r.2.head? = some a then r.2 else a :: r.2)) r) (s, [])
  r.1.markWords (r.2.map (fun a => (a, false)))

/-- The 64-byte unit of a place for `n` bytes at or above byte `base` of `size` bytes, chosen by x. -/
def unitIn (size base n x : Nat) : Nat := base / 64 + x % ((size - base - n) / 64 + 1)

/-- The bytes of a window; the local addresses of a tile for 0xFF. -/
def State.windowSize (s : State) (i w : Nat) : Nat :=
  if w = 0xFF then 0x4000 else match s.window i w with | some x => x.size | none => 0

/-- Window and lowest byte of the place where engine e writes a row for local queue `l`: the line buffer of the queue's edge
(R74); where no edge has the queue, a window of the instance that a free value chooses, else the tile SRAM of the engine's own
stage. With it, the stage that 0xFF names. -/
def State.rowPlace (s : State) (i e l x : Nat) : Option StageDesc × Nat × Nat :=
  match s.edgeOf i l with
  | some (d, g) => (some d, g.window, g.base)
  | none =>
    let ws := (List.range 64).filter (fun w => (s.window i w).isSome)
    ((s.inst i).stageOfEngine e, ws.getD (x % ws.length) 0xFF, 0)

/-- Write a payload of engine e for the consumers of local queue `l`: the manual fixes the line buffer but not the place of a
scale row in it, so a free value chooses the 64-byte unit. The result is the token's window and offset. -/
def State.placePayload (s : State) (i e l : Nat) (bs : List Byte) : State × Nat × Nat :=
  let r := s.draw
  let q := r.2.draw
  let pl := s.rowPlace i e l q.1.toNat
  let u := unitIn (s.windowSize i pl.2.1) pl.2.2 bs.length r.1.toNat
  (q.2.writeRow i pl.1 pl.2.1 u bs, pl.2.1, u)

/-- Flags of a token of a line that engine e writes: those of its operand tokens, and tainted for poison, for a tainted stage,
or for poison that a tile or core of its stage has loaded in that line (R161, R339, R343). -/
def State.engFlags (s : State) (e : Nat) (line : Word) (own : Byte) (poison : Bool) : Byte :=
  let t := match s.engOwner e with
    | some i => match (s.inst i).stageOfEngine e with
      | some d => match (s.inst i).stage d.id with
        | some g => g.taint || (g.lineTaint && g.lastLine == line)
        | none => false
      | none => false
    | none => false
  (own &&& flagCarried) ||| flagIf (poison || t) flagTainted

/-- The flags of the operand tokens of a command. -/
def Engine.operandFlags (g : Engine) (d : Descr) : Byte := d.tags.foldl (fun f t => f ||| (SMap.get {} g.tags t).flags) 0

end Sys2Proof.Machine
end

