-- ==== Sys2Proof/Machine/Codes.lean ====
section
/-! DEFINITION. The codes that protect data outside the device: CRC-32 and CRC-32C (R36, R71), the BCH code of the flash
(R310 to R313), SHA-256 and ECDSA P-256 (R84). -/

namespace Sys2Proof.Machine

/-! ### CRCs -/

/-- `n` shifts of a reflected CRC register. -/
def crcShift (poly : Word) : Nat → Word → Word
  | 0, c => c
  | n + 1, c => crcShift poly n (if c.getLsbD 0 then (c >>> 1) ^^^ poly else c >>> 1)

/-- A reflected CRC with initial value and final XOR of all ones. -/
def crcOf (poly : Word) (bs : List Byte) : Word :=
  ~~~ (bs.foldl (fun c b => crcShift poly 8 (c ^^^ b.setWidth 32)) 0xFFFFFFFF)

/-- CRC-32 of IEEE 802.3 (R36). -/
def crc32 (bs : List Byte) : Word := crcOf 0xEDB88320 bs

/-- CRC-32C, Castagnoli polynomial 0x1EDC6F41 (R71). -/
def crc32c (bs : List Byte) : Word := crcOf 0x82F63B78 bs

/-! ### GF(2^15) and the BCH code (R310) -/

/-- Product in GF(2^15) by p(x) = x^15 + x + 1, over the bits of `b` from bit n − 1 down. -/
def gfMulN (a b : Nat) : Nat → Nat
  | 0 => 0
  | n + 1 =>
    let t := 2 * gfMulN a (b / 2) n
    let t := if t.testBit 15 then t ^^^ 0x8003 else t
    if b.testBit 0 then t ^^^ a else t

/-- Product in GF(2^15). -/
def gfMul (a b : Nat) : Nat := gfMulN a b 15

/-- a to the power e, for e below 2^n. -/
def gfPowN (a e : Nat) : Nat → Nat
  | 0 => 1
  | n + 1 =>
    let t := gfPowN (gfMul a a) (e / 2) n
    if e.testBit 0 then gfMul t a else t

/-- α to the power e; α has order 32,767. -/
def gfExp (e : Nat) : Nat := gfPowN 2 (e % 32767) 15

/-- Inverse of a non-zero element. -/
def gfInv (a : Nat) : Nat := gfPowN a 32766 15

/-- A polynomial over GF(2^15), lowest coefficient first, times (x + r). -/
def polyLin (r : Nat) (p : List Nat) : List Nat :=
  ((0 :: p).zip (p ++ [0])).map (fun c => c.1 ^^^ gfMul c.2 r)

/-- The minimal polynomial of α^i, as bits: the product over its 15 conjugates. -/
def minPoly (i : Nat) : Nat :=
  ((List.range 15).foldl (fun p j => polyLin (gfExp (i * 2 ^ j)) p) [1]).zipIdx.foldl
    (fun t c => if c.1 = 1 then t + 2 ^ c.2 else t) 0

/-- Product of polynomials over GF(2), held as bits, over the `n` low bits of b. -/
def clMul (a b : Nat) : Nat → Nat
  | 0 => 0
  | n + 1 => (clMul a b n) ^^^ (if b.testBit n then a <<< n else 0)

/-- The generator polynomial g(x), of degree 900. -/
def bchGen : Nat := (List.range 60).foldl (fun g i => clMul g (minPoly (2 * i + 1)) 16) 1

/-- Remainder of c, of at most n + 900 bits, by g. -/
def bchRem (g : Nat) : Nat → Nat → Nat
  | 0, c => c
  | n + 1, c => bchRem g n (if c.testBit (n + 900) then c ^^^ (g <<< n) else c)

/-- Message polynomial of 1,024 data bytes, bit 7 of byte 0 highest (R311). -/
def beNat : List Byte → Nat := fun bs => bs.foldl (fun t b => 256 * t + b.toNat) 0

/-- The codeword of 1,024 data bytes. -/
def bchCode (data : List Byte) : Nat :=
  let m := beNat data <<< 900
  m ^^^ bchRem bchGen 8192 m

/-- Big-endian bytes of a number. -/
def beBytes (n v : Nat) : List Byte := (leBytes n v).reverse

/-- The 1,137 bytes that a sector occupies on the flash: complemented data and parity, pad bits 1 (R311, R312). -/
def sectorBytes (data : List Byte) : List Byte :=
  let c := bchCode data
  (data ++ beBytes 113 (c % 2 ^ 900 * 16)).map (fun b => ~~~ b)

/-- The received codeword of a sector's raw bytes. -/
def sectorWord (raw : List Byte) : Nat :=
  let bs := (raw.take 1137).map (fun b => ~~~ b)
  beNat bs / 16

/-- c(x) at α^j, from bit n − 1 down. -/
def evalAt (c a : Nat) : Nat → Nat → Nat
  | 0, t => t
  | n + 1, t => evalAt c a n (gfMul t a ^^^ (if c.testBit n then 1 else 0))

/-- The 120 syndromes (R313). -/
def syndromes (c : Nat) : List Nat := (List.range 120).map (fun j => evalAt c (gfExp (j + 1)) 9092 0)

/-- Coefficient-wise sum of polynomials. -/
def polyAdd : List Nat → List Nat → List Nat
  | [], q => q
  | p, [] => p
  | a :: p, b :: q => (a ^^^ b) :: polyAdd p q

/-- State of the Berlekamp–Massey recursion. -/
structure Massey where
  c : List Nat
  b : List Nat
  l : Nat
  m : Nat
  d : Nat

/-- One step at syndrome n. -/
def Massey.step (ss : List Nat) (x : Massey) (n : Nat) : Massey :=
  let d := (List.range (x.l + 1)).foldl (fun t i => t ^^^ gfMul (x.c.getD i 0) (ss.getD (n - i) 0)) 0
  if d = 0 then { x with m := x.m + 1 }
  else
    let k := gfMul d (gfInv x.d)
    let c := polyAdd x.c (List.replicate x.m 0 ++ x.b.map (gfMul k))
    if 2 * x.l ≤ n then { c := c, b := x.c, l := n + 1 - x.l, m := 1, d := d }
    else { x with c := c, m := x.m + 1 }

/-- The error locator of a list of syndromes. -/
def errorLocator (ss : List Nat) : Massey :=
  (List.range 120).foldl (Massey.step ss) { c := [1], b := [1], l := 0, m := 1, d := 1 }

/-- Value of a polynomial, lowest coefficient first. -/
def polyEval (p : List Nat) (x : Nat) : Nat := p.foldr (fun c t => gfMul t x ^^^ c) 0

/-- Correct a received word by its error locator: it stands where the locator has up to 60 roots, as many as its degree. -/
def Massey.correct (x : Massey) (c : Nat) : Option (Nat × Nat) :=
  let roots := (List.range 9092).filter (fun k => polyEval x.c (gfExp (32767 - k)) == 0)
  if x.l ≤ 60 ∧ roots.length = x.l ∧ (x.c.drop (x.l + 1)).all (· == 0) then
    some (roots.foldl (fun c k => c ^^^ 2 ^ k) c, x.l)
  else none

/-- Decode a received word of these syndromes. -/
def bchCorrect (c : Nat) (ss : List Nat) : Option (Nat × Nat) :=
  if ss.all (· == 0) then some (c, 0) else (errorLocator ss).correct c

/-- Decode a received word: the codeword and the number of corrections, or none when uncorrectable (R313). -/
def bchDecode (c : Nat) : Option (Nat × Nat) := bchCorrect c (syndromes c)

/-- The data bytes of a received word and its corrections; an uncorrectable one keeps its bytes as received (R326). -/
def sectorData (w : Nat) : Option (Nat × Nat) → List Byte × Option Nat
  | some (c, v) => (beBytes 1024 (c / 2 ^ 900), some v)
  | none => (beBytes 1024 (w / 2 ^ 900), none)

/-- The data bytes of a sector and its corrections. -/
def sectorDecode (raw : List Byte) : List Byte × Option Nat := sectorData (sectorWord raw) (bchDecode (sectorWord raw))

/-! ### SHA-256 -/

/-- The largest r with r ^ k ≤ m, for r below 2^n: one bit at a time from the top. -/
def rootBits (k m : Nat) : Nat → Nat → Nat
  | 0, r => r
  | n + 1, r => rootBits k m n (if (r + 2 ^ n) ^ k ≤ m then r + 2 ^ n else r)

/-- Bits 32 to 1 of the fraction of the k-th root of p. -/
def rootFraction (k p : Nat) : Word := BitVec.ofNat 32 (rootBits k (p * 2 ^ (32 * k)) 40 0)

/-- The primes up to 311, in order: the first 64. -/
def primes64 : List Nat :=
  (List.range 312).filter (fun n => decide (2 ≤ n) && (List.range 18).all (fun d => d < 2 || n ≤ d || n % d != 0))

/-- The additive constant of each round: the fractions of the cube roots of the first 64 primes. -/
def shaK : List Word := primes64.map (rootFraction 3)

/-- The starting value: the fractions of the square roots of the first 8 primes. -/
def shaInit : List Word := (primes64.take 8).map (rootFraction 2)

/-- The message with its padding. -/
def shaPad (bs : List Byte) : List Byte :=
  let n := bs.length
  let z := (119 - n % 64) % 64
  bs ++ [0x80] ++ List.replicate z 0 ++ beBytes 8 (8 * n)

/-- XOR of a word rotated right by each of the amounts. -/
def rotXor (x : Word) (ns : List Nat) : Word := (ns.map x.rotateRight).foldl (· ^^^ ·) 0

/-- Extend the message schedule, newest first, by `n` words. -/
def shaExtend : Nat → List Word → List Word
  | 0, w => w
  | n + 1, w =>
    let far := w.getD 14 0
    let near := w.getD 1 0
    let mixed := (rotXor far [7, 18] ^^^ (far >>> 3)) + (rotXor near [17, 19] ^^^ (near >>> 10))
    shaExtend n ((mixed + w.getD 15 0 + w.getD 6 0) :: w)

/-- The eight working variables, a to h. -/
structure ShaVars where
  a : Word
  b : Word
  c : Word
  d : Word
  e : Word
  f : Word
  g : Word
  h : Word

/-- One round: `k` is its constant and `w` its word of the schedule. -/
def ShaVars.round (v : ShaVars) (k w : Word) : ShaVars :=
  let pick := ((v.e &&& v.f) ||| (~~~v.e &&& v.g))
  let most := (v.a &&& (v.b ||| v.c)) ||| (v.b &&& v.c)
  let t := v.h + rotXor v.e [6, 11, 25] + pick + (k + w)
  { a := t + (rotXor v.a [2, 13, 22] + most), b := v.a, c := v.b, d := v.c, e := v.d + t, f := v.e, g := v.f, h := v.g }

/-- Compress one block of 64 bytes. -/
def shaBlock (h : List Word) (bs : List Byte) : List Word :=
  let w0 := ((List.range 16).map (fun j => BitVec.ofNat 32 (beNat ((bs.drop (4 * j)).take 4)))).reverse
  let w := (shaExtend 48 w0).reverse
  match h with
  | [a, b, c, d, e, f, g, x] =>
    let v := (shaK.zip w).foldl (fun (v : ShaVars) (q : Word × Word) => v.round q.1 q.2) (ShaVars.mk a b c d e f g x)
    [a + v.a, b + v.b, c + v.c, d + v.d, e + v.e, f + v.f, g + v.g, x + v.h]
  | _ => h

/-- Compress `n` blocks. -/
def shaBlocks : Nat → List Byte → List Word → List Word
  | 0, _, h => h
  | n + 1, bs, h => shaBlocks n (bs.drop 64) (shaBlock h (bs.take 64))

/-- SHA-256 of bytes, as 32 bytes. -/
def sha256 (bs : List Byte) : List Byte :=
  let p := shaPad bs
  (shaBlocks (p.length / 64) p shaInit).flatMap (fun w => beBytes 4 w.toNat)

/-! ### ECDSA over P-256 -/

def p256P : Nat := 0xffffffff00000001000000000000000000000000ffffffffffffffffffffffff
def p256N : Nat := 0xffffffff00000000ffffffffffffffffbce6faada7179e84f3b9cac2fc632551
def p256B : Nat := 0x5ac635d8aa3a93e7b3ebbd55769886bc651d06b0cc53b0f63bce3c3e27d2604b
def p256G : Nat × Nat :=
  (0x6b17d1f2e12c4247f8bce6e563a440f277037d812deb33a0f4a13945d898c296,
   0x4fe342e2fe1a7f9b8ee7eb4a7c0f9e162bce33576b315ececbb6406837bf51f5)

/-- a^e mod m, for e below 2^n. -/
def powMod (m a e : Nat) : Nat → Nat
  | 0 => 1 % m
  | n + 1 =>
    let t := powMod m (a * a % m) (e / 2) n
    if e.testBit 0 then t * a % m else t

/-- Inverse modulo a prime of 256 bits. -/
def invMod (m a : Nat) : Nat := powMod m (a % m) (m - 2) 256

/-- Sum of two points; none is the point at infinity. -/
def ecAdd : Option (Nat × Nat) → Option (Nat × Nat) → Option (Nat × Nat)
  | none, q => q
  | p, none => p
  | some (x1, y1), some (x2, y2) =>
    let p := p256P
    if x1 = x2 ∧ (y1 + y2) % p = 0 then none
    else
      let l :=
        if x1 = x2 then (3 * x1 * x1 + (p - 3)) * invMod p (2 * y1) % p
        else (y2 + p - y1) * invMod p (x2 + p - x1) % p
      let x3 := (l * l + 2 * p - x1 - x2) % p
      some (x3, (l * (x1 + p - x3) + p - y1) % p)

/-- k times a point, for k below 2^n. -/
def ecMul (k : Nat) (q : Option (Nat × Nat)) : Nat → Option (Nat × Nat)
  | 0 => none
  | n + 1 =>
    let t := ecMul (k / 2) (ecAdd q q) n
    if k.testBit 0 then ecAdd t q else t

/-- Does (r, s) sign the hash `h` under the public key? -/
def ecdsaVerify (h : List Byte) (key : Nat × Nat) (r s : Nat) : Bool :=
  let e := beNat h
  let w := invMod p256N s
  let onCurve := decide (key.1 < p256P) && decide (key.2 < p256P)
    && (key.2 * key.2) % p256P == (key.1 * key.1 * key.1 + (p256P - 3) * key.1 + p256B) % p256P
  onCurve && decide (1 ≤ r) && decide (r < p256N) && decide (1 ≤ s) && decide (s < p256N) &&
    (match ecAdd (ecMul (e * w % p256N) (some p256G) 256) (ecMul (r * w % p256N) (some key) 256) with
     | some x => x.1 % p256N == r
     | none => false)

end Sys2Proof.Machine
end

