-- ==== Sys2Proof/Machine/StoreOps.lean ====
section
/-! DEFINITION. The record store's shared operations: the array, the journal, transactions, partitions, completions,
relocation and bad blocks (R307 to R309, R314, R315, R318 to R321, R323 to R328, R336). -/

namespace Sys2Proof.Machine

def State.setStore (s : State) (x : Store) : State := { s with store := x }
def State.modStore (s : State) (g : Store → Store) : State := { s with store := g s.store }

/-! ### Transactions, pages and entries as bytes -/

/-- The whole payload: what stands ahead of the records, then the records in acceptance order (R320). -/
def Txn.bytes (t : Txn) : List Byte := t.payload ++ t.records.flatten

/-- Payload bytes of a page (R314). -/
def pageCap : Nat := 16320

/-- Bytes in pieces of a page each, at most `n` of them. -/
def pageChunks : Nat → List Byte → List (List Byte)
  | 0, _ => []
  | n + 1, bs => if bs.isEmpty then [] else bs.take pageCap :: pageChunks n (bs.drop pageCap)

/-- The pieces of a payload. -/
def chunksOf (bs : List Byte) : List (List Byte) := pageChunks (ceilDiv bs.length pageCap) bs

/-- Page index of the first record page (R314). Record pages are programmed before the summary and map that come ahead of
them in the payload, so their indices leave room for the largest of those. DESIGN CHOICE (log entry 72). -/
def recBase : Nat := 258

/-- The magic that opens a page header. -/
def pageMagic : List Byte := [0x56, 0x59, 0x4C, 0x53]

/-- The 64-byte page header (R314). -/
def Page.header (p : Page) : List Byte :=
  let h := pageMagic ++ [BitVec.ofNat 8 p.kind, BitVec.ofNat 8 p.part, 0, 0] ++ leBytes 8 p.seq
    ++ leBytes 8 p.txn ++ leBytes 4 p.index ++ leBytes 4 p.payload.length ++ leBytes 4 p.erases ++ List.replicate 24 0
  h ++ leBytes 4 (crc32c (h ++ p.payload)).toNat

/-- The 16,384 bytes that the 16 sectors of a page carry. -/
def Page.data (p : Page) : List Byte := (p.header ++ p.payload ++ List.replicate pageCap 0).take 16384

/-- The 18,192 columns that Lenuk programs for a page (R311, R312, R314): what PAGE_PROGRAM_DONE leaves on the flash. -/
def Page.columns (p : Page) : List Byte :=
  (List.range 16).flatMap (fun j => sectorBytes ((p.data.drop (1024 * j)).take 1024))

/-- A journal entry's bytes ahead of its CRC. -/
def JEntry.head (e : JEntry) : List Byte :=
  [BitVec.ofNat 8 e.type, BitVec.ofNat 8 e.part, BitVec.ofNat 8 e.inst, BitVec.ofNat 8 e.count, 0, 0, 0, 0]
    ++ leBytes 8 e.txn ++ (e.body ++ List.replicate 44 0).take 44

/-- A journal entry's 64 bytes (R318). -/
def JEntry.bytes (e : JEntry) : List Byte := e.head ++ leBytes 4 (crc32c e.head).toNat

/-- The entry that 64 bytes hold: its CRC checks, and its type is one of R319. -/
def parseEntry (bs : List Byte) : Option JEntry :=
  let t := leField bs 0 1
  if (crc32c (bs.take 60)).toNat = leField bs 60 4 ∧ 1 ≤ t ∧ t ≤ 10 then
    some { type := t, part := leField bs 1 1, inst := leField bs 2 1, count := leField bs 3 1, txn := leField bs 8 8
           body := (bs.drop 16).take 44 }
  else none

/-! ### The array (R307 to R309) -/

/-- Does a target's parameter page let it take part (R308)? A target has 1 to 4 LUNs (R307). -/
def nandAdmits (p : Config.NandParam) : Bool :=
  p.present && p.crcOk && p.main == 16384 && decide (1808 ≤ p.spare)
    && ([64, 128, 256, 512, 1024, 2048, 4096].contains p.pages) && decide (p.blocks ≤ 8192) && decide (1 ≤ p.luns)
    && decide (p.luns ≤ 4) && decide (p.ecc ≤ 60)

/-- The same geometry. -/
def sameShape (p q : Config.NandParam) : Bool :=
  p.main == q.main && p.spare == q.spare && p.pages == q.pages && p.blocks == q.blocks && p.luns == q.luns

/-- The targets of the array: those that pass and have the geometry of the lowest that passes; a target that has not
acknowledged does not pass (R308, R309). -/
def arrayTargets (silent : List Nat) : List Nat :=
  let ok := (List.range 32).filter (fun t => nandAdmits (Config.nandParam t) && !silent.contains t)
  match ok with
  | [] => []
  | r :: _ => ok.filter (fun t => sameShape (Config.nandParam r) (Config.nandParam t))

/-- The rate that STO_CTRL.rate allows, in MT/s. -/
def rateLimit (n : Nat) : Nat := ([1200, 800, 400] : List Nat).getD n 200

/-- The fastest advertised rate within the limit; 0 where there is none, and the interface stays in SDR mode 0. -/
def rateOf (limit : Nat) (p : Config.NandParam) : Nat := (p.rates.filter (· ≤ limit)).foldl max 0

/-- STO_TARGETS and the data interfaces follow the targets that take part. -/
def State.arrayUp (s : State) : State :=
  let ts := arrayTargets s.store.silent
  (s.wr Reg.STO_TARGETS (BitVec.ofNat 32 (ts.foldl (fun m t => m + 2 ^ t) 0))).modStore (fun y =>
    { y with rates := ts.foldl (fun m t =>
        SMap.set 0 t (rateOf (rateLimit (s.fld Reg.STO_CTRL 5 4)) (Config.nandParam t)) m) [] })

/-- The initialisation that follows a reset of the store (R309): RESET, the parameter pages in SDR timing mode 0, the
timing mode, and ZQ calibration. TARGET_TIMEOUT then leaves out the targets that do not acknowledge. -/
def State.initStore (s : State) : State := (s.modStore (fun y => { y with initing := true, silent := [] })).arrayUp

/-- Block of a page address. -/
def blockOf (a : Nat) : Nat := a / 4096
/-- Target 4c + e of a page address (R315). -/
def targetOf (a : Nat) : Nat := a / 2 ^ 27
/-- Channel of a target. -/
def channelOf (t : Nat) : Nat := t / 4

/-- Is target t in the array (STO_TARGETS)? -/
def State.targetOn (s : State) (t : Nat) : Bool := (s.rd Reg.STO_TARGETS).getLsbD t
/-- The present targets. -/
def State.targets (s : State) : List Nat := (List.range 32).filter s.targetOn

/-- The geometry that the present targets share. -/
def State.geo (s : State) : Config.NandParam := Config.nandParam (s.targets.headD 0)

def State.blk (s : State) (b : Nat) : BlockInfo := SMap.get {} s.store.blocks b
def State.setBlk (s : State) (b : Nat) (x : BlockInfo) : State :=
  s.modStore (fun y => { y with blocks := SMap.set {} b x y.blocks })

/-- The blocks of target t: LUN in bits 14:13, block in bits 12:0 below the target. -/
def State.targetBlocks (s : State) (t : Nat) : List Nat :=
  (List.range s.geo.luns).flatMap (fun l => (List.range s.geo.blocks).map (fun b => 2 ^ 15 * t + 2 ^ 13 * l + b))

/-- The blocks of the array. -/
def State.allBlocks (s : State) : List Nat := s.targets.flatMap s.targetBlocks

/-- The target that a superblock copy keeps to (R316): target 0, and the lowest present target on channel 1. -/
def State.superTarget (s : State) (copy : Nat) : Option Nat :=
  if copy = 0 then (if s.targetOn 0 then some 0 else none) else [4, 5, 6, 7].find? s.targetOn

/-- Its block: the lowest good one from 0 to 15. -/
def State.superBlock (s : State) (copy : Nat) : Option Nat :=
  match s.superTarget copy with
  | some t => ((List.range 16).map (fun b => 2 ^ 15 * t + b)).find? (fun b => (s.blk b).st != 2)
  | none => none

/-- Blocks 0 to 15 of the two superblock targets hold nothing else, so that the lowest good one is always the copy's.
DESIGN CHOICE (log entry 72). -/
def State.superZone (s : State) (b : Nat) : Bool :=
  [0, 1].any (fun c => match s.superTarget c with | some t => decide (2 ^ 15 * t ≤ b) && decide (b < 2 ^ 15 * t + 16) | none => false)

/-- Free blocks of target t with the lowest erase count (R325). -/
def State.freeLowest (s : State) (t : Nat) : List Nat :=
  let fs := (s.targetBlocks t).filter (fun b => (s.blk b).st == 0 && !s.superZone b)
  fs.filter (fun b => fs.all (fun c => decide ((s.blk b).erases ≤ (s.blk c).erases)))

/-- Blocks of the array in a state: 0 for STO_FREE, 3 for STO_SPARE. -/
def State.countBlocks (s : State) (st : Nat) : Nat :=
  (s.allBlocks.filter (fun b => (s.blk b).st == st && !s.superZone b)).length

/-- One of a list, chosen by a free value. -/
def State.pickOf (s : State) (l : List Nat) : Option Nat × State :=
  let r := s.draw
  (l[r.1.toNat % (max l.length 1)]?, if l.length ≤ 1 then s else r.2)

/-! ### Allocation (R315, R325) -/

/-- The target of a list whose turn it is: the one allocated from longest ago. -/
def State.nextTarget (s : State) (ts : List Nat) : Option Nat :=
  (s.targets.filter (fun t => !s.store.turn.contains t) ++ s.store.turn).find? ts.contains

/-- Target t has had its turn. -/
def State.turned (s : State) (t : Nat) : State :=
  s.modStore (fun y => { y with turn := y.turn.filter (· != t) ++ [t], lastChannel := channelOf t })

/-- A new block of target t: one of its free blocks with the lowest erase count; which of equally worn ones is a free
value. -/
def State.takeBlock (s : State) (t : Nat) : Option (Nat × State) :=
  let q := s.pickOf (s.freeLowest t)
  match q.1 with
  | some b => some (b, q.2.setBlk b { q.2.blk b with st := 1 })
  | none => none

/-- A page for the next program. The allocator rotates over the targets, on another channel than the last where it can. -/
def State.allocPage (s : State) : Option (Nat × State) :=
  let room (t : Nat) : Bool := (SMap.find s.store.opens t).isSome || !(s.freeLowest t).isEmpty
  let ts := s.targets.filter room
  let far := ts.filter (fun t => channelOf t != s.store.lastChannel)
  match s.nextTarget (if far.isEmpty then ts else far) with
  | none => none
  | some t =>
    let b : Option (Nat × State) := match SMap.find s.store.opens t with
      | some a => some (a, s)
      | none => (s.takeBlock t).map (fun q => (4096 * q.1, q.2))
    match b with
    | none => none
    | some (a, s) =>
      let next := if a % 4096 + 1 < s.geo.pages then SMap.put t (a + 1) s.store.opens else SMap.del t s.store.opens
      some (a, (s.modStore (fun y => { y with opens := next })).turned t)

/-- A whole free block on a target whose channel `ok` admits. -/
def State.allocBlock (s : State) (ok : Nat → Bool) : Option (Nat × State) :=
  let ts := s.targets.filter (fun t => ok (channelOf t) && !(s.freeLowest t).isEmpty)
  match s.nextTarget ts with
  | none => none
  | some t => (s.takeBlock t).map (fun q => (q.1, q.2.turned t))

/-! ### The journal (R318, R319) -/

/-- An entry waits for the next journal page. -/
def State.journal (s : State) (e : JEntry) : State := s.modStore (fun y => { y with jbuf := y.jbuf ++ [e] })

/-- An entry of no transaction. -/
def JEntry.plain (type count : Nat) (body : List Byte) : JEntry :=
  { type := type, part := 0, inst := 0xFF, count := count, txn := 0, body := body }

/-- Page addresses as a journal body. -/
def addrBody (as : List Nat) : List Byte := as.flatMap (leBytes 4)

/-- The next journal block and its copy, on targets of different channels (R318). -/
def State.newPair (s : State) : Option (Nat × Nat × State) :=
  match s.allocBlock (fun _ => true) with
  | none => none
  | some (b, s) =>
    match s.allocBlock (fun c => c != channelOf (targetOf (4096 * b))) with
    | none => none
    | some (c, s) => some (b, c, s.modStore (fun y => { y with jchain := y.jchain ++ [(b, b, c)] }))

/-- A journal block is in use: the one in hand, or a new pair where there is room. -/
def State.openJournal (s : State) : State :=
  match s.store.jopen with
  | some _ => s
  | none =>
    match s.newPair with
    | some (b, c, s) => s.modStore (fun y => { y with jopen := some (4096 * b, 4096 * c) })
    | none => s

/-- Program the oldest waiting entries as one journal page, twice with equal seq. The last page of a block ends with JNEXT.
None when the array has no room for it: the entries wait. -/
def State.journalPage (s : State) : Option State :=
  let s := s.openJournal
  match s.store.jopen with
  | none => none
  | some (a, c) =>
    let last := decide (s.geo.pages ≤ a % 4096 + 1)
    let nx := if last then s.newPair else none
    let s := match nx with | some (_, _, s) => s | none => s
    let n := if nx.isSome then 254 else 255
    let es := s.store.jbuf.take n
    let es := match nx with | some (b, _, _) => es ++ [JEntry.plain 9 1 (leBytes 4 (4096 * b))] | none => es
    let next := if last then nx.map (fun (q : Nat × Nat × State) => (4096 * q.1, 4096 * q.2.1)) else some (a + 1, c + 1)
    let job (x : Nat) : PageJob :=
      { addr := x, commits := (es.filter (fun e => e.type == 3)).map (·.txn)
        page := { kind := 2, part := 0, seq := s.store.seq, txn := 0, index := x % 4096, payload := es.flatMap JEntry.bytes
                  erases := (s.blk (blockOf x)).erases } }
    some (s.modStore (fun y => { y with jbuf := y.jbuf.drop n, jopen := next, seq := y.seq + 1, jpages := y.jpages + 1
                                        todo := y.todo ++ [job a, job c] }))

/-- Program the waiting entries, at most `n` pages of them. -/
def State.flushPages (s : State) : Nat → State
  | 0 => s
  | n + 1 =>
    if s.store.jbuf.isEmpty then s
    else match s.journalPage with
      | some s => s.flushPages n
      | none => s

/-- Program every waiting entry for which the array has room. -/
def State.flushJournal (s : State) : State := s.flushPages s.store.jbuf.length

/-- EXTENT entries of up to 8 addresses each, at most `n` of them. -/
def State.extents (s : State) (t : Txn) : Nat → List Nat → State
  | 0, _ => s
  | n + 1, as =>
    if as.isEmpty then s
    else (s.journal { type := 2, part := t.part, inst := t.inst, count := (as.take 8).length, txn := t.num,
                      body := addrBody (as.take 8) }).extents t n (as.drop 8)

/-! ### Transactions (R320, R321) -/

def State.txn (s : State) (n : Nat) : Option Txn := s.store.txns.find? (fun t => t.num == n)
def State.setTxn (s : State) (t : Txn) : State :=
  s.modStore (fun y => { y with txns := y.txns.map (fun u => if u.num == t.num then t else u) })
def State.modTxn (s : State) (n : Nat) (g : Txn → Txn) : State :=
  s.modStore (fun y => { y with txns := y.txns.map (fun u => if u.num == n then g u else u) })

/-- May the store take new transactions? -/
def State.storeOpen (s : State) : Bool := s.store.st == 2

/-- A transaction is refused (R328): STO_LOST. -/
def State.txnLost (s : State) : State := s.count Reg.STO_LOST

/-- Open a transaction with the next number (R320). -/
def State.openTxn (s : State) (kind part inst sheet index : Nat) (payload : List Byte) : Nat × State :=
  let n := s.store.nextTxn
  let t : Txn := { num := n, kind := kind, part := part, inst := inst, payload := payload, sheet := sheet, index := index }
  (n, (s.modStore (fun y => { y with nextTxn := n + 1, txns := y.txns ++ [t] })).wr64 Reg.STO_TXN_LO Reg.STO_TXN_HI (n + 1))

/-- BEGIN, with the number of pages and the first of their addresses (R319). -/
def State.beginTxn (s : State) (t : Txn) (total : Nat) (as : List Nat) : State :=
  (s.journal { type := 1, part := t.part, inst := t.inst, count := (as.take 8).length, txn := t.num,
               body := leBytes 4 t.kind ++ leBytes 4 total ++ addrBody (as.take 8) }).modTxn t.num (fun u => { u with begun := true })

/-- BEGIN of an edition that its first record opens (R321). Its pages are still to come, and the manual does not say what
the total then reads: an open value. -/
def State.beginOpen (s : State) (n : Nat) : State :=
  let r := s.draw
  match r.2.txn n with
  | some t => r.2.beginTxn t (r.1.toNat % 2 ^ 32) []
  | none => s

/-- Allocate a page for each piece while there is room. -/
def State.allocAll (s : State) : List (List Byte) → List (Nat × List Byte) → List (Nat × List Byte) × State
  | [], acc => (acc.reverse, s)
  | c :: cs, acc =>
    match s.allocPage with
    | none => (acc.reverse, s)
    | some (a, s) => s.allocAll cs ((a, c) :: acc)

/-- Queue the program of a data page, behind the journal pages that are queued. -/
def State.queuePage (s : State) (a : Nat) (p : Page) (old : Option Nat) : State :=
  s.modStore (fun y => { y with seq := y.seq + 1
                                todo := y.todo ++ [{ addr := a, old := old, after := y.seq
                                                     page := { p with seq := y.seq, erases := (s.blk (blockOf a)).erases } }] })

/-- Queue the programs of data pages of transaction t, whose first has index `k`. -/
def State.queueData (s : State) (t : Txn) (k : Nat) (ps : List (Nat × List Byte)) : State :=
  ps.zipIdx.foldl (fun s q =>
    s.queuePage q.1.1 { kind := 3, part := t.part, seq := 0, txn := t.num, index := k + q.2, payload := q.1.2 } none) s

/-- Place what is not yet in pages: the payload ahead of the records when `all`, and the records, whole pages only unless
`all` (R321). BEGIN and EXTENT name the pages before they are programmed (R320). -/
def State.placePages (s : State) (n : Nat) (all : Bool) : State :=
  match s.txn n with
  | none => s
  | some t =>
    let recs := t.records.flatten.drop t.placed
    let recs := if all then recs else recs.take (recs.length / pageCap * pageCap)
    let a := s.allocAll (if all then (chunksOf t.payload).drop t.pages.length else []) []
    let b := a.2.allocAll (chunksOf recs) []
    let as := (a.1 ++ b.1).map (·.1)
    let s := if t.begun then b.2.extents t as.length as
      else (b.2.beginTxn t (chunksOf t.payload).length as).extents t as.length (as.drop 8)
    let s := if t.begun && as.isEmpty then s else s.flushJournal
    let s := (s.queueData t t.pages.length a.1).queueData t (recBase + t.recPages.length) b.1
    s.modTxn n (fun t => { t with pages := t.pages ++ a.1.map (·.1), recPages := t.recPages ++ b.1.map (·.1)
                                  placed := t.placed + (b.1.map (fun p => p.2.length)).sum })

/-- Is every byte of a transaction in a page? -/
def Txn.allPlaced (t : Txn) : Bool :=
  t.pages.length == (chunksOf t.payload).length && t.placed == t.records.flatten.length

/-- A transaction stands whole (R321): the rest of it is placed in pages. -/
def State.standWhole (s : State) (n : Nat) : State :=
  (s.placePages n true).modTxn n (fun t => { t with phase := 1 })

/-- A transaction of one payload, whole at once: BEGIN, its pages, and the COMMIT when they are programmed. -/
def State.wholeTxn (s : State) (kind part inst sheet index : Nat) (payload : List Byte) : Nat × State :=
  let r := s.openTxn kind part inst sheet index payload
  (r.1, r.2.standWhole r.1)

/-- Commit buffer bytes of instance i that are not yet on the medium (R321, STO_I_STAT). -/
def State.bufUsed (s : State) (i : Nat) : Nat :=
  s.store.txns.foldl (fun n t => if t.inst = i ∧ t.phase < 2 then n + (t.bytes.length - t.onMedium) else n) 0

/-! ### Partitions (R323, R324) -/

/-- The records partition of instance i: the valid one with owner i and the lowest index. -/
def State.partOf (s : State) (i : Nat) : Option Nat :=
  ((List.range 14).map (· + 2)).find? (fun p => s.bit (Reg.STO_P_CFG p) 31 && s.fld (Reg.STO_P_CFG p) 27 24 == i)

/-- Bytes that the committed transactions of partition p hold. -/
def State.partBytes (s : State) (p : Nat) : Nat :=
  s.store.txns.foldl (fun n t => if t.part = p ∧ t.phase = 2 then n + t.bytes.length else n) 0

/-- STO_P_USED: MiB in use, a part of one counted as one. -/
def State.partUsed (s : State) (p : Nat) : State :=
  s.wr (Reg.STO_P_USED p) (BitVec.ofNat 32 (ceilDiv (s.partBytes p) 0x100000 % 0x10000))

/-- The quota of partition p in bytes. A partition that is not in use has none; of those only 0 and 1 take transactions. -/
def State.quota (s : State) (p : Nat) : Option Nat :=
  if s.bit (Reg.STO_P_CFG p) 31 then some (0x100000 * s.fld (Reg.STO_P_CFG p) 15 0) else none

/-- Transaction t is released; its pages free with their blocks. -/
def State.endTxn (s : State) (t : Txn) : State := (s.modTxn t.num (fun u => { u with phase := 4 })).partUsed t.part

/-- RELEASE, with the highest released number and the reason: 0 trim, 1 wrap, 2 superseded (R319). -/
def State.journalRelease (s : State) (t : Txn) (reason : Nat) : State :=
  s.journal { type := 5, part := t.part, inst := t.inst, count := 0, txn := t.num, body := leBytes 8 t.num ++ [BitVec.ofNat 8 reason] }

/-- Release one committed transaction. -/
def State.releaseTxn (s : State) (t : Txn) (reason : Nat) : State := (s.journalRelease t reason).endTxn t

/-- The newest adaptation checkpoint of partition p. -/
def State.newestCheckpoint (s : State) (p : Nat) : Option Nat :=
  s.store.txns.foldl (fun b t => if t.part = p ∧ t.kind = 2 ∧ t.phase = 2 then some t.num else b) none

/-- Release the oldest committed transactions of partition p until `need` more bytes fit its quota (R323). -/
def State.wrapPart (s : State) (p need quota : Nat) : Nat → State
  | 0 => s
  | fuel + 1 =>
    if s.partBytes p + need ≤ quota then s
    else
      match s.store.txns.find? (fun t => t.part == p && t.phase == 2 && s.newestCheckpoint p != some t.num) with
      | none => s
      | some t => ((s.releaseTxn t 1).count (Reg.STO_P_WRAPPED p)).wrapPart p need quota fuel

/-- The quota of R323 before a commit of transaction n: wrap, or remove the records. -/
def State.meetQuota (s : State) (n : Nat) : State :=
  match s.txn n with
  | none => s
  | some t =>
    match s.quota t.part with
    | none => s
    | some quota =>
      if s.partBytes t.part + t.bytes.length ≤ quota then s
      else if s.bit (Reg.STO_P_CFG t.part) 23 then s.wrapPart t.part t.bytes.length quota s.store.txns.length
      else
        let s := s.countBy (Reg.STO_P_LOST t.part) t.records.length
        (s.modTxn n (fun t => { t with records := [], recPages := [], placed := 0 })).event Reg.STO_EVT 4

/-- COMMIT body (R319). -/
def Txn.commitBody (t : Txn) : List Byte :=
  leBytes 8 t.bytes.length ++ leBytes 4 (crc32c t.bytes).toNat ++ leBytes 4 t.sheet ++ leBytes 4 t.index
    ++ [BitVec.ofNat 8 t.status]

/-- Page programs in hand, with those that wait for a place. -/
def Store.jobsLeft (y : Store) : List PageJob := y.todo ++ y.unplaced

/-- Pages of transaction n still to be programmed. -/
def State.pagesLeft (s : State) (n : Nat) : Nat :=
  (s.store.jobsLeft.filter (fun j => j.page.kind == 3 && j.page.txn == n && j.old.isNone)).length

/-- The COMMIT entry of transaction n, after its quota. -/
def State.journalCommit (s : State) (n : Nat) : State :=
  let s := s.meetQuota n
  match s.txn n with
  | none => s
  | some t => (s.modTxn n (fun t => { t with journalled := true })).journal
      { type := 3, part := t.part, inst := t.inst, count := 0, txn := n, body := t.commitBody }

/-- The second phase of R320: a whole transaction with every page programmed journals its COMMIT. A store that is closing
journals the COMMITs together (R330). -/
def State.tryCommit (s : State) (n : Nat) : State :=
  match s.txn n with
  | none => s
  | some t =>
    if t.phase ≠ 1 ∨ t.journalled ∨ !t.allPlaced ∨ s.pagesLeft n ≠ 0 ∨ s.store.closing.isSome then s
    else (s.journalCommit n).flushJournal

/-- Take a transaction whole; its COMMIT follows at once where nothing is left to program. -/
def State.wholeAndCommit (s : State) (kind part inst sheet index : Nat) (payload : List Byte) : Nat × State :=
  let r := s.wholeTxn kind part inst sheet index payload
  (r.1, r.2.tryCommit r.1)

/-- Write a system object (R320, kind 4): object type, then contents. -/
def State.writeSystem (s : State) (type : Nat) (bs : List Byte) : Nat × State :=
  s.wholeAndCommit 4 0 0xFF 0 0 (leBytes 4 type ++ bs)

/-- Is t a system object of this type? -/
def Txn.isObject (t : Txn) (type : Nat) : Bool := t.kind == 4 && leField t.payload 0 4 == type

/-! ### Completions (R336) -/

/-- Device queue of a command or completion queue: the manager names a device queue, an instance a local id. -/
def State.stoQueue (s : State) (f n : Nat) : Option Nat := if f = 0 then some n else s.localQueue (f - 1) n

def State.stoCq (s : State) (f : Nat) : Option Nat :=
  s.stoQueue f (if f = 0 then s.fld Reg.STO_CMDQ 29 16 else s.fld (Reg.STO_I_QUEUES (f - 1)) 29 16)
def State.stoSq (s : State) (f : Nat) : Option Nat :=
  s.stoQueue f (if f = 0 then s.fld Reg.STO_CMDQ 13 0 else s.fld (Reg.STO_I_QUEUES (f - 1)) 13 0)

/-- Post one completion on function f's completion queue (R336). -/
def State.stoComplete (s : State) (f : Nat) (tag : Word) (status bytes txn : Nat) : State :=
  let e : Entry := { bytes := leBytes 4 tag.toNat ++ [BitVec.ofNat 8 status] ++ leBytes 4 bytes ++ leBytes 8 txn
                       ++ List.replicate 47 0, at_ := s.now }
  match s.stoCq f with
  | some q => if (s.queue q).qkind = qD2H then s.pushDrop q e else s
  | none => s

/-- Use of the transaction's partition has passed STO_P_CFG.warn percent, from `before` bytes to what it is now. -/
def State.warnPart (s : State) (p before : Nat) : State :=
  let c := Reg.STO_P_CFG p
  let line := 0x100000 * (s.fld c 15 0 * s.fld c 22 16)
  if 0 < s.fld c 22 16 ∧ 100 * before ≤ line ∧ line < 100 * s.partBytes p then s.event Reg.STO_EVT 3 else s

/-- A transaction has reached the medium: its counters, events and notification (R321, R323, R324, R336). -/
def State.committed (s : State) (n : Nat) : State :=
  match s.txn n with
  | none => s
  | some t =>
    let before := s.partBytes t.part
    let s := s.setTxn { t with phase := 2, onMedium := t.bytes.length }
    let s := if t.kind = 3 then
        s.store.txns.foldl (fun s u =>
          if u.kind = 3 ∧ u.phase = 2 ∧ u.index = t.index ∧ u.num ≠ n then s.releaseTxn u 2 else s) s
      else s
    let s := (s.partUsed t.part).warnPart t.part before
    if t.inst < 8 then
      let s := (s.count (Reg.STO_I_COMMITS t.inst)).event (Reg.STO_I_EVT t.inst) 0
      if s.bit (Reg.STO_I_CTRL t.inst) 0 then s.stoComplete (t.inst + 1) 0xFFFFFFFF 0 0 n else s
    else s

/-! ### Relocation and bad blocks (R325 to R328) -/

/-- Does programmed page a hold live data: a page of a transaction that is not ended, or a page of a journal block that the
newest map does not cover? -/
def State.livePage (s : State) (a : Nat) : Bool :=
  s.store.txns.any (fun t => decide (t.phase ≤ 2) && (t.pages.contains a || t.recPages.contains a))
    || (s.store.jchain.any (fun q => q.2.1 == blockOf a || q.2.2 == blockOf a)
      && (match SMap.find s.store.pages a with | some p => p.kind == 2 && decide (s.store.mapSeq < p.seq) | none => false))

/-- The live pages of block b. -/
def State.liveIn (s : State) (b : Nat) : List Nat :=
  (s.store.pages.map (·.1)).filter (fun a => blockOf a == b && s.livePage a)

/-- A page has moved: every transaction names the new address (MOVE). -/
def State.movePage (s : State) (a b : Nat) : State :=
  let sub (l : List Nat) : List Nat := l.map (fun x => if x = a then b else x)
  s.modStore (fun y => { y with txns := y.txns.map (fun t =>
    { t with pages := sub t.pages, recPages := sub t.recPages, badPages := sub t.badPages }) })

/-- Queue a read of one page: a scan, or a relocation to `dest` or to a place still to be found. -/
def State.readPage (s : State) (op p : Nat) (dest : Option Nat) : State :=
  s.modStore (fun y => { y with jobs := y.jobs ++ [{ op := op, fn := 0, tag := 0, part := 0, txn := 0, addr := p, offset := 0
                                                     length := 0, got := [], pages := [(p, pageCap)], bad := false, dest := dest }] })

/-- A block and page address `x` of block b, moved to block c. -/
def sameIndex (b c x : Nat) : Nat := if blockOf x = b then 4096 * c + x % 4096 else x

/-- Block b of the journal gives way to a free block on a channel that its other copy does not use; the pages in hand and
the next page go there at the same place in the block. None where b is no journal block or there is no room. -/
def State.moveJournal (s : State) (b : Nat) : Option (Nat × State) :=
  match s.store.jchain.find? (fun p => p.2.1 == b || p.2.2 == b) with
  | none => none
  | some p =>
    let other := if p.2.1 = b then p.2.2 else p.2.1
    match s.allocBlock (fun c => c != channelOf (targetOf (4096 * other))) with
    | none => none
    | some (c, s) =>
      let sub (x : Nat) : Nat := if x = b then c else x
      some (c, s.modStore (fun y =>
        { y with jchain := y.jchain.map (fun q => (q.1, sub q.2.1, sub q.2.2))
                 jopen := y.jopen.map (fun q => (sameIndex b c q.1, sameIndex b c q.2))
                 todo := y.todo.map (fun j => if j.page.kind = 2 then { j with addr := sameIndex b c j.addr } else j) }))

/-- Is t a map object? -/
def Txn.isMap (t : Txn) : Bool := t.isObject 1

/-- Does page a belong to a map object? The superblock names its first page, so a map does not move: a new one is written
(`State.mapCare`). -/
def State.mapPage (s : State) (a : Nat) : Bool := s.store.txns.any (fun t => t.isMap && t.pages.contains a)

/-- The live pages of block b are read and copied to new places, then the block is erased (R325); the old pages serve until
the copies stand. Relocation is a notice (R337). A block already on its way is left. -/
def State.relocate (s : State) (b : Nat) : State :=
  if s.store.erasing.contains b then s
  else
    let s := s.modStore (fun y => { y with opens := y.opens.filter (fun o => blockOf o.2 != b), erasing := insKey b y.erasing })
    let m := s.moveJournal b
    let s := match m with | some (_, s) => s | none => s
    let s := ((s.liveIn b).filter (fun a => !s.mapPage a)).foldl (fun s a =>
      match SMap.find s.store.pages a, m with
      | some p, some (c, _) => s.readPage 0x13 a (if p.kind = 2 then some (4096 * c + a % 4096) else none)
      | some p, none => if p.kind = 2 then s else s.readPage 0x13 a none
      | none, _ => s) s
    ((s.count Reg.STO_RELOCS).event Reg.STO_EVT 1).report 0x0C 0x0001 0 none 0 0xFFFF 0

/-- The journal names the new place of a page that has never stood at the old one. -/
def State.renamePage (s : State) (a b : Nat) : State := (s.movePage a b).journal (JEntry.plain 6 2 (addrBody [a, b]))

/-- Pages that wait for a place take one while there is room. -/
def State.placeWaiting (s : State) : State :=
  s.store.unplaced.foldl (fun s j =>
    match s.allocPage with
    | none => s.modStore (fun y => { y with unplaced := y.unplaced ++ [j] })
    | some (a, s) => (if j.old.isNone then s.renamePage j.addr a else s).queuePage a j.page j.old)
    (s.modStore (fun y => { y with unplaced := [] }))

/-- Whole transactions with bytes that found no room take pages again. -/
def State.placeRest (s : State) : State :=
  (s.store.txns.filter (fun t => t.phase == 1 && !t.allPlaced)).foldl (fun s t => s.placePages t.num true) s

/-- The next page of a superblock copy: the one after the last programmed or queued in its block; a block with none left
is erased first (R316). -/
def State.superPlace (s : State) (copy : Nat) : Option (Nat × Bool) :=
  match s.superBlock copy with
  | none => none
  | some b =>
    let here (l : List Nat) : List Nat := l.filter (fun a => blockOf a == b)
    let old := if s.store.erasing.contains b then [] else here (s.store.pages.map (·.1))
    let k := (old ++ here (s.store.todo.map (·.addr))).foldl (fun m a => max m (a % 4096 + 1)) 0
    some (if s.geo.pages ≤ k then (4096 * b, true) else (4096 * b + k, false))

/-- The superblock copy that block b serves. -/
def State.copyOf (s : State) (b : Nat) : Nat := if s.superTarget 1 = some (targetOf (4096 * b)) then 1 else 0

/-- The page programs in hand in block b, which has gone bad, go elsewhere (R328): data pages to new places, superblocks to
their copy's next good block; those of the journal move with `moveJournal`. -/
def State.evict (s : State) (b : Nat) : State :=
  let out := s.store.todo.filter (fun j => blockOf j.addr == b && j.page.kind == 3)
  let sup := s.store.todo.filter (fun j => blockOf j.addr == b && j.page.kind == 1)
  let s := s.modStore (fun y => { y with todo := y.todo.filter (fun j => !(blockOf j.addr == b && j.page.kind != 2))
                                         unplaced := y.unplaced ++ out })
  (sup.foldl (fun s j =>
    match s.superPlace (s.copyOf b) with
    | some (a, _) => s.modStore (fun y => { y with todo := y.todo ++ [{ j with addr := a }] })
    | none => s) s).placeWaiting

/-- Block b is bad, and a block of the spare pool replaces it: one of its own target where there is one (R328). -/
def spareFor (all : List Nat) (b : Nat) (m : SMap BlockInfo) : SMap BlockInfo :=
  let m := SMap.set {} b { SMap.get {} m b with st := 2 } m
  let pool := all.filter (fun c => (SMap.get {} m c).st == 3)
  let mine := pool.filter (fun c => targetOf (4096 * c) == targetOf (4096 * b))
  match (mine ++ pool).head? with
  | some c => SMap.set {} c { SMap.get {} m c with st := 0 } m
  | none => m

/-- A block goes bad: BAD, the spare pool replaces it, and a store whose pool is empty enters read-only (R328). -/
def State.badBlock (s : State) (b cause : Nat) : State :=
  let s := s.modStore (fun y =>
    { y with blocks := spareFor s.allBlocks b y.blocks, erasing := delKey b y.erasing, halving := delKey b y.halving
             opens := y.opens.filter (fun o => blockOf o.2 != b) })
  let s := s.journal (JEntry.plain 8 0 (leBytes 4 (4096 * b) ++ [BitVec.ofNat 8 cause]))
  let s := (s.count Reg.STO_BAD_GROWN).event Reg.STO_EVT 2
  if s.store.st = 2 ∧ s.countBlocks 3 = 0 then
    ((s.modStore (fun y => { y with st := 3 })).event Reg.STO_EVT 5).report 0x0C 0x0005 0 none 0 0xFFFF 0
  else s

/-- A store that has become read-only commits nothing more (R328): every transaction whose COMMIT is not yet journalled is
refused, once, and a WRITE_BOOT among them completes. -/
def State.refuseAll (s : State) : State :=
  let ns := (s.store.txns.filter (fun t => decide (t.phase < 2) && !t.journalled)).map (·.num)
  let s := ns.foldl (fun s n => (s.modTxn n (fun u => { u with phase := 3 })).txnLost) s
  let s := instNums.foldl (fun s i => s.modInst i (fun x => { x with sheets := x.sheets.map (fun h =>
    if h.txn.any ns.contains then { h with txn := none, refused := true } else h) })) s
  let out (j : StoJob) : Bool := j.op == 5 && ns.contains j.txn
  let s := (s.store.jobs.filter out).foldl (fun s j => s.stoComplete j.fn j.tag 5 0 j.txn) s
  let keep (j : PageJob) : Bool := !(j.page.kind == 3 && j.old.isNone && ns.contains j.page.txn)
  s.modStore (fun y => { y with jobs := y.jobs.filter (fun j => !out j), todo := y.todo.filter keep, unplaced := y.unplaced.filter keep })

/-- STO_FREE, STO_SPARE, STO_ERASE_MAX and STO_ERASE_MIN. -/
def State.storeRegs (s : State) : State :=
  let held := s.allBlocks.filter (fun b => (s.blk b).st == 1)
  let mx := held.foldl (fun m b => max m (s.blk b).erases) 0
  let mn := held.foldl (fun m b => min m (s.blk b).erases) mx
  (((s.wr Reg.STO_FREE (BitVec.ofNat 32 (s.countBlocks 0))).wr Reg.STO_SPARE (BitVec.ofNat 32 (s.countBlocks 3))).wr
    Reg.STO_ERASE_MAX (BitVec.ofNat 32 mx)).wr Reg.STO_ERASE_MIN (BitVec.ofNat 32 mn)

/-- Wear levelling (R325): the least worn block that holds data is relocated when the spread passes STO_WL.delta. -/
def State.wearLevel (s : State) : State :=
  let held := s.allBlocks.filter (fun b => (s.blk b).st == 1 && !s.superZone b && !s.store.erasing.contains b)
  let mx := held.foldl (fun m b => max m (s.blk b).erases) 0
  match held.find? (fun b => held.all (fun c => decide ((s.blk b).erases ≤ (s.blk c).erases))) with
  | none => s
  | some b => if (s.blk b).erases + s.fld Reg.STO_WL 15 0 < mx then s.relocate b else s

end Sys2Proof.Machine
end

