-- ==== Sys2Proof/Machine/Outputs.lean ====
section
/-! DEFINITION. OUT and ACT: result slots, the action table, storm mode, sheets, editions, the outlet and the mirrors, and
defect records (R270 to R288, R321), with the signature comparison of a tandem pair (R371 to R373). -/

namespace Sys2Proof.Machine

/-! ### Bytes of windows -/

/-- Read `n` bytes of a window from byte `off`; bytes beyond its end are open values. -/
def State.readWindow (s : State) (w : Win) (off n : Nat) : List Byte × State :=
  let m := if off < w.size then min n (w.size - off) else 0
  let a := memAddr .bulk w.die (w.base + off)
  let s := (s.secded .bulk a m).1
  let r := s.openBytes (n - m)
  (s.rdBytes a m ++ r.1, r.2)

/-- Write bytes into a window from byte `off`; those beyond its end are not written (R270). -/
def State.writeWindow (s : State) (w : Win) (off : Nat) (bs : List Byte) : State :=
  if off < w.size then s.wrBytes (memAddr .bulk w.die (w.base + off)) (bs.take (w.size - off)) else s

/-! ### Result slots (R270, R271) -/

def State.slotCount (s : State) (i : Nat) : Nat := 2 ^ s.fld (Reg.OUT_I_RES i) 19 16
def State.slotLen (s : State) (i : Nat) : Nat := 64 * s.fld (Reg.OUT_I_RES i) 15 0

/-- The result window of instance i and the slot of a line in it; none when OUT_I_RES.window names no window. -/
def State.resultSlot (s : State) (i : Nat) (line : Word) : Option (Win × Nat) :=
  (s.window i (s.fld (Reg.OUT_I_RES i) 31 24)).map (fun w => (w, line.toNat % s.slotCount i * s.slotLen i))

/-- Write bytes of the slot of a line. -/
def State.slotWrite (s : State) (i : Nat) (line : Word) (off : Nat) (bs : List Byte) : State :=
  match s.resultSlot i line with
  | some (w, b) => s.writeWindow w (b + off) bs
  | none => s

/-- Read bytes of the slot of a line; open values when there is no slot. -/
def State.slotRead (s : State) (i : Nat) (line : Word) (off n : Nat) : List Byte × State :=
  match s.resultSlot i line with
  | some (w, b) => s.readWindow w (b + off) n
  | none => s.openBytes n

/-- The inlet admits a line: the valid bit of its slot is cleared (R270). -/
def State.clearSlot (s : State) (i : Nat) (line : Word) : State :=
  match s.resultSlot i line with
  | some (w, b) =>
    if b + 0x10 < w.size then
      s.writeWindow w (b + 0x10) [s.rdByte (memAddr .bulk w.die (w.base + b + 0x10)) &&& 0xFE]
    else s
  | none => s

/-! ### Lines and sheets -/

/-- Largest offset among the output stages: the due tick of R22 and R74. -/
def Inst.dueOffset (x : Inst) : Nat := match x.lastOutput with | some d => d.offset | none => 0

/-- What became of a line: its newest closing. -/
def Inst.slotOf (x : Inst) (line : Word) : Option LineSlot :=
  x.hist.find? (fun l => l.line == line && (l.admitted || l.dropped))
def Inst.setSlot (x : Inst) (line : Word) (g : LineSlot → LineSlot) : Inst :=
  { x with hist := x.hist.map (fun l => if l.line == line && l.admitted then g l else l) }

def Inst.sheetOf (x : Inst) (ord : Nat) : Option Sheet := x.sheets.find? (fun h => h.ord == ord)
def Inst.modSheet (x : Inst) (ord : Nat) (g : Sheet → Sheet) : Inst :=
  { x with sheets := x.sheets.map (fun h => if h.ord == ord then g h else h) }

/-- Ordinal of the sheet of a line; a line that the inlet has not closed counts to the open sheet. -/
def Inst.lineSheet (x : Inst) (line : Word) : Nat :=
  match x.slotOf line with | some l => l.ord | none => x.nextSheet - 1

/-- Sheets that have ended and are not yet sealed (OUT_I_STAT.unsealed). -/
def Inst.unsealed (x : Inst) : List Sheet := x.sheets.filter (fun h => h.ended.isSome && !h.sealed_ && h.sealReq.isNone)

def Inst.boxesOf (x : Inst) (line : Word) : LineBoxes :=
  match x.boxes.find? (fun b => b.line == line) with
  | some b => b
  | none => { line := line, boxes := 0, boxDrop := 0, alarms := 0 }

/-! ### The action table (R275 to R279) -/

/-- A candidate box (R273): its 12 bytes from the program. -/
structure Box where
  raw : List Byte
deriving DecidableEq, Repr

def Box.x0 (b : Box) : Nat := leField b.raw 4 2
def Box.w (b : Box) : Nat := let w := leField b.raw 6 2; if w = 0 then 32768 else w
def Box.h (b : Box) : Nat := leField b.raw 8 2
def Box.cls (b : Box) : Nat := leField b.raw 10 1
def Box.score (b : Box) : Nat := leField b.raw 11 1
/-- Centre across the web. -/
def Box.mid (b : Box) : Nat := b.x0 + b.w / 2

/-- A register of the table that ACT uses in this tick (R276). -/
def State.actReg (s : State) (a : Nat) : Word := SMap.get (resetValue a) s.actLive a

/-- Does box b match entry k for instance i at `d` lines into its sheet (R275)? -/
def State.boxMatches (s : State) (i d k : Nat) (b : Box) : Bool :=
  let m := s.actReg (Reg.ACT_E_MATCH k)
  let c := min b.cls 63
  let cs := s.actReg (if c < 32 then Reg.ACT_E_CLASS_LO k else Reg.ACT_E_CLASS_HI k)
  let xr := s.actReg (Reg.ACT_E_XR k)
  let yr := s.actReg (Reg.ACT_E_YR k)
  let sz := s.actReg (Reg.ACT_E_SIZE k)
  let big := max b.w b.h
  m.getLsbD 31 && m.getLsbD (16 + i) && cs.getLsbD (c % 32) && decide (bits m 7 0 ≤ b.score)
    && decide (bits xr 15 0 ≤ b.mid) && decide (b.mid ≤ bits xr 31 16)
    && decide (bits yr 15 0 ≤ d) && decide (d ≤ bits yr 31 16)
    && decide (bits sz 15 0 ≤ big) && decide (big ≤ bits sz 31 16)

/-- Priority of entry k. -/
def State.actPrio (s : State) (k : Nat) : Nat := bits (s.actReg (Reg.ACT_E_MATCH k)) 27 24

/-- The winning entry of a box: highest priority, then lowest index. -/
def State.winner (s : State) (i d : Nat) (b : Box) : Option Nat :=
  (List.range 256).foldl (fun r k =>
    if s.boxMatches i d k b then
      (match r with | some j => if s.actPrio j < s.actPrio k then some k else r | none => some k)
    else r) none

/-- A kept box with its winning entry and its decision bits (R273). -/
structure Decided where
  box : Box
  entry : Option Nat
  record : Bool
  crop : Bool
  counted : Bool
  alarm : Nat
deriving DecidableEq, Repr

/-- The 16 bytes of a box entry (R273). -/
def Decided.bytes (d : Decided) : List Byte :=
  let dec := (if d.entry.isSome then 1 else 0) + (if d.record then 2 else 0) + (if d.crop then 4 else 0)
    + (if d.counted then 8 else 0) + 16 * d.alarm
  d.box.raw ++ [BitVec.ofNat 8 (d.entry.getD 0), BitVec.ofNat 8 dec, 0, 0]

/-- ACTION of a winning entry. -/
def State.action (s : State) : Option Nat → Word
  | some k => s.actReg (Reg.ACT_E_ACTION k)
  | none => 0

/-- The decisions of a request outside storm mode: every box whose entry records gets record (R277). -/
def State.decideCalm (s : State) (bs : List (Box × Option Nat)) : List Decided :=
  bs.map (fun p =>
    let a := s.action p.2
    { box := p.1, entry := p.2, record := a.getLsbD 0, crop := a.getLsbD 0 && a.getLsbD 1, counted := false,
      alarm := bits a 6 4 })

/-- The decisions of a request in storm mode: at most `keep` boxes of sufficient priority record, the others count. -/
def State.decideStorm (s : State) (prio : Nat) : Nat → List (Box × Option Nat) → List Decided
  | _, [] => []
  | keep, (b, w) :: bs =>
    let a := s.action w
    let high := match w with | some k => decide (prio ≤ s.actPrio k) | none => false
    if a.getLsbD 0 && high && decide (0 < keep) then
      { box := b, entry := w, record := true, crop := a.getLsbD 1, counted := false, alarm := bits a 6 4 }
        :: s.decideStorm prio (keep - 1) bs
    else
      { box := b, entry := w, record := false, crop := false, counted := a.getLsbD 0, alarm := bits a 6 4 }
        :: s.decideStorm prio keep bs

/-- Insert a candidate behind those of equal or higher score. -/
def insBox (b : Box) : List Box → List Box
  | [] => [b]
  | c :: cs => if c.score < b.score then b :: c :: cs else c :: insBox b cs

/-- Sort by score, highest first; equal scores keep list order (R274). -/
def sortBoxes (bs : List Box) : List Box := bs.foldl (fun m b => insBox b m) []

/-- Cut a payload into candidates of 16 bytes, of which the program wrote the first 12. -/
def boxesOfBytes : Nat → List Byte → List Box
  | 0, _ => []
  | n + 1, bs => { raw := bs.take 12 } :: boxesOfBytes n (bs.drop 16)

/-- A counted box raises its storm count (R278); counts saturate. -/
def Sheet.countBox (h : Sheet) (b : Box) : Sheet :=
  let k := min b.cls 63 * 16 + min (b.mid / 2048) 15
  { h with counted := h.counted + 1, stormCounts := SMap.set 0 k (min (SMap.get 0 h.stormCounts k + 1) 0xFFFFFFFF) h.stormCounts }

/-- A decided box enters its sheet's numbers (R277 to R279, R283). -/
def Sheet.addBox (h : Sheet) (d : Decided) : Sheet :=
  let h := { h with boxes := h.boxes + 1, records := if d.record then h.records + 1 else h.records
                    alarms := if d.alarm = 0 then h.alarms
                      else h.alarms.zipIdx.map (fun p => if p.2 + 1 = d.alarm then p.1 + 1 else p.1) }
  if d.counted then h.countBox d.box else h

/-- Bits of the alarm codes raised by some boxes. -/
def alarmBits (ds : List Decided) : Nat := ds.foldl (fun m d => if d.alarm = 0 then m else m ||| 2 ^ d.alarm) 0

/-- Decide the kept boxes of a request for a line and write them into its slot (R274 steps 2 and 3, R277 to R279). -/
def State.decideBoxes (s : State) (i : Nat) (line : Word) (kept : List Box) (dropped : Nat) : State :=
  let x := s.inst i
  let ord := x.lineSheet line
  let h := match x.sheetOf ord with | some h => h | none => { num := 0 }
  let d := min (line - h.firstLine).toNat 0xFFFF
  let bs := kept.map (fun b => (b, s.winner i d b))
  let k := (bs.filter (fun p => (s.action p.2).getLsbD 0)).length
  let calm := !h.storm && decide (k ≤ s.fld (Reg.ACT_I_TICK_BUDGET i) 6 0) &&
    decide (h.records + k ≤ s.fld (Reg.ACT_I_SHEET_BUDGET i) 23 0)
  let enters := !h.storm && !calm
  let st := s.rd (Reg.ACT_I_STORM i)
  let ds := if calm then s.decideCalm bs else s.decideStorm (bits st 3 0) (bits st 11 8) bs
  let s := if enters then (s.count (Reg.ACT_I_STORMS i)).event (Reg.ACT_I_EVT i) 0 else s
  let s := s.slotWrite i line 0x40 (ds.flatMap Decided.bytes ++ List.replicate (1024 - 16 * ds.length) 0)
  let s := (s.countBy (Reg.ACT_I_BOXES i) ds.length).countBy (Reg.ACT_I_BOX_DROP i) dropped
  let s := if 0 < dropped then s.event (Reg.ACT_I_EVT i) 1 else s
  let s := s.countBy (Reg.ACT_I_RECORDS i) (ds.filter (·.record)).length
  let s := s.countBy (Reg.ACT_I_COUNTED i) (ds.filter (·.counted)).length
  let al := alarmBits ds
  let s := s.wr (Reg.ACT_I_ALARM i) (s.rd (Reg.ACT_I_ALARM i) ||| BitVec.ofNat 32 al)
  s.modInst i (fun x =>
    let o := x.boxesOf line
    let x := x.modSheet ord (fun h =>
      ds.foldl Sheet.addBox { h with storm := (h.storm || enters) && !h.sealed_, boxDrop := h.boxDrop + dropped })
    { x with boxes := { line := line, boxes := ds.length, boxDrop := o.boxDrop + dropped,
                        alarms := o.alarms ||| BitVec.ofNat 8 al } :: x.boxes.filter (fun b => b.line != line) })

/-- Instance numbers below 8. -/
def isInst (i : Nat) : Bool := decide (i < 8)

/-- ACT_REQUEST: ACT takes the head of the request queue of instance i (R274). It waits while the response queue is full.
A VOID is answered by a VOID; any other control token is a malformed request. -/
def execActRequest (i : Nat) (s : State) : Res :=
  let x := s.inst i
  if !isInst i || !x.live then .next s
  else
    match s.localQueue i (s.fld (Reg.ACT_I_QUEUES i) 13 0), s.localQueue i (s.fld (Reg.ACT_I_QUEUES i) 29 16) with
    | some q, some p =>
      if (s.queue p).full || ((s.settle q).queue q).entries.isEmpty then .next (s.settle q)
      else
        match (s.eccHead q).readQueue q with
        | (s, none) => .next s
        | (s, some e) =>
          let answer (s : State) (code : Nat) (v : Word) : State :=
            (s.pushWait p (controlToken 0 e.flags e.tokLine code v s.now)).getD s
          if e.kind = kindData then
            let n := min e.pxCount 256
            let r := match s.window i e.window with
              | some w => s.readWindow w (64 * e.offset) (16 * n)
              | none => s.openBytes (16 * n)
            let bs := sortBoxes (boxesOfBytes n r.1)
            let kept := bs.take 64
            let s := r.2.decideBoxes i e.tokLine kept (e.pxCount - kept.length)
            .next (answer s codeCount (BitVec.ofNat 32 kept.length))
          else if e.code = codeVoid then .next (answer s codeVoid 0)
          else
            let s := (s.event (Reg.ACT_I_EVT i) 2).report 0x0B 0x0102 0 (some i) 0 q 0
            .next (answer s codeVoid 0)
    | _, _ => .next s

/-! ### The host mirrors (R288) -/

/-- Does this device drive the outlet and the mirrors: unpaired, or the lead (R285)? -/
def State.drives (s : State) : Bool := !s.follows

/-- The lead sends MARK after each mirror and each publication (R375). -/
def State.sendMark (s : State) (i : Nat) : State :=
  if s.leads then
    s.tdmPost ([0x07, BitVec.ofNat 8 i, 0, 0] ++ leBytes 4 (s.inst i).lastMirrored.toNat
      ++ leBytes 4 (s.rd (Reg.OUT_I_ED_NUM i)).toNat)
  else s

/-- The device-to-host queue of a local id. -/
def State.hostRing (s : State) (i l : Nat) : Option Nat :=
  match s.localQueue i l with
  | some q => if (s.queue q).qkind = qD2H then some q else none
  | none => none

/-- Room in a device-to-host queue. -/
def State.ringRoom (s : State) (i l : Nat) : Bool := match s.hostRing i l with | some q => !(s.queue q).full | none => false

/-- Write an entry into a device-to-host queue that has room. -/
def State.ringPush (s : State) (i l : Nat) (bs : List Byte) : State :=
  match s.hostRing i l with
  | some q => s.pushDrop q { bytes := (bs ++ List.replicate 64 0).take 64 }
  | none => s

/-- Mirror the result of a line: the slot into OUT_I_HBUF, then the header as a ring entry. -/
def State.mirrorResult (s : State) (i : Nat) (line : Word) : State :=
  let c := s.rd (Reg.OUT_I_CTRL i)
  let heads := c.getLsbD 0
  let slots := c.getLsbD 1
  if !s.drives || (!heads && !slots) then s
  else
    let l := s.fld (Reg.OUT_I_HQUEUES i) 13 0
    if (s.resultSlot i line).isNone || (heads && !s.ringRoom i l) then
      (s.count (Reg.OUT_I_MIRROR_DROP i)).event (Reg.OUT_I_EVT i) 4
    else
      let len := s.slotLen i
      let a := s.rd64 (Reg.OUT_I_HBUF_LO i) (Reg.OUT_I_HBUF_HI i) + line.toNat % s.slotCount i * len
      let r := s.slotRead i line 0 (max len 64)
      let s := if slots then r.2.wrHost a (r.1.take len) else r.2
      let s := if heads then
          s.ringPush i l (r.1.take 0x20 ++ leBytes 8 (if slots then a else 0) ++ (r.1.drop 0x28).take 24)
        else s
      (s.modInst i (fun x => { x with lastMirrored := line })).sendMark i

/-- Mirror an edition: its bytes into the half of OUT_I_ED_HBUF, its summary's first 64 bytes as the ring entry. -/
def State.mirrorEdition (s : State) (i : Nat) (d : Edition) : State :=
  if !s.drives || !s.bit (Reg.OUT_I_CTRL i) 2 then s
  else
    let l := s.fld (Reg.OUT_I_HQUEUES i) 29 16
    if !s.ringRoom i l then s.event (Reg.OUT_I_EVT i) 5
    else
      let half := 64 * s.fld (Reg.OUT_I_ED_HSIZE i) 15 0
      let a := s.rd64 (Reg.OUT_I_ED_HBUF_LO i) (Reg.OUT_I_ED_HBUF_HI i) + d.num % 2 * half
      let s := if half < d.bytes.length then s.event (Reg.OUT_I_EVT i) 6 else s.wrHost a d.bytes
      s.ringPush i l (d.bytes.take 64)

/-! ### Committing a result (R272, R271) -/

/-- Mode 2 of the GPIO pins: a result of instance i with these alarms drives its pins (R428). -/
def State.gpioAlarm (s : State) (i : Nat) (alarms : Byte) : State :=
  if s.follows then s
  else
    (List.range 8).foldl (fun s k =>
      let g := s.rd (Reg.DBG_GPIO k)
      if bits g 31 30 = 2 ∧ bits g 27 24 = i ∧ alarms.getLsbD (bits g 22 20) then
        { s with sig := { s.sig with gpioEnd := SMap.put k (s.now + 1000 * max 1 (bits g 15 0)) s.sig.gpioEnd
                                     gpioLevel := s.sig.gpioLevel ||| BitVec.ofNat 8 (2 ^ k) } }
      else s) s

/-- Header bytes 0x00 to 0x17 of a result, with the given flags (R271). -/
def State.resultHead (s : State) (i : Nat) (line : Word) (flags : Byte) (px : List Byte) : List Byte :=
  let x := s.inst i
  let b := x.boxesOf line
  let sl := match x.slotOf line with | some l => l | none => { tick := 0, line := line, admitted := false, dropped := false, flags := 0, sheet := 0 }
  leBytes 4 line.toNat ++ leBytes 4 sl.sheet.toNat ++ leBytes 8 (sl.tick + x.dueOffset)
    ++ [flags, BitVec.ofNat 8 b.boxes, b.alarms, BitVec.ofNat 8 i] ++ px ++ leBytes 2 b.boxDrop

/-- The signature of the result of a line (R271): CRC-32C over the header with flag bits 7 and 0 as 0, the box list and the
class map. The box list of a line without a request is zeroed first. -/
def State.resultSignature (s : State) (i : Nat) (line : Word) (flags : Byte) : Word × State :=
  let x := s.inst i
  let s := if x.boxes.any (fun b => b.line == line) then s else s.slotWrite i line 0x40 (List.replicate 1024 0)
  let p := s.slotRead i line 0x14 2
  let bs := p.2.slotRead i line 0x40 (1024 + 2 * leNat p.1)
  (crc32c (s.resultHead i line (flags &&& 0x7E) p.1 ++ bs.1), bs.2)

/-- ADP_I_EDITION at an accepted tick; the present value when that tick has not come. -/
def State.adpAt (s : State) (i tick : Nat) : Word :=
  match (s.inst i).hist.find? (fun l => l.tick == tick) with
  | some l => l.adp
  | none => s.rd (Reg.ADP_I_EDITION i)

/-- The seven flags that a summary counts, in its order (R283). -/
def flagNames : List Byte := [flagShort, flagGap, flagWarmup, flagTainted, flagLate, flagStorm, flagMismatch]

/-- Steps 3 and 4 of R272: the header, valid last, the counts and the mirror. -/
def State.commitResult (s : State) (i : Nat) (g : Sign) (mismatch : Bool) : State :=
  let x := s.inst i
  match x.slotOf g.line with
  | none => s
  | some sl =>
    let flags := g.flags ||| flagIf mismatch flagMismatch ||| flagValid
    let b := x.boxesOf g.line
    let p := if (s.resultSlot i g.line).isSome then s.slotRead i g.line 0x14 2 else ([0, 0], s)
    let s := p.2
    let head := s.resultHead i g.line flags p.1
    let tail := leBytes 2 b.boxDrop ++ leBytes 4 g.sig.toNat ++ leBytes 4 (s.adpAt i (sl.tick + x.dueOffset)).toNat
      ++ List.replicate 32 0
    let s := ((s.slotWrite i g.line 0x16 tail).slotWrite i g.line 0 (head.take 0x10)).slotWrite i g.line 0x11
      ((head.drop 0x11).take 3)
    let s := s.slotWrite i g.line 0x10 [flags]
    let s := s.count (Reg.OUT_I_RESULTS i)
    let s := s.modInst i (fun x =>
      let x := x.setSlot g.line (fun l => { l with done := true })
      let x := x.modSheet sl.ord (fun h =>
        { h with results := h.results + 1
                 flagCounts := (h.flagCounts.zip flagNames).map (fun c => if flags &&& c.2 != 0 then c.1 + 1 else c.1) })
      x)
    let s := (s.gpioAlarm i b.alarms).mirrorResult i g.line
    s.modInst i (fun x => { x with boxes := x.boxes.filter (fun y => y.line != g.line) })

/-! ### Signatures of a pair (R371 to R373) -/

/-- The classes of R371. -/
inductive SigClass where
  | agree | timing | data
deriving DecidableEq, Repr

/-- Compare this device's signature with the partner's. -/
def Sign.classify (a b : Sign) : SigClass :=
  if a.void = b.void ∧ (a.void = true ∨ a.sig = b.sig) then .agree
  else if a.void ≠ b.void ∨ a.flags &&& 0x2E ≠ b.flags &&& 0x2E then .timing
  else .data

/-- The unit of a mask that a test names: the first at or after the cursor in ascending order, wrapping (R372). -/
def nextUnit (owned : Nat → Bool) (cursor : Nat) : Option Nat :=
  ((List.range 64).map (fun d => (cursor + d) % 64)).find? owned

/-- A data mismatch of instance i: the lead sends TEST, and both devices schedule it (R372, R373). -/
def State.startTandemTest (s : State) (i : Nat) : State :=
  let a := Reg.TDM_I_STAT i
  if s.bit a 31 || !s.leads then s
  else
    let c := s.fld a 13 8
    let e := (nextUnit (hasBit (s.engMask i)) c).getD 0xFF
    let d := (nextUnit (s.ownsCol i) c).getD 0xFF
    let tick := (s.inst i).ticks + 2
    let s := (s.setFld a 31 31 1).setFld a 13 8 ((c + 1) % 64)
    let s := s.tdmPost ([0x05, BitVec.ofNat 8 i, BitVec.ofNat 8 e, BitVec.ofNat 8 d, 0, 0, 0, 0] ++ leBytes 8 tick)
    { s with tdm := { s.tdm with tests := s.tdm.tests ++ [(i, e, d, tick)] } }

/-- The effect of a class on the counters of instance i; the last data mismatch leaves its line (TDM_I_LAST). -/
def State.sigEffect (s : State) (i : Nat) (line : Word) : SigClass → State
  | .agree => s
  | .timing => ((s.count (Reg.TDM_I_TIMING i)).event (Reg.TDM_I_EVT i) 1).report 0x10 0x0101 0 (some i) 0 0xFFFF 0
  | .data => ((((s.count (Reg.TDM_I_MISMATCH i)).event (Reg.TDM_I_EVT i) 0).wr (Reg.TDM_I_LAST i) line).report 0x10 0x0100 0 (some i) 0
      0xFFFF line).startTandemTest i

/-- This device's result or VOID goes on, classed as `c` (R272 step 2). -/
def State.resolve (s : State) (g : Sign) (c : SigClass) : State :=
  let s := s.sigEffect g.inst g.line c
  if g.void then s else s.commitResult g.inst g (c != .agree)

/-- Send this device's SIG, and go on when the partner's has arrived; else the result waits (R371). -/
def State.compareSig (s : State) (g : Sign) : State :=
  let s := s.tdmPost ([0x02, BitVec.ofNat 8 g.inst, if g.void then 1 else 0, 0] ++ leBytes 4 g.line.toNat
    ++ leBytes 4 (if g.void then 0 else g.sig.toNat) ++ [g.flags])
  match s.tdm.partner.find? (fun p => p.inst == g.inst && p.line == g.line) with
  | some p =>
    ({ s with tdm := { s.tdm with partner := s.tdm.partner.filter (fun q => !(q.inst == g.inst && q.line == g.line)) } }
      : State).resolve g (g.classify p)
  | none => { s with tdm := { s.tdm with waiting := s.tdm.waiting ++ [(g, s.now)] } }

/-- The result or VOID leaves OUT: compared in a pair, else committed at once. -/
def State.outPass (s : State) (g : Sign) : State :=
  if s.tdm.st = 2 then s.compareSig g else s.resolve g .agree

/-! ### RESULT_COMMIT (R272) -/

/-- Has OUT to wait for ACT: a request that entered its queue before this token is still there? -/
def State.actPending (s : State) (i ord : Nat) : Bool :=
  match s.localQueue i (s.fld (Reg.ACT_I_QUEUES i) 13 0) with
  | some q => (s.queue q).entries.any (fun e => decide (e.ord < ord))
  | none => false

/-- The flags of step 1, with those that OUT itself owes: gap after a VOID (R170), warm-up (R26) and line taint (R344). -/
def State.resultFlags (s : State) (i : Nat) (e : Entry) (sl : LineSlot) (late : Bool) : Byte :=
  let x := s.inst i
  let storm := match x.sheetOf sl.ord with | some h => h.storm | none => false
  e.flags ||| flagIf late flagLate ||| flagIf storm flagStorm ||| flagIf x.resGap flagGap
    ||| flagIf (decide (0 < x.warmupLeft)) flagWarmup ||| flagIf (s.rd (Reg.FLT_I_TAINT i) != 0 && !isAfter e.tokLine x.taintFrom) flagTainted

/-- A result uses up one of the results that carry warm-up, and one of those that carry line taint (R26, R344). -/
def State.spendFlags (s : State) (i : Nat) (line : Word) : State :=
  let x := s.inst i
  let t := s.rd (Reg.FLT_I_TAINT i)
  let s := if t = 0 then s
    else if line = x.taintFrom ∨ isAfter line x.taintFrom then s.wr (Reg.FLT_I_TAINT i) 0
    else s.wr (Reg.FLT_I_TAINT i) (if x.taintFrom - line < t then x.taintFrom - line else t)
  s.modInst i (fun x => { x with resGap := false, warmupLeft := x.warmupLeft - 1 })

/-- OUT takes a data token of the result queue. A line that the inlet did not take in, or that was in the pipeline when the
instance entered freewheel, has no result (R24, R57). -/
def State.takeResult (s : State) (i : Nat) (e : Entry) : State :=
  let x := s.inst i
  match x.slotOf e.tokLine with
  | none => s
  | some sl =>
    if !sl.admitted || sl.lost || x.st == .freewheel then s
    else
      let late := decide (sl.tick + x.dueOffset < e.at_)
      let flags := s.resultFlags i e sl late
      let s := if late then (s.count (Reg.CAD_I_LATE i)).event (Reg.CAD_I_EVT i) 2 else s
      let s := s.spendFlags i e.tokLine
      let r := s.resultSignature i e.tokLine flags
      r.2.outPass { inst := i, void := false, line := e.tokLine, sig := r.1, flags := flags }

/-- RESULT_COMMIT: OUT takes the head of the result queue of instance i (R272). -/
def execResultCommit (i t : Nat) (s : State) : Res :=
  let s := s.at_ t
  if !isInst i || !(s.inst i).live || s.tdm.waiting.any (fun w => w.1.inst == i) then .next s
  else
    match s.localQueue i (s.fld (Reg.OUT_I_QUEUES i) 13 0) with
    | none => .next s
    | some q =>
      let s := s.settle q
      match (s.queue q).entries with
      | [] => .next s
      | h :: _ =>
        if s.actPending i h.ord then .next s
        else
          match (s.eccHead q).readQueue q with
          | (s, none) => .next s
          | (s, some e) =>
            let e := { e with at_ := h.at_ }
            if e.kind = kindData then .next (s.takeResult i e)
            else if e.kind = kindControl ∧ e.code = codeVoid then
              let s := s.modInst i (fun x => { x.setSlot e.tokLine (fun l => { l with voided := true }) with resGap := true })
              .next (if s.tdm.st = 2 then s.outPass { inst := i, void := true, line := e.tokLine, sig := 0, flags := e.flags } else s)
            else .next s

/-! ### Editions (R281 to R287) -/

/-- A 4-byte field of a summary, saturating. -/
def le4 (n : Nat) : List Byte := leBytes 4 (min n 0xFFFFFFFF)

/-- The status byte of a summary. -/
def Sheet.status (h : Sheet) (q : Seal) : Byte :=
  flagIf h.storm 1 ||| flagIf q.missed 2 ||| flagIf q.map.isNone 4 ||| flagIf h.byR26 8

/-- The 128-byte summary (R283). -/
def Sheet.summary (h : Sheet) (q : Seal) (i num : Nat) (adp : Word) (records carried : Nat) : List Byte :=
  leBytes 4 h.num.toNat ++ leBytes 4 num ++ leBytes 4 (h.firstAdmitted.getD 0).toNat ++ le4 h.results
    ++ [h.status q, BitVec.ofNat 8 i, 0, 0] ++ leBytes 4 adp.toNat ++ h.flagCounts.flatMap le4
    ++ le4 h.boxes ++ le4 h.boxDrop ++ le4 records ++ le4 h.counted ++ le4 carried ++ h.alarms.flatMap le4
    ++ leBytes 4 (if h.storm then 4096 else 0) ++ leBytes 4 (match q.map with | some m => m.length | none => 0)
    ++ List.replicate 20 0

/-- The storm counts, class-major (R278). -/
def Sheet.counts (h : Sheet) : List Byte :=
  if h.storm then (List.range 1024).flatMap (fun k => leBytes 4 (SMap.get 0 h.stormCounts k)) else []

/-- The edition transaction of a sheet: the one its records opened, or a new one (R281 step 2, R321). None when the store
takes no transaction (R328), or the instance has no partition. -/
def State.editionTxn (s : State) (i : Nat) (h : Sheet) (num : Nat) (bs : List Byte) : Option Nat × State :=
  match h.txn with
  | some n =>
    let s := s.modTxn n (fun t => { t with payload := bs, sheet := h.num.toNat, index := num })
    (some n, (s.standWhole n).tryCommit n)
  | none =>
    match s.partOf i with
    | none => (none, s)
    | some p =>
      if !s.storeOpen then (none, if h.refused then s else s.txnLost)
      else
        let r := s.wholeAndCommit 1 p i h.num.toNat num bs
        (some r.1, r.2)

/-- Compose the edition of an ended sheet and start its transaction (R281 steps 1 and 2). -/
def State.compose (s : State) (i : Nat) (h : Sheet) (q : Seal) : State :=
  let num := (s.rd (Reg.OUT_I_ED_NUM i)).toNat + 1
  let recs := match h.txn with
    | some n => (match s.txn n with | some t => t.records.length | none => 0)
    | none => 0
  let head := h.summary q i (num % 2 ^ 32) (s.rd (Reg.ADP_I_EDITION i)) recs h.carried
  let bs := head ++ h.counts ++ q.map.getD []
  let r := s.editionTxn i h (num % 2 ^ 32) bs
  let d : Edition := { num := num % 2 ^ 32, sheet := h.num, status := h.status q, bytes := bs, txn := r.1 }
  r.2.modInst i (fun x =>
    { x.modSheet h.ord (fun h => { h with sealed_ := true, storm := false, txn := none }) with
      editions := x.editions ++ [d] })

/-- Editions go in sheet order: once the earlier ones are published, the oldest ended sheet whose seal has been taken is
composed (R281). -/
def State.sealNext (s : State) (i : Nat) : State :=
  let x := s.inst i
  if !x.editions.isEmpty then s
  else
    match x.sheets.find? (fun h => h.ended.isSome && !h.sealed_) with
    | some h => (match h.sealReq with | some q => s.compose i h q | none => s)
    | none => s

/-- OUT takes a seal for a sheet. -/
def State.seal (s : State) (i ord : Nat) (q : Seal) : State :=
  (s.modInst i (fun x => x.modSheet ord (fun h => { h with sealReq := some q }))).sealNext i

/-- The open sheet ends at this accepted tick; a fifth unsealed sheet seals the oldest at once (R282). -/
def State.endSheet (s : State) (i : Nat) (byR26 : Bool) : State :=
  let x := s.inst i
  let s := match x.unsealed with
    | h :: rest =>
      if rest.length < 3 then s
      else ((s.count (Reg.OUT_I_DEADLINE i)).event (Reg.OUT_I_EVT i) 2).seal i h.ord { map := none, missed := true }
    | [] => s
  s.modInst i (fun x => { x with sheets := x.sheets.map (fun h =>
    if h.ended.isNone then { h with ended := some x.ticks, byR26 := byR26 } else h) })

/-- A new sheet opens with this number and first line; the list keeps the newest 8,192 sheets. -/
def State.openSheet (s : State) (i : Nat) (num : BitVec 24) (firstLine : Word) : State :=
  let s := s.modInst i (fun x =>
    { x with sheets := (x.sheets.drop (x.sheets.length - 8191)) ++ [{ num := num, ord := x.nextSheet, firstLine := firstLine, opened := x.ticks }]
             nextSheet := x.nextSheet + 1 })
  s.wr (Reg.INL_I_SHEET i) (num.setWidth 32)

/-- SEAL: OUT takes the head of the seal queue of instance i (R281). -/
def execSealToken (i : Nat) (s : State) : Res :=
  if !isInst i || !(s.inst i).live then .next s
  else
    match s.localQueue i (s.fld (Reg.OUT_I_QUEUES i) 29 16) with
    | none => .next s
    | some q =>
      let s := s.settle q
      if (s.queue q).entries.isEmpty then .next s
      else
        match (s.eccHead q).readQueue q with
        | (s, none) => .next s
        | (s, some e) =>
          let x := s.inst i
          let data := e.kind == kindData
          if !data && !(e.kind == kindControl && e.code == codeUser) then .next s
          else
            let num : BitVec 24 := e.tokLine.setWidth 24
            let fits (h : Sheet) : Bool := h.num == num &&
              (match h.ended with | some t => decide (x.ticks ≤ t + 256) | none => false)
            match x.unsealed.find? fits with
            | none => .next ((s.count (Reg.OUT_I_LATE_SEAL i)).event (Reg.OUT_I_EVT i) 3)
            | some h =>
              if data then
                let n := 64 * e.pxCount
                let r := match s.window i e.window with
                  | some w => s.readWindow w (64 * e.offset) n
                  | none => s.openBytes n
                .next (r.2.seal i h.ord { map := some r.1, missed := false })
              else .next (s.seal i h.ord { map := none, missed := false })

/-- PUBLICATION_DEADLINE: at the accepted tick after the 256th, an unsealed sheet is sealed without a map (R282). -/
def execPublicationDeadline (i : Nat) (s : State) : Res :=
  let x := s.inst i
  match x.unsealed with
  | h :: _ =>
    match h.ended with
    | some t =>
      s.onlyIf (isInst i && x.live && decide (t + 256 < x.ticks))
        (((s.count (Reg.OUT_I_DEADLINE i)).event (Reg.OUT_I_EVT i) 1).seal i h.ord { map := none, missed := true })
    | none => .next s
  | [] => .next s

/-! ### The outlet (R286, R287) -/

/-- Outlet lanes enabled, not fenced and not under test; none while OUT_CTRL does not send frames, before the first release since cold
start, or at a device kickstand (R427). -/
def State.outLanes (s : State) : List Nat :=
  if !s.bit Reg.OUT_CTRL 0 || s.bit Reg.OUT_CTRL 1 || !s.sig.anyReleased || s.flt.down then []
  else (List.range 8).filter (fun j => s.bit Reg.OUT_LANE_EN j && !s.flt.fenced.any (fun f => f.1 == 6 && f.2.1 == j)
    && !s.flt.testing.any (fun k => k.kind == 6 && k.unit == j))

/-- A VLF word from 8 bytes, the first in bits 63:56. -/
def wordBE (bs : List Byte) : DWord := BitVec.ofNat 64 (beNat ((bs ++ List.replicate 8 0).take 8))

/-- The words of a unit of 64 bytes and its successors. -/
def wordsBE : Nat → List Byte → List DWord
  | 0, _ => []
  | n + 1, bs => wordBE bs :: wordsBE n (bs.drop 8)

/-- The octets of words, first octet first. -/
def octets (ws : List DWord) : List Byte := ws.flatMap (fun w => (leBytes 8 w.toNat).reverse)

/-- The words of segment k of `n`, header to trailer (R31 to R36, R287). -/
def segWords (i k n num : Nat) (sheet : BitVec 24) (stamp first units : Nat) (bs : List Byte) : List DWord :=
  let h0 := BitVec.ofNat 64 (0x1 <<< 60 + 0x2 <<< 56 + i <<< 52 + (k % 256) <<< 40 + ((n - 1) % 256) <<< 32 + num)
  let h1 := BitVec.ofNat 64 (sheet.toNat <<< 40 + stamp % 2 ^ 32)
  let h2 := BitVec.ofNat 64 ((first % 65536) <<< 48 + (units % 65536) <<< 32 + (8 * units % 65536) <<< 16)
  let ws := [h0, h1, h2] ++ wordsBE (8 * units) (bs.drop (64 * first))
  ws ++ [BitVec.ofNat 64 (crc32 (octets ws)).toNat]

/-- First unit and units of each of `n` segments: nearly equal, the larger first (R287). -/
def segCuts (u n : Nat) : List (Nat × Nat) :=
  (List.range n).map (fun k => (k * (u / n) + min k (u % n), u / n + (if k < u % n then 1 else 0)))

/-- Queue the segments of an edition on the enabled lanes; an idle lane starts its first. -/
def State.sendEdition (s : State) (i : Nat) (d : Edition) : State :=
  if !s.drives || !s.bit (Reg.OUT_I_CTRL i) 3 then s
  else
    let lanes := s.outLanes
    let l := lanes.length
    if l = 0 then s.event (Reg.OUT_I_EVT i) 7
    else
      let u := ceilDiv d.bytes.length 64
      let n := l * ceilDiv u (4096 * l)
      (segCuts u n).zipIdx.foldl (fun s p =>
        let j := (lanes[p.2 % l]?).getD 0
        let g : OutSeg := { lane := j, inst := i, edition := d.num, first := p.1.1, units := p.1.2
                            sending := !s.outSegs.any (fun o => o.lane == j)
                            words := segWords i p.2 n d.num d.sheet d.stamp p.1.1 p.1.2 d.bytes }
        { s with outSegs := s.outSegs ++ [g] }) s

/-- Start the first waiting segment of lane j. -/
def startSeg (j : Nat) : List OutSeg → List OutSeg
  | [] => []
  | g :: gs => if g.lane = j then { g with sending := true } :: gs else g :: startSeg j gs

/-! ### The transmit PCS (R286) -/

/-- A data block: sync header 01 in the order of transmission, bit 0 of `sync` first, and the word's first octet first on
the lane, so in bits 7:0 of the block. -/
def dataBlock (w : DWord) : TxBlock := { sync := 0b10, body := BitVec.ofNat 64 (leNat (octets [w])) }
/-- A control block of a type with seven octets behind it: sync header 10 in the order of transmission. -/
def controlBlock (type : Byte) (os : List Byte) : TxBlock :=
  { sync := 0b01, body := BitVec.ofNat 64 (leNat (type :: (os ++ List.replicate 7 0).take 7)) }

/-- The start block of a frame (R31). -/
def txStart : TxBlock := controlBlock 0x78 [0x55, 0x55, 0x55, 0x55, 0x55, 0x55, 0xD6]
/-- The terminate block without data octets, and the idle block that follows each frame (R29, R30). -/
def txTerm : TxBlock := controlBlock 0x87 []
def txIdle : TxBlock := controlBlock 0x1E []

/-- The blocks of a frame: start, its words, terminate, and an idle block (R29 to R31). -/
def txFrame (ws : List DWord) : List TxBlock := txStart :: ws.map dataBlock ++ [txTerm, txIdle]

/-- One bit of the self-synchronising scrambler x^58 + x^39 + 1: the bit sent, and the register with it shifted in. -/
def scrambleBit (r : BitVec 58) (b : Bool) : Bool × BitVec 58 :=
  let o := b != (r.getLsbD 38 != r.getLsbD 57)
  (o, (r <<< 1) ||| (if o then 1 else 0))

/-- Scramble the `n` bits of a payload from bit 64 − n up, in the order of their transmission. -/
def scrambleWord (w : DWord) : Nat → BitVec 58 → DWord × BitVec 58
  | 0, r => (0, r)
  | n + 1, r =>
    let p := scrambleBit r (w.getLsbD (63 - n))
    let q := scrambleWord w n p.2
    (q.1 ||| (if p.1 then 1#64 <<< (63 - n) else 0), q.2)

/-- Scramble the payloads of blocks one after the other; sync headers are sent as they are. -/
def scramble : List TxBlock → BitVec 58 → List TxBlock
  | [], _ => []
  | b :: bs, r =>
    let p := scrambleWord b.body 64 r
    { b with body := p.1 } :: scramble bs p.2

/-- What an outlet lane shows: nothing, PRBS-31, idle blocks, or the blocks of a frame. -/
inductive LaneShows where
  | electricalIdle | prbs31 | idleBlocks | frame
deriving DecidableEq, Repr

/-- Lane j of the outlet (R286, R287): electrical idle unless it is enabled on the device that drives the outlet. -/
def State.laneShows (s : State) (j : Nat) : LaneShows :=
  if !s.drives || !s.bit Reg.OUT_LANE_EN j then .electricalIdle
  else if s.bit Reg.OUT_CTRL 1 then .prbs31
  else if s.outSegs.any (fun g => g.lane == j && g.sending) then .frame
  else .idleBlocks

/-- OUTLET_SEGMENT_SENT: lane j has sent its segment, encoded and scrambled, and starts the next that waits on it (R286,
R287). How many idle blocks went before is timing, so the scrambler's register at the frame's start is a free value. -/
def execOutletSegmentSent (j : Nat) (s : State) : Res :=
  match s.outSegs.find? (fun g => g.lane == j && g.sending) with
  | none => .next s
  | some g =>
    let r := s.draw
    .next { r.2 with outTx := SMap.put j (scramble (txFrame g.words) (r.1.setWidth 58)) r.2.outTx
                     outSegs := startSeg j (r.2.outSegs.filter (fun g => !(g.lane == j && g.sending))) }

/-- The edition's transaction stands whole, or the store refused it (R285, R328). -/
def State.editionReady (s : State) (d : Edition) : Bool :=
  match d.txn with
  | none => true
  | some n => (match s.txn n with | some t => decide (1 ≤ t.phase) | none => true)

/-- Publish an edition: its registers together, the event, the outlet and the mirror (R285). -/
def State.publish (s : State) (i : Nat) (d : Edition) : State :=
  let d := { d with stamp := (s.inst i).ticks }
  let s := s.wr (Reg.OUT_I_ED_NUM i) (BitVec.ofNat 32 d.num)
  let s := (s.wr (Reg.OUT_I_ED_SHEET i) (d.sheet.setWidth 32)).wr (Reg.OUT_I_ED_FLAGS i) (d.status.setWidth 32)
  let s := (s.event (Reg.OUT_I_EVT i) 0).modInst i (fun x =>
    { x with lastEdition := some d, unmarked := if s.follows then x.unmarked ++ [d] else x.unmarked })
  ((s.sendEdition i d).mirrorEdition i d).sendMark i

/-- EDITION_PUBLISH: the oldest composed edition of instance i is published once it stands whole (R285); then the next
sealed sheet may go on (R281). -/
def execEditionPublish (i : Nat) (s : State) : Res :=
  match (s.inst i).editions with
  | [] => .next s
  | d :: ds =>
    s.onlyIf (isInst i && s.editionReady d)
      (let s := (s.modInst i (fun x => { x with editions := ds })).publish i d
       if (s.inst i).live then s.sealNext i else s)

/-- OUT_I_CMD (R288): bit 0 repeats the mirror of the latest edition, bit 1 clears the counters. -/
def State.outCmd (s : State) (i : Nat) (v : Word) : State :=
  let s := if v.getLsbD 1 then
      (((s.wr (Reg.OUT_I_RESULTS i) 0).wr (Reg.OUT_I_MIRROR_DROP i) 0).wr (Reg.OUT_I_DEADLINE i) 0).wr
        (Reg.OUT_I_LATE_SEAL i) 0
    else s
  if v.getLsbD 0 then
    (match (s.inst i).lastEdition with | some d => s.mirrorEdition i d | none => s)
  else s

/-! ### Records (R230, R280, R321) -/

/-- Record entries that one record of `n` bytes fills. -/
def recordEntries (n : Nat) : Nat := max 1 (ceilDiv n 64)

/-- The sheet that a record joins: its own while it is not sealed, else the oldest that is not sealed (R281). -/
def Inst.recordSheet (x : Inst) (num : BitVec 24) : Option Sheet :=
  match x.sheets.find? (fun h => h.num == num && !h.sealed_) with
  | some h => some h
  | none => x.sheets.find? (fun h => !h.sealed_)

/-- A record joins the transaction of a sheet, which opens with it where it is the first (R321). -/
def State.addRecord (s : State) (i part : Nat) (h : Sheet) (num : BitVec 24) (bs : List Byte) (poison : Bool) : State :=
  let r := match h.txn with
    | some n => (n, s)
    | none =>
      let o := s.openTxn 1 part i h.num.toNat 0 []
      (o.1, o.2.beginOpen o.1)
  let s := (r.2.modTxn r.1 (fun t => { t with records := t.records ++ [bs], uncorrectable := t.uncorrectable || poison })).placePages r.1 false
  s.modInst i (fun x => x.modSheet h.ord (fun h =>
    { h with txn := some r.1, carried := if h.num = num then h.carried else h.carried + 1 }))

/-- A record's transaction is refused (R328): counted once for its sheet. -/
def State.refuseRecord (s : State) (i : Nat) (h : Sheet) : State :=
  if h.refused then s else s.txnLost.modInst i (fun x => x.modSheet h.ord (fun h => { h with refused := true }))

/-- RECORD: the record at the head of record queue q is accepted, or discarded whole when the instance's share of the
commit buffer cannot hold it (R321). DESIGN CHOICE (log entry 70): one of whose entries fails parity (R226) is discarded whole
in the same way, and bytes of a poisoned word (R240) give its transaction the flag uncorrectable, as R339 does for the commit
buffer. -/
def execRecordIn (h : Head) (s : State) : Res :=
  let q := h.q
  let y := s.queue q
  let i := y.owner
  match y.entries with
  | [] => .next s
  | e :: _ =>
    if y.qkind ≠ qRecord ∨ 8 ≤ i then .next s
    else
      let len := max 64 (leField e.bytes 4 4)
      let n := recordEntries len
      if y.entries.length < n then .next s
      else
        let es := y.entries.take n
        let bs := (es.flatMap (·.bytes)).take len
        let s := s.setQueue q { y with entries := y.entries.drop n, rd := (y.rd + n) % y.ptrMod }
        let num : BitVec 24 := BitVec.ofNat 24 (leField e.bytes 0x10 4)
        if h.bad || es.any (·.bad) then
          .next (((s.badEntry q).count (Reg.STO_I_REC_DROP i)).event (Reg.STO_I_EVT i) 1)
        else if 1024 * s.fld (Reg.STO_I_BUF i) 13 0 < s.bufUsed i + bs.length then
          .next ((s.count (Reg.STO_I_REC_DROP i)).event (Reg.STO_I_EVT i) 1)
        else
          match (s.inst i).recordSheet num, s.partOf i with
          | some h, some p =>
            if h.txn.isNone && !s.storeOpen then .next (s.refuseRecord i h) else .next (s.addRecord i p h num bs (es.any (·.carried)))
          | some h, none => .next (s.refuseRecord i h)
          | none, _ => .next s.txnLost

end Sys2Proof.Machine
end

