-- ==== Sys2Proof/Machine/Reconf.lean ====
section
/-! DEFINITION. Line starts of stages, and the reload of one stage: epochs, markers, drain and discard, the configuration
writes and the staged release (R19, R56, R57, R96, R166 to R172, R184, R301 to R304, R433). -/

namespace Sys2Proof.Machine

/-! ### Units of a stage -/

/-- The engines, columns and cores of a mask. -/
def maskUnits (m n : Nat) : List Nat := (List.range n).filter (hasBit m)

/-- The rows of a tile column. -/
def tileRows : List Nat := List.range 32

/-- Hold the units of a stage as in a partial load (R172, R296). -/
def State.holdStage (s : State) (d : StageDesc) : State :=
  { s with
    engines := SMap.mapVals {} (fun e x =>
      if hasBit d.engines e then { x with queue := [], epis := [], fills := [], waitTick := none } else x) s.engines
    tiles := SMap.mapVals {} (fun c x =>
      if hasBit d.columns (c / 32) then { x with running := false, waitTick := none, waitKind := 0 } else x) s.tiles
    cores := SMap.mapVals {} (fun k x =>
      if hasBit d.cores k && x.st != .idle && x.st != .fenced then { x with st := .held, waitTick := none }
      else x) s.cores }

/-- Does a program target core k, or tile (c, r)? -/
def ProgramDesc.onCore (p : ProgramDesc) (k : Nat) : Bool := p.profile == 1 && decide (p.first ≤ k) && decide (k < p.first + p.count)
def ProgramDesc.onTile (p : ProgramDesc) (c r : Nat) : Bool :=
  p.profile == 2 && decide (p.first ≤ c) && decide (c < p.first + p.count) && p.rowMask.testBit r

/-- Core k starts at its program's entry with the values of R184; without a program it stays idle. -/
def State.startCore (s : State) (i k : Nat) (im : Image) (starts : Nat) : State :=
  if (s.core k).st = .fenced then s
  else
    match im.programs.find? (fun p => p.onCore k) with
    | some p => s.setCore k { pc := BitVec.ofNat 17 (4 * p.entry), lfsr := lfsrSeed im.imageId k, st := .running,
                              starts := starts }
    | none => s.setCore k (if s.ownsCore i k then { lfsr := lfsrSeed im.imageId k } else {})

/-- Tile (c, r) starts at its program's entry with the values of R184. -/
def State.startTile (s : State) (c r : Nat) (im : Image) (starts : Nat) : State :=
  match im.programs.find? (fun p => p.onTile c r) with
  | some p => s.setTile c r { pc := BitVec.ofNat 11 p.entry, running := true, starts := starts }
  | none => s.setTile c r {}

/-- The units of a stage leave reset: cores seeded, programs started, command numbers restarted (R303). -/
def State.startStage (s : State) (i : Nat) (im : Image) (d : StageDesc) (starts : Nat) : State :=
  let s := (maskUnits d.cores 128).foldl (fun s k => s.startCore i k im starts) s
  let s := (maskUnits d.columns 64).foldl (fun s c => tileRows.foldl (fun s r => s.startTile c r im starts) s) s
  (maskUnits d.engines 64).foldl (fun s e => s.modEngine e (fun g =>
    { g with queue := [], epis := [], fills := [], entered := 0, stopped := false, waitTick := none })) s

/-! ### Line starts (R19, R56) -/

/-- The stage starts the line at the head of its slip. Taint ends at the first line start after the repair write
(R343). -/
def Stage.start (g : Stage) : Stage :=
  match g.waiting with
  | [] => g
  | l :: ls =>
    { g with working := some l, waiting := ls, starts := g.starts + 1, lastLine := l.line, lineTaint := false
             taint := g.taint && !g.repaired, repaired := g.repaired && !g.taint }

/-- Input queues of a stage, as device queues, each once. -/
def State.inQueues (s : State) (i : Nat) (d : StageDesc) : List Nat :=
  (d.edges.filterMap (fun e => s.localQueue i e.queue)).eraseDups

/-- The old program of a draining stage has read to the marker on every input queue and waits at TICKWAIT (R168). -/
def State.drained (s : State) (i sid : Nat) : Bool :=
  let x := s.inst i
  match x.stageDesc sid, x.stage sid with
  | some d, some g =>
    g.st == .draining && g.marks.isEmpty && g.working.isNone && (s.inQueues i d).all (fun q => (s.queue q).atMarker)
      && (maskUnits d.cores 128).all (fun k => (s.core k).st == .tickwait || (s.core k).st == .idle || (s.core k).st == .fenced)
      && (maskUnits d.columns 64).all (fun c => tileRows.all (fun r => !(s.tile c r).running || (s.tile c r).waitKind == 2))
  | _, _ => false

/-- May the stage start a line now? -/
def State.mayWork (s : State) (i sid : Nat) : Bool :=
  match (s.inst i).stage sid with
  | some g => (match g.st with
    | .running => true
    | .draining => !s.drained i sid
    | .fencedRepairing => g.stopTick.isNone
    | _ => false)
  | none => false

/-- A stage that is free starts its next line at once. -/
def State.startNext (s : State) (i sid : Nat) : State :=
  match (s.inst i).stage sid with
  | some g => if g.working.isNone && s.mayWork i sid then s.modInst i (fun x => x.modStage sid Stage.start) else s
  | none => s

/-! ### Markers (R166, R167) -/

/-- Put an epoch marker into queue q; none while it is full. -/
def State.pushMarker (s : State) (q : Nat) : Option State :=
  let x := s.queue q
  if x.full then none else some (s.pushEntry q (markerToken x.epoch s.now))

/-- Has the producer no line left whose accepted tick is below the mark's? The inlet has none. -/
def Inst.markReady (x : Inst) (m : MarkDue) : Bool :=
  match x.stage m.producer with
  | some g => !(g.waiting.any (fun l => decide (l.tick < m.before))) &&
      (match g.working with | some l => decide (m.before ≤ l.tick) | none => true)
  | none => true

/-- Inject the markers of a stage that are ready. -/
def State.injectStage (s : State) (i : Nat) (g : Stage) : State :=
  g.marks.foldl (fun s m =>
    if (s.inst i).markReady m then
      match s.pushMarker m.queue with
      | some s => s.modInst i (fun x => x.modStage g.id (fun h => { h with marks := h.marks.filter (· != m) }))
      | none => s
    else s) s

/-- Inject every marker of the instance that is ready. -/
def State.injectMarks (s : State) (i : Nat) : State := (s.inst i).stages.foldl (fun s g => s.injectStage i g) s

/-- The epoch of an input queue rises (R167); in discard mode the old tokens ahead of the marker become VOIDs (R168), each
counted once (R169). -/
def State.bumpQueue (s : State) (q : Nat) (discard : Bool) : State :=
  let x := s.queue q
  let ep := x.epoch + 1
  let isOld (e : Entry) : Bool := discard && !e.bad && e.kind != kindMarker && e.epoch + 1 == ep
  let olds := (x.entries.filter (fun e => isOld e && !e.filler)).length
  let es := x.entries.map (fun e => if isOld e then e.voided ep else e)
  (s.setQueue q { x with epoch := ep, markerPast := false, discard := discard, entries := es }).countBy
    (Reg.TIL_C_TOK_OLD (queueCol q)) olds

/-- A reconfiguration of a stage takes effect at this accepted tick (R167, R168). -/
def State.beginChange (s : State) (i sid : Nat) (c : Armed) (discard : Bool) : State :=
  let x := s.inst i
  match x.stageDesc sid with
  | none => s
  | some d =>
    let off (p : Nat) : Nat := match x.stageDesc p with | some e => e.offset | none => 0
    let due (e : EdgeDesc) : Option MarkDue := (s.localQueue i e.queue).map (fun q =>
      { queue := q, producer := e.producer, before := x.ticks + 1 - e.h - off e.producer })
    let s := (s.inQueues i d).foldl (fun s q => s.bumpQueue q discard) s
    let s := s.modInst i (fun x => x.modStage sid (fun g =>
      { g with st := if discard then .reloading else .draining, epoch := g.epoch + 1, armed := none, change := some c
               relStep := 0, stopTick := none, working := if discard then none else g.working
               marks := g.marks ++ d.edges.filterMap due }))
    let inlet (g : Stage) : Stage := { g with marks := g.marks.filter (fun m => m.producer == 0) }
    let s := match (s.inst i).stage sid with | some g => s.injectStage i (inlet g) | none => s
    if discard then s.holdStage d else s

/-- The armed reload of a stage takes effect at this accepted tick if the stage ran when the tick came and runs still, or if
a poisoned fetch has stopped it and no repair of a unit holds it (R303, R304); g is the stage as the tick found it. -/
def State.takeArmed (s : State) (i : Nat) (g : Stage) : State :=
  match g.armed, (s.inst i).stageDesc g.id, (s.inst i).stage g.id with
  | some c, some d, some h =>
    if g.st = .running ∧ h.st = .running then s.beginChange i g.id c (d.epochMode == 1)
    else if h.st = .fencedRepairing ∧ h.stopTick.isSome ∧ g.unitRepair = 0 ∧ h.unitRepair = 0 then s.beginChange i g.id c true
    else s
  | _, _, _ => s

/-- DRAIN_COMPLETE: a draining stage has read to every marker and waits at TICKWAIT, so its reload starts (R168). -/
def execDrainComplete (i sid : Nat) (s : State) : Res :=
  match (s.inst i).stageDesc sid with
  | some d =>
    s.onlyIf (s.drained i sid)
      ((s.modInst i (fun x => x.modStage sid (fun g => { g with st := .reloading, relStep := 0 }))).holdStage d)
  | none => .next s

/-! ### Writing programs and data (R76 to R78, R171, R301) -/

/-- Copy bytes from memory `k` to another, marks with them: a word that takes poisoned bytes becomes poisoned (R240). -/
def State.copyMarked (s : State) (k : MemKind) (src dst n : Nat) : State :=
  let r := s.secded k src n
  let s := r.1
  let ws := (List.range n).map (fun j => (dst + j, s.poisoned (src + j) 1))
  (s.wrBytesRaw dst (s.rdBytes src n)).markWords ws

/-- Where a weights entry's bytes go (R77). -/
def State.weightDest (s : State) (i : Nat) (w : WeightDesc) : Option Nat :=
  match w.kind with
  | 0 => some (memAddr .weight (s.engPhys w.unit) w.dest)
  | 1 => some (memAddr .weight (s.engPhys w.unit) w.dest)
  | 2 => (s.window i w.unit).map (fun y => memAddr .bulk y.die (y.base + w.dest))
  | 3 => some (memAddr .tile (s.colPhys w.unit) (0x4000 * w.index + w.dest))
  | 4 => some (memAddr .core w.index w.dest)
  | _ => none

/-- Write the bytes of a weights entry. -/
def State.writeWeight (s : State) (i : Nat) (w : WeightDesc) : State :=
  match s.weightDest i w with | some a => s.wrBytes a w.bytes | none => s

/-- Write a program at address 0 of each of its targets (R76). -/
def State.writeProgram (s : State) (p : ProgramDesc) : State :=
  let ts := (List.range p.count).map (· + p.first)
  if p.profile = 1 then ts.foldl (fun s k => s.wrBytes (memAddr .core k 0) p.bytes) s
  else ts.foldl (fun s c => (tileRows.filter p.rowMask.testBit).foldl (fun s r =>
    s.wrBytes (memAddr .tile (s.colPhys c) (0x4000 * r)) p.bytes) s) s

/-- Where an address program stands in its core's SRAM: from the top downward in ascending id (R232). -/
def addrProgDest (ps : List AddrProg) (p : AddrProg) : Nat :=
  memAddr .core p.core (0x20000 - 128 * ((ps.filter (fun q => q.core == p.core && decide (q.id < p.id))).length + 1))

/-- Write the address programs of the cores that `on` names. -/
def State.writeAddrProgs (s : State) (ps : List AddrProg) (on : Nat → Bool) : State :=
  (ps.filter (fun p => on p.core)).foldl (fun s p => s.wrBytes (addrProgDest ps p) p.bytes) s

/-- An image with a patch applied: the stage's programs replaced, its address programs replaced by core and id, its work
time changed (R301). -/
def Image.patched (im : Image) (p : Patch) : Image :=
  let keep := match p.programs with
    | some ps => im.programs.filter (fun q => q.stage != p.stage) ++ ps
    | none => im.programs
  let kept := im.addrProgs.filter (fun a => !p.addrProgs.any (fun b => b.core == a.core && b.id == a.id))
  { im with programs := keep, addrProgs := kept ++ p.addrProgs
            stages := im.stages.map (fun d => if d.id = p.stage then { d with workCycles := p.workCycles } else d) }

/-- Bytes that the configuration port of a column writes (R171). -/
def State.cfgBytes (s : State) (c n : Nat) : State := s.countBy (Reg.TIL_C_CFG_BYTES c) n

/-- The configuration ports' bytes of a patch: a program once for each column, whatever its rows (R171). -/
def State.countPatch (s : State) (p : Patch) : State :=
  let s := ((p.programs.getD []).filter (fun q => q.profile != 1)).foldl (fun s q =>
    (List.range q.count).foldl (fun s c => s.cfgBytes (c + q.first) q.bytes.length) s) s
  (p.weights.filter (fun w => w.kind == 3)).foldl (fun s w => s.cfgBytes w.unit w.bytes.length) s

/-! ### Editions of adaptable stages (R253) -/

/-- The edition entries of a stage: its weights entries of kinds 0 and 1, in entry order. -/
def Image.editionOf (im : Image) (d : StageDesc) : List WeightDesc :=
  im.weights.filter (fun w => decide (w.kind ≤ 1) && hasBit d.engines w.unit)

/-- Bytes of an edition, and of its slot: rounded up to a multiple of 64 KiB. -/
def editionSize (ws : List WeightDesc) : Nat := ws.foldl (fun n w => n + w.bytes.length) 0
def editionSlot (ws : List WeightDesc) : Nat := 0x10000 * ceilDiv (editionSize ws) 0x10000

/-- Pieces of a patch: place in the patch, bytes, and where each goes (R76 to R78, R301); `im` has the patch applied. -/
def State.patchPieces (s : State) (i : Nat) (p : Patch) (im : Image) : List (Nat × Nat × List Nat) :=
  (p.programs.getD []).map (fun q =>
    let ts := (List.range q.count).map (· + q.first)
    (p.progAt + q.pos, q.bytes.length,
      if q.profile = 1 then ts.map (fun k => memAddr .core k 0)
      else ts.flatMap (fun c => (tileRows.filter q.rowMask.testBit).map (fun r => memAddr .tile (s.colPhys c) (0x4000 * r)))))
  ++ p.weights.map (fun w => (p.weightAt + w.pos, w.bytes.length, (s.weightDest i w).toList))
  ++ p.addrProgs.map (fun a => (p.addrAt + a.pos, a.bytes.length, [addrProgDest im.addrProgs a]))

/-- Read one piece of a patch from its copy and write it to its targets, marks with it. -/
def State.writePiece (s : State) (i src l : Nat) (x : Nat × Nat × List Nat) : State :=
  let s := (s.secded .bulk (src + x.1) x.2.1).1
  let s := s.reloadMove i l (src + x.1) x.2.1 (s.poisonIn (src + x.1) x.2.1)
  x.2.2.foldl (fun s t => s.copyMarked .bulk (src + x.1) t x.2.1) s

/-- The address programs of a core that keep their place in the image move with those that the patch brings (R232). -/
def State.placeAddrProgs (s : State) (p : Patch) (im : Image) : State :=
  s.writeAddrProgs im.addrProgs (fun k => p.addrProgs.any (fun a => a.core == k))

/-- Bytes of a patch that lie in an edition go into the live slot too, which holds what the stage's engines run (R253). -/
def State.editLive (s : State) (i : Nat) (p : Patch) (im : Image) : State :=
  let x := s.inst i
  match im.plan, x.stageDesc p.stage with
  | some pl, some d =>
    match pl.entries.find? (fun e => e.stage == p.stage) with
    | none => s
    | some e =>
      match s.window i e.shadowWindow with
      | none => s
      | some w =>
        let ws := im.editionOf d
        let start := memAddr .bulk w.die (w.base + x.adp.live * editionSlot ws)
        (ws.foldl (fun (a : State × Nat) e =>
          let s := (p.weights.filter (fun w => decide (w.kind ≤ 1) && w.unit == e.unit)).foldl (fun s w =>
            let lo := max w.dest e.dest
            let hi := min (w.dest + w.bytes.length) (e.dest + e.bytes.length)
            if lo < hi then
              s.copyMarked .weight (memAddr .weight (s.engPhys e.unit) lo) (start + a.2 + (lo - e.dest)) (hi - lo)
            else s) a.1
          (s, a.2 + e.bytes.length)) (s, 0)).1
  | _, _ => s

/-- Write the bytes of a patch from its copy at `src`, as they stand there now, and take its image (R171, R301, R303). -/
def State.applyPatch (s : State) (i : Nat) (p : Patch) (src l : Nat) : State :=
  match (s.inst i).image with
  | none => s
  | some im =>
    let im := im.patched p
    let s := (s.countPatch p).placeAddrProgs p im
    let s := ((s.patchPieces i p im).foldl (fun s x => s.writePiece i src l x) s).editLive i p im
    s.modInst i (fun x => { x with image := some im
                                   stages := x.stages.map (fun g => if g.id = p.stage then { g with workCycles := p.workCycles } else g) })

/-- Load the edition in slot k of a plan entry's shadow window into its stage's engines. -/
def State.loadSlot (s : State) (i : Nat) (p : PlanEntry) (k : Nat) : State :=
  match (s.inst i).image, (s.inst i).stageDesc p.stage, s.window i p.shadowWindow with
  | some im, some d, some w =>
    let ws := im.editionOf d
    let start := memAddr .bulk w.die (w.base + k * editionSlot ws)
    (ws.foldl (fun (a : State × Nat) e =>
      let s := match a.1.weightDest i e with
        | some t => a.1.copyMarked .bulk (start + a.2) t e.bytes.length
        | none => a.1
      (s, a.2 + e.bytes.length)) (s, 0)).1
  | _, _, _ => s

/-- The check of R134 over the regions that an edition's bytes touch, one engine at a time. A failure stops the engine as one
on LOADW does (R134, R152). DESIGN CHOICE (log entry 66): R304 keeps the check for a promotion or rollback and names no command
to record, so ENG_E_ERR holds class and number 0. -/
def State.checkEdition (s : State) (ws : List WeightDesc) : State :=
  ((ws.map (·.unit)).eraseDups).foldl (fun s e =>
    if (ws.filter (fun w => w.unit == e)).all (fun w => s.regionsOk e w.dest w.bytes.length) then s
    else s.engStop e { words := [], seq := 0, core := 0, line := 0 } 2 6) s

/-- The writes of a change: a patch's bytes, or the edition in the new live slot, with its check (R304). -/
def State.writeChange (s : State) (i sid : Nat) (c : Armed) : State :=
  match c.patch with
  | some p => s.applyPatch i p c.src c.queue
  | none =>
    match (s.inst i).image with
    | some im =>
      match im.plan with
      | some pl => (match pl.entries.find? (fun e => e.stage == sid) with
        | some e =>
          let t := s.loadSlot i e (s.inst i).adp.live
          (match (s.inst i).stageDesc sid with | some d => t.checkEdition (im.editionOf d) | none => t)
        | none => s)
      | none => s
    | none => s

/-- CONFIG_WRITE_DONE: the writes of a reload are made, the registers of its tiles are cleared, and the first release step,
outputs, follows at once (R171, R172, R303). A host reload waits while its transfer queue is at its cap. -/
def execConfigWriteDone (i sid : Nat) (s : State) : Res :=
  match (s.inst i).stageDesc sid, (s.inst i).stage sid with
  | some d, some g =>
    match g.change with
    | some c =>
      s.onlyIf (g.st == .reloading && g.relStep == 0 && (c.patch.isNone || s.reloadReady i c.queue))
        (let s := s.writeChange i sid c
         let s := (maskUnits d.columns 64).foldl (fun s k => tileRows.foldl (fun s r => s.setTile k r
           { s.tile k r with l := [], la := 0, lf := 0, ctr := [] }) s) s
         s.modInst i (fun x => x.modStage sid (fun g => if g.st = .reloading then { g with relStep := 1 } else g)))
    | none => .next s
  | _, _ => .next s

/-- STAGE_RELEASE_STEP: write enables, then resets: the units start and the stage runs again (R172). -/
def execStageReleaseStep (i sid : Nat) (s : State) : Res :=
  match (s.inst i).stageDesc sid, (s.inst i).stage sid, (s.inst i).image with
  | some d, some g, some im =>
    if g.st ≠ .reloading then .next s
    else if g.relStep = 1 then .next (s.modInst i (fun x => x.modStage sid (fun g => { g with relStep := 2 })))
    else if g.relStep = 2 then
      let s := s.startStage i im d g.starts
      let s := s.modInst i (fun x => x.modStage sid (fun g => { g with st := .running, relStep := 3 }))
      .next ((s.startNext i sid).injectMarks i)
    else .next s
  | _, _, _ => .next s

/-- STAGE_LINE_FINISH: the stage finishes its line, and starts the next at once when it has slip (R19). -/
def execStageLineFinish (i sid t : Nat) (s : State) : Res :=
  let s := s.at_ t
  match (s.inst i).stage sid with
  | some g =>
    s.onlyIf g.working.isSome
      (let s := s.modInst i (fun x => x.modStage sid (fun g => { g with working := none, finish := some s.now }))
       let s := s.startNext i sid
       if (s.inst i).live then s.injectMarks i else s)
  | none => .next s

end Sys2Proof.Machine
end

