-- ==== Sys2Proof/Machine/Loader.lean ====
section
/-! DEFINITION. Load images and stage patches: their layout and the checks of the loader, and the binding of an image to its
instance (R55, R58, R59, R63, R66, R68 to R85, R134, R220, R221, R254, R292, R295, R301, R302, R323, R425). -/

namespace Sys2Proof.Machine

/-! ### Bytes of an image -/

/-- Bytes `off .. off + n`. -/
def slice (bs : List Byte) (off n : Nat) : List Byte := (bs.drop off).take n

/-- Are bytes `off .. off + n` all 0? -/
def zeros (bs : List Byte) (off n : Nat) : Bool := (slice bs off n).all (· == 0)

/-- A check: the code of its row where it fails (R85). -/
def chk (code : Nat) (c : Bool) : Except Nat Unit := if c then .ok () else .error code

/-- Engine clock of the grade, in kHz (R69, R1). -/
def gradeKhz : Nat := if Config.grade % 2 = 0 then 1000000 else 800000

/-- A section of the directory (R72). -/
structure Sec where
  type : Nat
  off : Nat
  len : Nat
  crc : Nat
deriving DecidableEq, Repr

/-- The sections of an image by type. -/
def secOf (ss : List Sec) (t : Nat) : Option Sec := ss.find? (fun x => x.type == t)
def secBytes (bs : List Byte) (ss : List Sec) (t : Nat) : List Byte :=
  match secOf ss t with | some x => slice bs x.off x.len | none => []

/-! ### Rows 0x01 to 0x04: header, directory, CRC -/

/-- Row 0x01: magic, fmt_major, header_crc and the header's reserved fields. -/
def headerOk (bs : List Byte) (patch : Bool) : Bool :=
  slice bs 0 4 == [0x56, 0x59, 0x4C, if patch then 0x50 else 0x49] && leField bs 4 2 == 2
    && leField bs 0x3C 4 == (crc32c (slice bs 0 0x3C)).toNat && decide (64 ≤ bs.length)
    && decide (leField bs 0x14 2 < 4)
    && (if patch then zeros bs 0x25 3 && zeros bs 0x2C 16 else zeros bs 0x24 24)

/-- Row 0x02: part, stepping, engine clock and tile divider. -/
def partOk (bs : List Byte) : Bool :=
  leField bs 0x0C 2 == 0x8A && decide (leField bs 0x0E 1 ≤ 0xA1) && leField bs 0x10 4 == gradeKhz
    && (leField bs 0x0F 1 == 1 || leField bs 0x0F 1 == 2)

/-- The directory (R72). -/
def directory (bs : List Byte) : List Sec :=
  (List.range (leField bs 0x16 2)).map (fun n =>
    { type := leField bs (0x40 + 16 * n) 2, off := leField bs (0x44 + 16 * n) 4, len := leField bs (0x48 + 16 * n) 4,
      crc := leField bs (0x4C + 16 * n) 4 })

/-- Sections in ascending type order, in the same order in the image, aligned and inside image_size. -/
def placed (size : Nat) : Nat → Nat → List Sec → Bool
  | _, _, [] => true
  | t, e, x :: xs =>
    decide (t < x.type) && decide (e ≤ x.off) && x.off % 64 == 0 && decide (0 < x.len) && decide (x.off + x.len ≤ size)
      && placed size x.type (x.off + x.len) xs

/-- Row 0x03: the directory of an image or of a patch. -/
def directoryOk (bs : List Byte) (patch : Bool) : Bool :=
  let n := leField bs 0x16 2
  let size := leField bs 8 4
  let ss := directory bs
  let flags := leField bs 0x14 2
  let has (t : Nat) : Bool := (secOf ss t).isSome
  let count := if patch then decide (1 ≤ n) && decide (n ≤ 4) else decide (9 ≤ n) && decide (n ≤ 11)
  let types := if patch then ss.all (fun x => [3, 4, 5, 11].contains x.type)
    else (List.range 9).all (fun t => has (t + 1)) && ss.all (fun x => decide (x.type ≤ 11)) && has 10 == flags.testBit 1
  count && decide (size ≤ bs.length) && size % 64 == 0 && placed size 0 (0x40 + 16 * n) ss && types
    && has 11 == flags.testBit 0 && (List.range n).all (fun k => zeros bs (0x42 + 16 * k) 2)
    && (match secOf ss 11 with | some x => x.len == 144 | none => true)

/-- Row 0x04: the CRC-32C of every section but the signature, whose entry's crc is not checked (R72). -/
def crcsOk (bs : List Byte) : Bool :=
  (directory bs).all (fun x => x.type == 11 || (crc32c (slice bs x.off x.len)).toNat == x.crc)

/-! ### Row 0x05: resources (R73, R220, R221, R292, R323) -/

structure Resources where
  engines : Nat
  columns : Nat
  cores : Nat
  tags : Nat
  recordMib : Nat
  windows : List WindowReq
  queues : List QueueReq
  allowances : List (Nat × Nat)
deriving DecidableEq, Repr

def parseResources (b : List Byte) : Resources :=
  let w := leField b 0x24 2
  let q := leField b 0x26 2
  let a := leField b 0x28 2
  { engines := leField b 0 8, columns := leField b 8 8, cores := leField b 0x10 16, tags := leField b 0x20 4,
    recordMib := leField b 0x2C 4,
    windows := (List.range w).map (fun n =>
      let o := 64 + 16 * n
      { id := leField b o 1, die := leField b (o + 1) 1, access := leField b (o + 2) 1, size := leField b (o + 4) 4 }),
    queues := (List.range q).map (fun n =>
      let o := 64 + 16 * w + 16 * n
      { localId := leField b o 2, pool := leField b (o + 2) 1, depth := leField b (o + 4) 4, cap := leField b (o + 8) 2,
        maxBytes := leField b (o + 12) 4 }),
    allowances := (List.range a).map (fun n =>
      let o := 64 + 16 * w + 16 * q + 8 * n
      (leField b o 1, leField b (o + 4) 4)) }

/-- Reserved fields of the resources section, and its length. -/
def resourcesForm (b : List Byte) : Bool :=
  let w := leField b 0x24 2
  let q := leField b 0x26 2
  let a := leField b 0x28 2
  decide (b.length = 64 + 16 * w + 16 * q + 8 * a) && decide (w ≤ 64) && decide (1 ≤ q) && decide (q ≤ 16384)
    && decide (a ≤ 10) && zeros b 0x2A 2 && zeros b 0x30 16
    && (List.range w).all (fun n => zeros b (64 + 16 * n + 3) 1 && zeros b (64 + 16 * n + 8) 8)
    && (List.range q).all (fun n => let o := 64 + 16 * w + 16 * n; zeros b (o + 3) 1 && zeros b (o + 10) 2)
    && (List.range a).all (fun n => let o := 64 + 16 * w + 16 * q + 8 * n; zeros b (o + 1) 3 && decide (leField b o 1 ≤ 9))

/-- log2 of a power of two up to 2^15. -/
def log2Of (n : Nat) : Option Nat := (List.range 16).find? (fun k => n == 2 ^ k)

/-- The QUE_Q_CFG word of a depth field, if R221 allows the field for the pool. The kinds of QUE_Q_CFG other than a token
queue's are one above those of the depth field. -/
def depthCfg (pool d : Nat) : Option Word :=
  let kind := d / 2 ^ 28
  let n := d % 65536
  let modes := 0x100 * (d / 2 ^ 24 % 2) + d / 2 ^ 20 % 4 * 0x10
  if d / 2 ^ 25 % 8 ≠ 0 ∨ d / 2 ^ 22 % 4 ≠ 0 ∨ d / 2 ^ 16 % 16 ≠ 0 then none
  else
    let ok (lo hi : Nat) : Option Word :=
      match log2Of n with
      | some k => if lo ≤ k ∧ k ≤ hi then some (BitVec.ofNat 32 (2 ^ 28 * kind + 2 ^ 16 * k + modes)) else none
      | none => none
    match pool with
    | 0 => if kind ≠ 0 then none else if n = 0 then some (BitVec.ofNat 32 modes) else ok 1 9
    | 1 => if kind ≤ 1 then (ok 0 6).map (fun v => v + 0x10000000) else none
    | 2 => if 2 ≤ kind ∧ kind ≤ 4 then (ok 1 15).map (fun v => v + 0x10000000) else none
    | _ => none

/-- The device queues of a pool that the instance owns, in binding order (R220). -/
def State.poolQueues (s : State) (i pool : Nat) : List Nat :=
  let owned (lo n : Nat) : List Nat := ((List.range n).map (· + lo)).filter (fun q => (s.queue q).owner == i)
  match pool with
  | 0 =>
    let v := s.rd (Reg.INS_I_COLS i)
    (List.range (192 * bits v 14 8)).map (· + 192 * bits v 5 0)
  | 1 => owned 12288 2048
  | _ => owned 14336 2048

/-- Each queue entry with the device queue it binds to; none where the pool is too small. -/
def State.bindings (s : State) (i : Nat) (qs : List QueueReq) : Option (List (QueueReq × Nat)) :=
  let one (pool : Nat) : Option (List (QueueReq × Nat)) :=
    let mine := qs.filter (fun q => q.pool == pool)
    let dev := s.poolQueues i pool
    if mine.length ≤ dev.length then some (mine.zip dev) else none
  match one 0, one 1, one 2 with
  | some a, some b, some c => some (a ++ b ++ c)
  | _, _, _ => none

/-- Entries of the six slots of each tile total at most 512 (R221). -/
def tilesFit (bs : List (QueueReq × Nat)) : Bool :=
  let toks := bs.filter (fun b => b.1.pool == 0)
  toks.all (fun b => decide ((toks.filter (fun c => c.2 / 6 == b.2 / 6)).foldl (fun n c => n + c.1.depth % 65536) 0 ≤ 512))

/-- Every unit of the masks is assigned to the instance, and no core of them is fenced (R73, R352). -/
def State.unitsOk (s : State) (i engines columns cores : Nat) : Bool :=
  (maskUnits engines 64).all (hasBit (s.engMask i)) && (maskUnits columns 64).all (s.ownsCol i)
    && (maskUnits cores 128).all (fun k => s.ownsCore i k && !(s.rd (Reg.HIF_CORE_FENCED (k / 32))).getLsbD (k % 32))

/-- The window of the image's request is assigned as R293 requires. -/
def State.windowOk (s : State) (i : Nat) (w : WindowReq) : Bool :=
  decide (w.id < 64) && decide (w.die < 4) && decide (w.access < 8) && decide (1 ≤ w.size) && decide (w.size ≤ 1536) &&
  (match s.window i w.id with
   | some x => x.die == w.die && decide (0x10000 * w.size ≤ x.size) && x.access &&& w.access == w.access
   | none => false)

/-- A bound queue grants the entry's cap and transfer size; token queues have none. -/
def State.queueOk (s : State) (b : QueueReq × Nat) : Bool :=
  let x := s.queue b.2
  (depthCfg b.1.pool b.1.depth).isSome &&
  (if b.1.pool = 0 then b.1.cap == 0 && b.1.maxBytes == 0
   else decide (b.1.cap ≤ bits x.cap 15 0) && decide (b.1.maxBytes ≤ x.maxb.toNat))

/-- The records partition of the instance holds at least `mib` (R323); 0 asks for none. -/
def State.partitionOk (s : State) (i mib : Nat) : Bool :=
  match s.partOf i with
  | some p => decide (mib ≤ s.fld (Reg.STO_P_CFG p) 15 0)
  | none => false

/-- No tile cluster is shared with an instance of another tile divider (R292). -/
def State.clusterOk (s : State) (i div : Nat) : Bool :=
  instNums.all (fun j =>
    j == i || (s.inst j).st == .unloaded ||
    (match (s.inst j).image with
     | some im => im.tileDiv == div ||
        (List.range 16).all (fun c => !((List.range 4).any (fun k => s.ownsCol i (4 * c + k)) &&
          (List.range 4).any (fun k => s.ownsCol j (4 * c + k))))
     | none => true))

/-- Row 0x05. -/
def State.resourcesOk (s : State) (i div : Nat) (b : List Byte) : Bool :=
  let r := parseResources b
  resourcesForm b && s.unitsOk i r.engines r.columns r.cores
    && decide (1 ≤ r.tags) && decide (r.tags ≤ 262144) && decide (r.tags ≤ s.fld (Reg.INS_I_TAGS i) 18 0)
    && r.windows.all (s.windowOk i) && decide ((r.windows.map (·.id)).eraseDups.length = r.windows.length)
    && r.queues.zipIdx.all (fun p => p.1.localId == p.2 && decide (p.1.pool < 3))
    && (match s.bindings i r.queues with | some bs => bs.all s.queueOk && tilesFit bs | none => false)
    && s.partitionOk i r.recordMib && s.clusterOk i div

/-! ### Rows 0x06 and 0x07: stages and schedule -/

def parseEdge (b : List Byte) (o : Nat) : EdgeDesc :=
  { producer := leField b o 1, h := leField b (o + 1) 1 % 2, camera := (leField b (o + 1) 1).testBit 1,
    back := leField b (o + 2) 1, ahead := leField b (o + 3) 1, rows := leField b (o + 4) 2, queue := leField b (o + 6) 2,
    chunkPx := leField b (o + 8) 2, window := leField b (o + 10) 1, base := leField b (o + 12) 4 }

def parseStage (b : List Byte) (o : Nat) : StageDesc :=
  let kind := leField b (o + 1) 1
  let rate := leField b (o + 3) 1
  { id := leField b o 1, adaptable := kind.testBit 7, paged := kind.testBit 6, chained := kind.testBit 5,
    output := kind.testBit 4, crop := kind.testBit 3, depth := leField b (o + 2) 1, rate := 2 ^ (rate / 64),
    phase := rate % 8, offset := leField b (o + 4) 2, epochMode := leField b (o + 6) 1, padRule := leField b (o + 7) 1,
    padConst := leField b (o + 12) 2, workCycles := leField b (o + 8) 4, engines := leField b (o + 0x10) 8,
    columns := leField b (o + 0x18) 8, cores := leField b (o + 0x20) 16,
    edges := (List.range (leField b (o + 14) 2)).map (fun n => parseEdge b (leField b (o + 0x34) 4 + 16 * n)) }

def parseStages (b : List Byte) : List StageDesc := (List.range (leField b 0 2)).map (fun n => parseStage b (16 + 64 * n))

/-- Reserved fields and field ranges of a stage entry and its edges (R74). -/
def stageForm (b : List Byte) (o : Nat) : Bool :=
  let n := leField b (o + 14) 2
  let e := leField b (o + 0x34) 4
  let chunk (c : Nat) : Bool := [0, 256, 512, 1024, 2048, 4096].contains c
  decide (1 ≤ leField b o 1) && leField b (o + 1) 1 % 8 == 0 && decide (2 ≤ leField b (o + 2) 1)
    && decide (leField b (o + 2) 1 ≤ 8) && leField b (o + 3) 1 / 8 % 8 == 0
    && decide (leField b (o + 3) 1 % 8 < 2 ^ (leField b (o + 3) 1 / 64)) && decide (leField b (o + 4) 2 ≤ 4095)
    && decide (leField b (o + 6) 1 ≤ 1) && decide (leField b (o + 7) 1 ≤ 3) && decide (leField b (o + 12) 2 ≤ 0xFFF)
    && decide (1 ≤ n) && decide (n ≤ 64) && zeros b (o + 0x38) 8 && decide (e + 16 * n ≤ b.length)
    && (List.range n).all (fun k => decide (leField b (e + 16 * k + 1) 1 < 4) && zeros b (e + 16 * k + 11) 1
        && chunk (leField b (e + 16 * k + 8) 2))

/-- Stages that can be left out of the same-tick graph, round by round: those with no same-tick producer left in it. -/
def sameTickRounds (ds : List StageDesc) : Nat → List Nat → List Nat
  | 0, ids => ids
  | n + 1, ids =>
    let left := ids.filter (fun x => ds.any (fun d => d.id == x && d.edges.any (fun e => e.h == 0 && ids.contains e.producer)))
    sameTickRounds ds n left

/-- No chain of same-tick edges loops (R60). -/
def noLoop (ds : List StageDesc) : Bool := (sameTickRounds ds ds.length (ds.map (·.id))).isEmpty

/-- Row 0x06. DESIGN CHOICE (log entry 64): a queue of depth 0, an unused slot (R221), is unknown to an edge that names it. -/
def State.stagesOk (s : State) (i : Nat) (r : Resources) (b : List Byte) : Bool :=
  let n := leField b 0 2
  let ds := parseStages b
  let fed := ds.filter (fun d => d.edges.any (fun e => e.producer == 0))
  let tokenQ (q : Nat) : Bool := r.queues.any (fun x => x.localId == q && x.pool == 0 && x.depth % 65536 != 0)
  decide (1 ≤ n) && decide (n ≤ 255) && zeros b 2 14 && decide (16 + 64 * n ≤ b.length)
    && (List.range n).all (fun k => stageForm b (16 + 64 * k))
    && decide ((ds.map (·.id)).eraseDups.length = ds.length)
    && ds.all (fun d => s.unitsOk i d.engines d.columns d.cores)
    && ds.all (fun d => ds.all (fun e => d.id == e.id ||
        (d.engines &&& e.engines == 0 && d.columns &&& e.columns == 0 && d.cores &&& e.cores == 0)))
    && ds.all (fun d => d.edges.all (fun e => (e.producer == 0 || ds.any (fun p => p.id == e.producer)) && tokenQ e.queue
        && (e.window == 0xFF || r.windows.any (fun w => w.id == e.window)) && (e.producer == 0 || !e.camera)))
    && noLoop ds
    && fed.all (fun d => fed.all (fun e => d.padRule == e.padRule && d.padConst == e.padConst))

/-- W cycles of the engine clock, plus B and F, within P_min (R63). -/
def fitsPeriod (w b f pmin : Nat) : Bool := decide (1000000 * w + (b + f) * gradeKhz ≤ pmin * gradeKhz)

/-- Row 0x07: R58, R59, R63 and R66. -/
def scheduleOk (ds : List StageDesc) (budget : List Byte) : Bool :=
  let pmin := leField budget 0 4
  let b := leField budget 4 2
  let f := leField budget 6 2
  let prod (p : Nat) : Nat × Nat := match ds.find? (fun d => d.id == p) with | some d => (d.offset, d.rate) | none => (0, 1)
  decide (1000 ≤ pmin) && decide (pmin ≤ 4096000) && ds.all (fun d => fitsPeriod d.workCycles b f pmin)
    && ds.all (fun d => !d.paged || (maskUnits d.engines 64).length % 2 == 0)
    && ds.all (fun d => d.edges.all (fun e =>
        let p := prod e.producer
        (e.producer != 0 || e.h == 1) && decide (p.1 + p.2 * e.ahead + e.h ≤ d.offset)
          && decide (ceilDiv (d.offset - p.1) p.2 + e.back + 1 + d.depth ≤ e.rows)))

/-! ### Row 0x08: programs, weights, address programs -/

def parseProgram (b : List Byte) (o : Nat) : ProgramDesc :=
  { profile := leField b o 1, stage := leField b (o + 1) 1, entry := leField b (o + 2) 2,
    bytes := slice b (leField b (o + 4) 4) (leField b (o + 8) 4), first := leField b (o + 12) 2,
    count := leField b (o + 14) 1, rowMask := leField b (o + 0x10) 4, pos := leField b (o + 4) 4 }

def parsePrograms (b : List Byte) : List ProgramDesc := (List.range (leField b 0 4)).map (fun n => parseProgram b (8 + 24 * n))

/-- Form of a program entry: lengths, alignment, reserved fields (R76). DESIGN CHOICE (log entry 64): an entry point at or beyond
the program's length, and so a program of length 0, has a bad length. -/
def programForm (b : List Byte) (o : Nat) : Bool :=
  let s := leField b o 1 == 1
  let len := leField b (o + 8) 4
  (s || leField b o 1 == 2) && len % (if s then 4 else 8) == 0 && decide (len ≤ if s then 0x20000 else 0x4000)
    && decide (leField b (o + 4) 4 + len ≤ b.length) && decide (leField b (o + 2) 2 * (if s then 4 else 8) < len)
    && zeros b (o + 15) 1 && zeros b (o + 0x14) 4 && (!s || zeros b (o + 0x10) 4)

/-- The targets of a program lie on the die and satisfy `own`. -/
def ProgramDesc.targetsOk (p : ProgramDesc) (ownCore ownCol : Nat → Bool) : Bool :=
  (List.range p.count).all (fun n =>
    if p.profile = 1 then decide (p.first + n < 128) && ownCore (p.first + n)
    else decide (p.first + n < 64) && ownCol (p.first + n))

def parseWeight (b : List Byte) (o : Nat) : WeightDesc :=
  { kind := leField b o 1, unit := leField b (o + 1) 1, index := leField b (o + 2) 2, dest := leField b (o + 4) 4,
    bytes := slice b (leField b (o + 12) 4) (leField b (o + 8) 4), pos := leField b (o + 12) 4 }

def parseWeights (b : List Byte) : List WeightDesc := (List.range (leField b 0 4)).map (fun n => parseWeight b (8 + 16 * n))

/-- Bytes of the memory of a region of this kind. -/
def State.regionSize (s : State) (i kind unit : Nat) : Nat :=
  match kind with
  | 0 => 0x100000 | 1 => 0x100000
  | 2 => (match s.window i unit with | some w => w.size | none => 0)
  | 3 => 0x4000 | 4 => 0x20000 | _ => 0

/-- A region of kind `kind` lies in memory of units that `eng`, `col` and `core` allow (R77, R82). -/
def State.regionIn (s : State) (i kind unit index dest len : Nat) (eng col core : Nat → Bool) : Bool :=
  decide (dest + len ≤ s.regionSize i kind unit) &&
  (match kind with
   | 0 => eng unit && index == 0
   | 1 => eng unit && index == 0
   | 2 => index == 0
   | 3 => col unit && decide (index < 32)
   | 4 => unit == 0 && core index
   | _ => false)

def parseAddrProgs (b : List Byte) : List AddrProg :=
  (List.range (leField b 0 4)).map (fun n =>
    let o := 8 + 16 * n
    { id := leField b o 2, core := leField b (o + 2) 1, bytes := slice b (leField b (o + 4) 4) (leField b (o + 8) 4)
      pos := leField b (o + 4) 4 })

/-- Form of the address programs section (R78). -/
def addrProgsForm (b : List Byte) : Bool :=
  let n := leField b 0 4
  zeros b 4 4 && decide (8 + 16 * n ≤ b.length) &&
  (List.range n).all (fun k =>
    let o := 8 + 16 * k
    let at_ := leField b (o + 4) 4
    leField b (o + 8) 4 == 128 && decide (at_ + 128 ≤ b.length) && leField b at_ 2 == leField b o 2
      && zeros b (o + 3) 1 && zeros b (o + 12) 4)

/-- Form of the programs and weights sections. DESIGN CHOICE (log entry 64): bytes 4 to 7 of the programs section's header, which
no field covers, are reserved. -/
def programsForm (b : List Byte) : Bool :=
  let n := leField b 0 4
  decide (8 + 24 * n ≤ b.length) && zeros b 4 4 && (List.range n).all (fun k => programForm b (8 + 24 * k))
def weightsForm (b : List Byte) : Bool :=
  let n := leField b 0 4
  decide (8 + 16 * n ≤ b.length) && zeros b 4 4 &&
  (List.range n).all (fun k =>
    let o := 8 + 16 * k
    decide (leField b o 1 ≤ 4) && decide (leField b (o + 12) 4 + leField b (o + 8) 4 ≤ b.length))

/-- A core names one address program of each id. DESIGN CHOICE (log entry 64): a second one of the same id fails row 0x08. -/
def addrProgsUnique (ps : List AddrProg) : Bool :=
  ps.all (fun p => (ps.filter (fun q => q.core == p.core && q.id == p.id)).length == 1)

/-- Row 0x08, but for the scale regions, which are checked when they stand (R134). DESIGN CHOICE (log entry 64): a stage whose
programs lie beyond the section fails here and not in row 0x06, and so does a T program of stage id 0, which names cores. -/
def State.codeOk (s : State) (i : Nat) (stages progs weights addrs : List Byte) : Bool :=
  let ds := parseStages stages
  let ps := parsePrograms progs
  let own := hasBit (s.engMask i)
  programsForm progs && weightsForm weights && addrProgsForm addrs
    && (List.range (leField stages 0 2)).all (fun n =>
        let o := 16 + 64 * n
        decide (leField stages (o + 0x30) 2 + leField stages (o + 0x32) 2 ≤ ps.length))
    && ps.all (fun p => p.targetsOk (s.ownsCore i) (s.ownsCol i) &&
        (if p.stage = 0 then p.profile == 1 else ds.any (fun d => d.id == p.stage)))
    && (parseWeights weights).all (fun w => s.regionIn i w.kind w.unit w.index w.dest w.bytes.length own (s.ownsCol i) (s.ownsCore i))
    && (parseAddrProgs addrs).all (fun p => s.ownsCore i p.core) && addrProgsUnique (parseAddrProgs addrs)

/-! ### Rows 0x09 to 0x0C -/

/-- Row 0x09: the keep-warm mask names only engines and clusters of the instance (R79). -/
def State.keepOk (s : State) (i : Nat) (b : List Byte) : Bool :=
  b.length == 16 && zeros b 11 5 && (maskUnits (leField b 0 8) 64).all (hasBit (s.engMask i))
    && (maskUnits (leField b 8 2) 16).all (fun c => (List.range 4).any (fun k => s.ownsCol i (4 * c + k)))
    && (maskUnits (leField b 10 1) 8).all (fun k => (List.range 16).any (fun j => s.ownsCore i (16 * k + j)))

/-- Row 0x0A: M, and the reserved fields of the budgets and receptive-field sections. -/
def depthOk (budget depth : List Byte) : Bool :=
  budget.length == 16 && zeros budget 12 4 && depth.length == 8 && zeros depth 2 6
    && decide (1 ≤ leField depth 0 2) && decide (leField depth 0 2 ≤ 4095)

def parseRepairs (b : List Byte) : List RepairDesc :=
  (List.range (leField b 0 4)).map (fun n =>
    let o := 8 + 16 * n
    { kind := leField b o 1, unit := leField b (o + 1) 1, index := leField b (o + 2) 2, dest := leField b (o + 4) 4,
      length := leField b (o + 8) 4, source := leField b (o + 12) 1, ref := leField b (o + 14) 2 })

/-- Does a weights entry hold the whole region of a descriptor? -/
def WeightDesc.holds (w : WeightDesc) (d : RepairDesc) : Bool :=
  w.kind == d.kind && w.unit == d.unit && w.index == d.index && decide (w.dest ≤ d.dest)
    && decide (d.dest + d.length ≤ w.dest + w.bytes.length)

/-- A descriptor is valid (R82). DESIGN CHOICE (log entry 64): one of length 0 covers no word and is not. -/
def State.repairOk (s : State) (i : Nat) (ws : List WeightDesc) (qs : List QueueReq) (d : RepairDesc) : Bool :=
  decide (d.kind ≤ 4) && decide (1 ≤ d.length)
    && s.regionIn i d.kind d.unit d.index d.dest d.length (hasBit (s.engMask i)) (s.ownsCol i) (s.ownsCore i)
    && (match d.source with
        | 0 => (match ws[d.ref]? with | some w => w.holds d | none => false)
        | 1 => qs.any (fun q => q.localId == d.ref && q.pool == 2 && q.depth / 2 ^ 28 == 2)
        | _ => false)

def repairsForm (b : List Byte) : Bool :=
  let n := leField b 0 4
  decide (8 + 16 * n ≤ b.length) && zeros b 4 4 && (List.range n).all (fun k => zeros b (8 + 16 * k + 13) 1)

def parsePlan (b : List Byte) : PlanDesc :=
  { auto := (leField b 1 1).testBit 0, sampleN := leField b 2 2, margin := leField b 4 2,
    entries := (List.range (leField b 0 1)).map (fun n =>
      let o := 16 + 32 * n
      { stage := leField b o 1, shadowWindow := leField b (o + 1) 1, stateWindow := leField b (o + 2) 1,
        firstCore := leField b (o + 3) 1, coreCount := leField b (o + 4) 1, lr := leField b (o + 6) 2,
        beta1 := leField b (o + 8) 2, beta2 := leField b (o + 10) 2, scaleLr := leField b (o + 12) 2,
        group := leField b (o + 14) 2 }) }

/-- A BF16 value from 0 to 1, with −0; `below` asks for less than 1. -/
def bf16Unit (below : Bool) (v : Nat) : Bool := v == 0x8000 || (if below then decide (v < 0x3F80) else decide (v ≤ 0x3F80))
/-- An FP16 value from 0 to 0.5, with −0 (R254, R267). -/
def marginOk (v : Nat) : Bool := v == 0x8000 || decide (v ≤ 0x3800)

/-- The plan of an image is valid (R83, R254). -/
def State.planOk (s : State) (i : Nat) (ds : List StageDesc) (ws : List WeightDesc) (b : List Byte) : Bool :=
  let p := parsePlan b
  let n := p.entries.length
  let shadows := p.entries.map (·.shadowWindow)
  let states := p.entries.map (·.stateWindow)
  let winSize (w : Nat) : Nat := match s.window i w with | some x => x.size | none => 0
  decide (1 ≤ n) && decide (n ≤ 4) && b.length == 16 + 32 * n && zeros b 6 10 && decide (leField b 1 1 < 2)
    && decide (4 ≤ p.sampleN) && decide (p.sampleN ≤ 4096) && marginOk p.margin
    && (List.range n).all (fun k => zeros b (16 + 32 * k + 5) 1 && zeros b (16 + 32 * k + 16) 16)
    && decide ((p.entries.map (·.stage)).eraseDups.length = n) && decide (shadows.eraseDups.length = n)
    && decide (states.eraseDups.length = n) && states.all (fun w => !shadows.contains w)
    && p.entries.all (fun e =>
        bf16Unit false e.lr && bf16Unit false e.scaleLr && bf16Unit true e.beta1 && bf16Unit true e.beta2 && e.group == 32
        && decide (0x10000 ≤ winSize e.stateWindow)
        && (match ds.find? (fun d => d.id == e.stage) with
            | some d => d.adaptable && decide (3 * editionSlot (ws.filter (fun w => decide (w.kind ≤ 1) && hasBit d.engines w.unit))
                ≤ winSize e.shadowWindow)
            | none => false)
        && (List.range e.coreCount).all (fun k => s.ownsCore i (e.firstCore + k) && !ds.any (fun d => hasBit d.cores (e.firstCore + k))))

/-- Row 0x0C: the signature (R84, R425). A signature that is present is checked whatever the strap. -/
def State.signatureOk (s : State) (bs : List Byte) : Bool :=
  let auth := s.bit Reg.HIF_STRAPS 12
  let hash := (List.range 8).flatMap (fun n => beBytes 4 (Config.keyHash n).toNat)
  match secOf (directory bs) 11 with
  | none => !auth
  | some x =>
    let g := slice bs x.off 144
    let key := slice g 4 64
    !(auth && hash.all (· == 0)) && leField g 0 2 == 1 && zeros g 2 2 && zeros g 0x84 12
      && zeros bs (x.off + 144) (leField bs 8 4 - (x.off + 144)) && sha256 key == hash
      && ecdsaVerify (sha256 (bs.take x.off)) (beNat (key.take 32), beNat (key.drop 32)) (beNat (slice g 0x44 32)) (beNat (slice g 0x64 32))

/-! ### The whole check of an image (R85) -/

/-- The image's contents, with no check. -/
def parseImage (bs : List Byte) : Image :=
  let ss := directory bs
  let sec := secBytes bs ss
  let r := parseResources (sec 1)
  { imageId := leField bs 0x18 8, tileDiv := leField bs 0x0F 1, engines := r.engines, columns := r.columns, cores := r.cores,
    tags := r.tags, recordMib := r.recordMib, windows := r.windows, queues := r.queues, allowances := r.allowances,
    stages := parseStages (sec 2), programs := parsePrograms (sec 3), weights := parseWeights (sec 4),
    addrProgs := parseAddrProgs (sec 5), keepEngines := leField (sec 6) 0 8, keepTiles := leField (sec 6) 8 2,
    keepCores := leField (sec 6) 10 1, pmin := leField (sec 7) 0 4, brake := leField (sec 7) 4 2, floor := leField (sec 7) 6 2,
    m := leField (sec 8) 0 2, repairs := parseRepairs (sec 9),
    plan := if (secOf ss 10).isSome then some (parsePlan (sec 10)) else none }

/-- Rows 0x01 to 0x07 of R85. -/
def State.checkFirst (s : State) (i : Nat) (bs : List Byte) : Except Nat Unit := do
  let sec := secBytes bs (directory bs)
  chk 0x01 (headerOk bs false)
  chk 0x02 (partOk bs)
  chk 0x03 (directoryOk bs false)
  chk 0x04 (crcsOk bs)
  chk 0x05 (s.resourcesOk i (leField bs 0x0F 1) (sec 1))
  chk 0x06 (s.stagesOk i (parseResources (sec 1)) (sec 2))
  chk 0x07 (scheduleOk (parseStages (sec 2)) (sec 7))

/-- Rows 0x09 to 0x0C. -/
def State.checkLast (s : State) (i : Nat) (bs : List Byte) : Except Nat Unit := do
  let ss := directory bs
  let sec := secBytes bs ss
  let ws := parseWeights (sec 4)
  chk 0x09 (s.keepOk i (sec 6))
  chk 0x0A (depthOk (sec 7) (sec 8))
  chk 0x0B (repairsForm (sec 9) && (parseRepairs (sec 9)).all (s.repairOk i ws (parseResources (sec 1)).queues)
    && ((secOf ss 10).isNone || s.planOk i (parseStages (sec 2)) ws (sec 10)))
  chk 0x0C (s.signatureOk bs)

/-- The scale regions that an image's entries write, as they stand in state s once all are written, are in order (R134). -/
def State.weightsOk (s : State) (ws : List WeightDesc) : Bool :=
  (ws.filter (fun w => w.kind == 1)).all (fun w => s.regionsHold w.unit ws [] 0 0x100000)

/-- Write programs, weights and address programs of an image (R295 step 3). -/
def State.writeImage (s : State) (i : Nat) (im : Image) : State :=
  let s := im.programs.foldl State.writeProgram s
  let s := im.weights.foldl (fun s w => s.writeWeight i w) s
  s.writeAddrProgs im.addrProgs (fun _ => true)

/-- Check an image by R85 and write it: the code of the first failing row, or the state with the image in its units. -/
def State.checkImage (s : State) (i : Nat) (bs : List Byte) : Except Nat (Image × State) := do
  s.checkFirst i bs
  let sec := secBytes bs (directory bs)
  chk 0x08 (s.codeOk i (sec 2) (sec 3) (sec 4) (sec 5))
  let im := parseImage bs
  let t := s.writeImage i im
  chk 0x08 (t.weightsOk im.weights)
  s.checkLast i bs
  .ok (im, t)

/-! ### Stage patches (R301, R302) -/

/-- Row 0x08 for a patch: its entries name the stage and target its units only (R301). -/
def State.patchCodeOk (s : State) (i : Nat) (d : StageDesc) (bs : List Byte) : Bool :=
  let ss := directory bs
  let sec := secBytes bs ss
  let has (t : Nat) : Bool := (secOf ss t).isSome
  let ps := parsePrograms (sec 3)
  let ws := parseWeights (sec 4)
  let as := parseAddrProgs (sec 5)
  (!has 3 || (programsForm (sec 3) && ps.all (fun p => p.stage == d.id && p.targetsOk (hasBit d.cores) (hasBit d.columns))))
    && (!has 4 || (weightsForm (sec 4) && ws.all (fun w =>
        s.regionIn i w.kind w.unit w.index w.dest w.bytes.length (hasBit d.engines) (hasBit d.columns) (hasBit d.cores))))
    && (!has 5 || (addrProgsForm (sec 5) && as.all (fun p => hasBit d.cores p.core) && addrProgsUnique as))

/-- The scale regions that a patch's entries write any byte of, as they stand in state s, are in order: those of the image,
those that commands have named and those of the patch itself (R134). -/
def State.patchRegionsOk (s : State) (im : Image) (ws : List WeightDesc) : Bool :=
  (ws.filter (fun w => decide (w.kind ≤ 1))).all (fun w =>
    s.regionsHold w.unit (im.weights ++ ws) (s.engine w.unit).scaleSlots w.dest w.bytes.length)

/-- Check a patch in the order of R302: the code of the first failure, or its contents. -/
def State.checkPatch (s : State) (i sid : Nat) (bs : List Byte) : Except Nat Patch :=
  let x := s.inst i
  let ss := directory bs
  let sec := secBytes bs ss
  let place (t : Nat) : Nat := match secOf ss t with | some x => x.off | none => 0
  do
  chk 0x01 (headerOk bs true)
  match x.image, x.stageDesc sid with
  | some im, some d => do
    chk 0x0F (leField bs 0x24 1 == sid && leField bs 0x18 8 == im.imageId)
    chk 0x03 (directoryOk bs true)
    chk 0x04 (crcsOk bs)
    chk 0x07 (fitsPeriod (leField bs 0x28 4) im.brake im.floor im.pmin)
    chk 0x08 (s.patchCodeOk i d bs)
    let ws := if (secOf ss 4).isSome then parseWeights (sec 4) else []
    let t := ws.foldl (fun s w => s.writeWeight i w) s
    chk 0x08 (t.patchRegionsOk im ws)
    chk 0x0C (s.signatureOk bs)
    .ok { imageId := im.imageId, stage := sid, workCycles := leField bs 0x28 4,
          programs := if (secOf ss 3).isSome then some (parsePrograms (sec 3)) else none, weights := ws,
          addrProgs := if (secOf ss 5).isSome then parseAddrProgs (sec 5) else []
          progAt := place 3, weightAt := place 4, addrAt := place 5 }
  | _, _ => .error 0x0F

/-! ### Binding an image to its instance -/

/-- Bind the queue entries (R220): kind, depth and modes from the depth field; the local id; empty at epoch 0. -/
def State.bindQueues (s : State) (i : Nat) (im : Image) : State :=
  ((s.bindings i im.queues).getD []).foldl (fun s b =>
    (s.healIf (· == queueKey b.2 Reg.QUE_Q_CFG)).modQueue b.2 (fun x =>
      { x with cfg := (depthCfg b.1.pool b.1.depth).getD 0, localId := some b.1.localId, wr := 0, rd := 0, entries := []
               epoch := 0, discard := false, markerPast := true, lastLine := 0 })) s

/-- The first inlet-fed stage's pad rule and constant (R75). -/
def Image.pad (im : Image) : Nat × Nat :=
  match im.stages.find? (fun d => d.edges.any (fun e => e.producer == 0)) with
  | some d => (d.padRule % 4, d.padConst)
  | none => (0, 0)

/-- Copy each adaptable stage's edition into slot 0 of its shadow window (R254). -/
def State.fillSlots (s : State) (i : Nat) (im : Image) : State :=
  match im.plan with
  | none => s
  | some p =>
    p.entries.foldl (fun s e =>
      match im.stages.find? (fun d => d.id == e.stage), s.window i e.shadowWindow with
      | some d, some w => s.writeWindow w 0 ((im.editionOf d).flatMap (·.bytes))
      | _, _ => s) s

/-- The registers and tables that an accepted image sets (R73, R75, R80, R254, R295). -/
def State.bindImage (s : State) (i : Nat) (im : Image) : State :=
  let s := s.bindQueues i im
  let s := (s.wr (Reg.CAD_I_PMIN i) (BitVec.ofNat 32 im.pmin)).wr (Reg.CAD_I_BRAKE i) (BitVec.ofNat 32 im.brake)
  let s := s.wr (Reg.INL_I_PAD i) (BitVec.ofNat 32 (0x10000 * im.pad.2 + im.pad.1))
  let s := s.wr64 (Reg.INS_I_IMAGE_LO i) (Reg.INS_I_IMAGE_HI i) im.imageId
  let s := im.allowances.foldl (fun s a => s.wr (Reg.INS_I_ALLOW i a.1) (BitVec.ofNat 32 a.2)) s
  let s := s.fillSlots i im
  s.modInst i (fun x =>
    { x with image := some im
             stages := im.stages.map (fun d => { id := d.id, workCycles := d.workCycles })
             adp := if im.plan.isSome then { live := 0 } else {} })

end Sys2Proof.Machine
end

