-- ==== Sys2Proof/Machine/Adapt.lean ====
section
/-! DEFINITION. In-line adaptation: the plan word, the adaptation record, decisions at sheet boundaries, promotion and
rollback, checkpoints and restore (R253 to R256, R264 to R269). -/

namespace Sys2Proof.Machine

/-- The adaptation plan of an instance. -/
def Inst.plan (x : Inst) : Option PlanDesc := match x.image with | some im => im.plan | none => none

def State.modAdp (s : State) (i : Nat) (g : Adp → Adp) : State := s.modInst i (fun x => { x with adp := g x.adp })

/-- The state window of plan entry 0, which holds the plan word and the record. -/
def State.planWindow (s : State) (i : Nat) : Option Win :=
  match (s.inst i).plan with
  | some p => (match p.entries with | e :: _ => s.window i e.stateWindow | [] => none)
  | none => none

/-- The 32 bytes of the plan word (R255). -/
def planWord (a : Adp) (sheet : Nat) (candSeq edition : Word) (action freeze : Nat) : List Byte :=
  leBytes 4 (sheet % 2 ^ 24) ++ [BitVec.ofNat 8 (a.live + 4 * a.cand + 16 * a.rollback), BitVec.ofNat 8 a.state,
    BitVec.ofNat 8 action, BitVec.ofNat 8 freeze] ++ leBytes 4 candSeq.toNat ++ leBytes 4 edition.toNat
    ++ List.replicate 16 0

/-- Lenuk writes the plan word (R255). -/
def State.writePlanWord (s : State) (i sheet action freeze : Nat) : State :=
  match s.planWindow i with
  | some w => s.writeWindow w 0x40
      (planWord (s.inst i).adp sheet (s.rd (Reg.ADP_I_CAND_SEQ i)) (s.rd (Reg.ADP_I_EDITION i)) action freeze)
  | none => s

/-- The adaptation record, 64 bytes (R256). -/
def State.readRecord (s : State) (i : Nat) : List Byte × State :=
  match s.planWindow i with
  | some w => s.readWindow w 0 64
  | none => ([], s)

/-- A 4-byte field of the record. -/
def recWord (bs : List Byte) (off : Nat) : Word := BitVec.ofNat 32 (leField bs off 4)

/-- The record is complete: bit 31 of its first word. -/
def recComplete (bs : List Byte) : Bool := (recWord bs 0).getLsbD 31

/-- The counts of a complete record go to the registers. -/
def State.recordCounts (s : State) (i : Nat) (bs : List Byte) : State :=
  (((s.wr (Reg.ADP_I_TRAINED i) (recWord bs 0x14)).wr (Reg.ADP_I_SKIPPED i) (recWord bs 0x18)).wr
    (Reg.ADP_I_STEPS i) (recWord bs 0x1C)).wr (Reg.ADP_I_NAN i) (recWord bs 0x20)

/-- The losses of the record acted on go to the registers. -/
def State.recordLosses (s : State) (i : Nat) (bs : List Byte) : State :=
  (((s.wr (Reg.ADP_I_LAST_SHEET i) (recWord bs 0 &&& 0xFFFFFF)).wr (Reg.ADP_I_LOSS_LIVE i) (recWord bs 4)).wr
    (Reg.ADP_I_LOSS_CAND i) (recWord bs 8)).wr (Reg.ADP_I_HELD_N i) (recWord bs 0x0C)

/-- Is an FP32 value neither NaN nor infinite? -/
def finite32 (x : Word) : Bool := bits x 30 23 != 255

/-- The automatic criterion (R267), in FP32 under RTZ. -/
def promotes (live cand : Word) (held minN : Nat) (margin : Word) : Bool :=
  let m := floatVal (floatFmt fmtFP16) (bits margin 15 0)
  let keep := toF32 (subVal (f32 0x3F800000) m)
  let bound := toF32 (mulVal (f32 live) (f32 keep))
  finite32 live && finite32 cand && decide (minN ≤ held) && ltVal (f32 cand) (f32 bound)

/-- Every plan stage is running (R264, first row). -/
def Inst.planRuns (x : Inst) (p : PlanDesc) : Bool :=
  p.entries.all (fun e => match x.stage e.stage with | some g => g.st == .running | none => false)

/-- The lowest slot without a role. -/
def Adp.freeSlot (a : Adp) : Nat :=
  (([0, 1, 2] : List Nat).find? (fun k => k != a.live && k != a.cand && k != a.rollback)).getD 3

/-- Reconfigure every plan stage together at this tick (R265). -/
def State.reloadPlan (s : State) (i : Nat) (p : PlanDesc) : State :=
  p.entries.foldl (fun s e =>
    match (s.inst i).stageDesc e.stage with
    | some d => s.beginChange i e.stage { patch := none } (d.epochMode == 1)
    | none => s) s

/-- A checkpoint is due after the reloads when ADP_I_CTRL.ckpt is 1 (R268). -/
def State.ckptDue (s : State) (i : Nat) : State :=
  if s.bit (Reg.ADP_I_CTRL i) 1 then s.modAdp i (fun a => { a with ckptAfterReload := true }) else s

/-- Promotion (R265). -/
def State.promoteNow (s : State) (i : Nat) (p : PlanDesc) : State :=
  let s := s.modAdp i (fun a => { a with live := a.cand, rollback := a.live, cand := 3 })
  let s := s.wr (Reg.ADP_I_EDITION i) (s.rd (Reg.ADP_I_EDITION i) + 1)
  let s := (s.count (Reg.ADP_I_PROMOTIONS i)).event (Reg.ADP_I_EVT i) 0
  (s.reloadPlan i p).ckptDue i

/-- Rollback (R266). -/
def State.rollbackNow (s : State) (i : Nat) (p : PlanDesc) : State :=
  let s := s.modAdp i (fun a => { a with live := a.rollback, rollback := 3, cand := 3 })
  let s := (s.wr (Reg.ADP_I_EDITION i) (s.rd (Reg.ADP_I_EDITION i) + 1)).event (Reg.ADP_I_EVT i) 2
  (s.reloadPlan i p).ckptDue i

/-- A reject frees the candidate slot (R264). -/
def State.rejectNow (s : State) (i n : Nat) : State :=
  (s.modAdp i (fun a => { a with cand := 3 })).event (Reg.ADP_I_EVT i) n

/-- Bits of ADP_I_CMD clear. -/
def State.cmdClear (s : State) (i : Nat) (m : Word) : State :=
  s.wr (Reg.ADP_I_CMD i) (s.rd (Reg.ADP_I_CMD i) &&& ~~~m)

/-- A new candidate (R264): none when a plan core has stopped. The second component is freeze. -/
def State.newCandidate (s : State) (i : Nat) (sheet : BitVec 24) : State × Nat :=
  if (s.inst i).adp.stopped then (s.modAdp i (fun a => { a with state := 0 }), 0)
  else
    let s := s.modAdp i (fun a => { a with cand := a.freeSlot, state := 1, evalSheet := sheet, awaiting := 0 })
    (s.wr (Reg.ADP_I_CAND_SEQ i) (s.rd (Reg.ADP_I_CAND_SEQ i) + 1), 1)

/-- The last step of a boundary: a new candidate when the row asks for one, and the plan word. -/
def State.boundaryEnd (s : State) (i : Nat) (sheet : BitVec 24) (action : Nat) (fresh : Bool) : State :=
  let r := if fresh then s.newCandidate i sheet else (s, 0)
  r.1.writePlanWord i sheet.toNat action r.2

/-- The rows of R264 from "State awaiting, record complete" on. -/
def State.boundaryRest (s : State) (i : Nat) (p : PlanDesc) (sheet : BitVec 24) (bs : List Byte) : State :=
  let a := (s.inst i).adp
  let mine := recComplete bs && (recWord bs 0).extractLsb' 0 24 == a.evalSheet
    && recWord bs 0x10 == s.rd (Reg.ADP_I_CAND_SEQ i)
  if a.state = 2 ∧ mine then
    let s := s.recordLosses i bs
    if !s.bit (Reg.ADP_I_CTRL i) 0 then
      (s.modAdp i (fun a => { a with state := 3 })).boundaryEnd i sheet 6 false
    else if promotes (recWord bs 4) (recWord bs 8) (leField bs 0x0C 4) (s.rd (Reg.ADP_I_MIN_N i)).toNat
        (s.rd (Reg.ADP_I_MARGIN i)) then (s.promoteNow i p).boundaryEnd i sheet 1 true
    else (s.rejectNow i 1).boundaryEnd i sheet 2 true
  else if a.state = 2 then
    let s := s.modAdp i (fun a => { a with awaiting := a.awaiting + 1 })
    if a.awaiting + 1 = 4 then (s.rejectNow i 3).boundaryEnd i sheet 4 true else s.boundaryEnd i sheet 0 false
  else if a.state = 1 then (s.modAdp i (fun a => { a with state := 2, awaiting := 0 })).boundaryEnd i sheet 0 false
  else if a.state = 0 then s.boundaryEnd i sheet 0 true
  else s.boundaryEnd i sheet 0 false

/-- The commands pending at a boundary: those written before the boundary tick (R264). A boundary that is judged after its
tick (R13) takes those that were pending at the tick. -/
def State.boundaryCmds (s : State) (i : Nat) : Word := s.rd (Reg.ADP_I_CMD i) &&& (s.inst i).adp.cmdAt

/-- The decision at a sheet boundary that instance i acts on, by the first row of R264 whose condition holds. -/
def State.adpBoundary (s : State) (i : Nat) (sheet : BitVec 24) : State :=
  match (s.inst i).plan with
  | none => s
  | some p =>
    let r := s.readRecord i
    let s := if recComplete r.1 then r.2.recordCounts i r.1 else r.2
    let a := (s.inst i).adp
    let c := s.boundaryCmds i
    if !(s.inst i).planRuns p then
      ((s.count (Reg.ADP_I_DEFERS i)).event (Reg.ADP_I_EVT i) 4).boundaryEnd i sheet 5 false
    else if c.getLsbD 1 && a.rollback != 3 then
      ((s.cmdClear i (c &&& 7)).rollbackNow i p).boundaryEnd i sheet 3 true
    else
      let s := if c.getLsbD 1 then (s.cmdClear i 2).event (Reg.ADP_I_EVT i) 6 else s
      if c.getLsbD 0 && a.state != 0 then ((s.cmdClear i 1).promoteNow i p).boundaryEnd i sheet 1 true
      else
        let s := if c.getLsbD 0 then (s.cmdClear i 1).event (Reg.ADP_I_EVT i) 5 else s
        let s := s.cmdClear i (c &&& 4)
        if c.getLsbD 2 && a.state == 3 && !s.bit (Reg.ADP_I_CTRL i) 0 then (s.rejectNow i 1).boundaryEnd i sheet 2 true
        else s.boundaryRest i p sheet r.1

/-! ### Checkpoints (R268) -/

/-- The payload of a checkpoint (R320): image_id, edition, and the live slot's edition of every entry. -/
def State.ckptBytes (s : State) (i : Nat) (im : Image) (p : PlanDesc) : List Byte × State :=
  let a := (s.inst i).adp
  let head := leBytes 8 im.imageId ++ leBytes 4 (s.rd (Reg.ADP_I_EDITION i)).toNat ++ leBytes 4 p.entries.length
  p.entries.foldl (fun (acc : List Byte × State) e =>
    match im.stages.find? (fun d => d.id == e.stage), acc.2.window i e.shadowWindow with
    | some d, some w =>
      let ws := im.editionOf d
      let r := acc.2.readWindow w (a.live * editionSlot ws) (editionSize ws)
      (acc.1 ++ [BitVec.ofNat 8 e.stage, BitVec.ofNat 8 a.live, 0, 0] ++ r.1, r.2)
    | _, _ => acc) (head, s)

/-- A checkpoint of instance i starts: one transaction in its partition. While another is in progress it waits. A store
that takes no transaction leaves it without one, and it fails. -/
def State.startCkpt (s : State) (i : Nat) : State :=
  match (s.inst i).image with
  | none => s
  | some im =>
    match im.plan with
    | none => s
    | some p =>
      if (s.inst i).adp.ckptBusy then s.modAdp i (fun a => { a with ckptOrdered := true })
      else
        let s := s.cmdClear i 8
        let t := match s.partOf i with
          | none => (none, s)
          | some k =>
            if !s.storeOpen then (none, s.txnLost)
            else
              let b := s.ckptBytes i im p
              let r := b.2.wholeAndCommit 2 k i 0 0 b.1
              (some r.1, r.2)
        t.2.modAdp i (fun a => { a with ckptBusy := true, ckptOrdered := false, ckptTxn := t.1 })

/-- CHECKPOINT_COMMIT: the checkpoint in progress has committed, or has failed (R268); a checkpoint ordered meanwhile
starts. -/
def execCheckpointCommit (i : Nat) (ok : Bool) (s : State) : Res :=
  let a := (s.inst i).adp
  let phase := match a.ckptTxn with
    | some n => (match s.txn n with | some t => t.phase | none => 3)
    | none => 3
  if !a.ckptBusy || (ok && phase != 2) || (!ok && decide (phase ≤ 2)) then .next s
  else
    let num := match a.ckptTxn with
      | some n => (match s.txn n with | some t => leField t.payload 8 4 | none => 0)
      | none => 0
    let s := if ok then (s.wr (Reg.ADP_I_CKPT_SEQ i) (BitVec.ofNat 32 num)).event (Reg.ADP_I_EVT i) 7
      else s.event (Reg.ADP_I_EVT i) 8
    let s := s.modAdp i (fun a => { a with ckptBusy := false, ckptTxn := none })
    .next (if a.ckptOrdered then s.startCkpt i else s)

/-! ### Restore (R269) -/

/-- Does a checkpoint's payload belong to an image: image_id and stage ids? -/
def ckptFits (im : Image) (p : PlanDesc) (bs : List Byte) : Bool :=
  let sizes := p.entries.map (fun e => (e.stage, match im.stages.find? (fun d => d.id == e.stage) with
    | some d => editionSize (im.editionOf d) | none => 0))
  leField bs 0 8 == im.imageId && leField bs 12 4 == p.entries.length &&
    (sizes.foldl (fun (a : Bool × Nat) e => (a.1 && leField bs a.2 1 == e.1, a.2 + 4 + e.2)) (true, 16)).1

/-- The newest committed checkpoint of instance i's partition for its image. -/
def State.findCkpt (s : State) (i : Nat) (im : Image) (p : PlanDesc) : Option Txn :=
  match s.partOf i with
  | none => none
  | some k => (s.store.txns.filter (fun t => t.kind == 2 && t.part == k && t.phase == 2 && ckptFits im p t.payload)).getLast?

/-- A restore that cannot be done: restore_fail, and the image's editions stand. -/
def State.restoreFail (s : State) (i : Nat) : State := (s.cmdClear i 16).event (Reg.ADP_I_EVT i) 9

/-- ADP_I_CMD.restore: while held after a load, the checkpoint's pages are read from the medium. -/
def State.startRestore (s : State) (i : Nat) : State :=
  let x := s.inst i
  match x.image with
  | none => s
  | some im =>
    match im.plan with
    | none => s
    | some p =>
      if x.st != .held then s
      else
        match s.findCkpt i im p with
        | none => s.restoreFail i
        | some t =>
          let s := s.wr (Reg.ADP_I_CMD i) (s.rd (Reg.ADP_I_CMD i) ||| 16)
          s.modStore (fun y => { y with jobs := y.jobs ++ [{ op := 0x11, fn := i, tag := 0, part := t.part, txn := t.num, addr := 0
                                                             offset := 0, length := t.payload.length, got := []
                                                             pages := t.pages.map (fun a => (a, pageCap)), bad := false }] })

/-- The bytes of a checkpoint have been read: they go into slot 0 and the stages' weight SRAM, and ADP_I_EDITION takes its
number (R269). -/
def State.finishRestore (s : State) (i : Nat) (bs : List Byte) (bad : Bool) : State :=
  match (s.inst i).image with
  | none => s
  | some im =>
    match im.plan with
    | none => s
    | some p =>
      if (s.inst i).st != .held then s
      else if bad || !ckptFits im p bs then s.restoreFail i
      else
        let r := p.entries.foldl (fun (a : State × Nat) e =>
          match im.stages.find? (fun d => d.id == e.stage) with
          | none => a
          | some d =>
            let ws := im.editionOf d
            let n := editionSize ws
            let s := match a.1.window i e.shadowWindow with
              | some w => a.1.writeWindow w 0 (slice bs (a.2 + 4) n)
              | none => a.1
            (s.loadSlot i e 0, a.2 + 4 + n)) (s, 16)
        (r.1.cmdClear i 16).wr (Reg.ADP_I_EDITION i) (BitVec.ofNat 32 (leField bs 8 4))

/-! ### ADP registers written by the host -/

/-- ADP_I_CMD: bits 2:0 stay pending until the boundary; bits 3 and 4 act at once. Ignored without a plan. -/
def State.adpCmd (s : State) (i : Nat) (v : Word) : State :=
  if (s.inst i).plan.isNone then s
  else
    let s := s.wr (Reg.ADP_I_CMD i) (s.rd (Reg.ADP_I_CMD i) ||| (v &&& 0xF))
    let s := if v.getLsbD 3 then s.startCkpt i else s
    if v.getLsbD 4 then s.startRestore i else s

/-- ADP_I_MARGIN: a value outside 0 to 0.5 is ignored and sets bad_write (R267). -/
def State.marginSet (s : State) (i : Nat) (v : Word) : State :=
  if (s.inst i).plan.isNone then s
  else if marginOk (bits v 15 0) then s.wr (Reg.ADP_I_MARGIN i) (v &&& 0xFFFF)
  else s.event (Reg.ADP_I_EVT i) 11

/-- At the release of a plan: ADP_I_CTRL.auto and ADP_I_MARGIN from the image, and the first plan word (R255). -/
def State.releasePlan (s : State) (i : Nat) : State :=
  match (s.inst i).plan with
  | none => s
  | some p =>
    let s := (s.setFld (Reg.ADP_I_CTRL i) 0 0 (if p.auto then 1 else 0)).wr (Reg.ADP_I_MARGIN i) (BitVec.ofNat 32 p.margin)
    let s := (s.wr (Reg.ADP_I_CAND_SEQ i) 0).healIf (fun a => a == Reg.ADP_I_CTRL i || a == Reg.ADP_I_MARGIN i)
    s.writePlanWord i 0 0 0

end Sys2Proof.Machine
end

