-- ==== Sys2Proof/Machine/ClkOps.lean ====
section
/-! DEFINITION. Clock domains: what keeps them, their ramps, and their braked time (R379 to R389). -/

namespace Sys2Proof.Machine

/-- Clock domains (R379): engines 0 to 63, tile clusters 64 to 79, core clusters 80 to 87, bulk links 88 to 91; the rest
are not gateable. -/
def gateable (d : Nat) : Bool := decide (d < 92)

def State.dom (s : State) (d : Nat) : Domain := SMap.get {} s.clk.doms d
def State.setDom (s : State) (d : Nat) (x : Domain) : State :=
  { s with clk := { s.clk with doms := SMap.set {} d x s.clk.doms } }

/-- Target ratio of a domain (CLK_D_CFG.div). -/
def State.domTarget (s : State) (d : Nat) : Nat := if gateable d then s.fld (Reg.CLK_D_CFG d) 1 0 else 0

/-- Does an image's keep-warm section name domain d (R79)? -/
def Image.keeps (im : Image) (d : Nat) : Bool :=
  if d < 64 then hasBit im.keepEngines d
  else if d < 80 then hasBit im.keepTiles (d - 64)
  else if d < 88 then hasBit im.keepCores (d - 80)
  else false

/-- A kept domain: force_on, or a running instance's keep-warm mask (R383). -/
def State.kept (s : State) (d : Nat) : Bool :=
  s.bit (Reg.CLK_D_CFG d) 8 || instNums.any (fun i =>
    (s.inst i).live && (match (s.inst i).image with | some im => im.keeps d | none => false))

/-- Domain d wakes: from gated it starts at 1/8 and climbs; a descent turns into a climb from its ratio (R384, R385). A
stopped domain, and every gateable domain of a device parked for heat, stays as it is (R387, R396). -/
def State.wakeDom (s : State) (d : Nat) : State :=
  let x := s.dom d
  if !gateable d || x.stopped || s.bit Reg.PWR_STAT 28 then s
  else if x.gated then
    (s.setDom d { x with gated := false, ratio := 3, ramp := if s.domTarget d = 3 then 0 else 1 }).count (Reg.CLK_D_WAKES d)
  else if x.ramp = 2 then s.setDom d { x with ramp := if x.ratio = s.domTarget d then 0 else 1 }
  else s

/-- Keep-warm bits that take effect wake their domains, gated or on their way down (R67, R383). -/
def State.wakeKept (s : State) : State :=
  (List.range 92).foldl (fun s d => if s.kept d then s.wakeDom d else s) s

/-- Braked time of domain d up to now, in ns. -/
def State.brakedNow (s : State) (d : Nat) : Nat :=
  let x := s.dom d
  SMap.get 0 s.cad.braked d + (if x.braked then s.now - x.brakedFrom else 0)

/-- The gateable domains. -/
def domNums : List Nat := List.range 92

/-- Braked time of every domain now. -/
def State.brakedAll (s : State) : SMap Nat :=
  domNums.foldl (fun m d => SMap.set 0 d (s.brakedNow d) m) []

/-- Does sensor n cover domain d (R389)? -/
def State.covers (s : State) (n d : Nat) : Bool :=
  if d < 64 then let p := s.engPhys d; p / 4 == n || (n == 15 && decide (64 ≤ p))
  else if d < 80 then (List.range 4).any (fun k => let p := s.colPhys (4 * (d - 64) + k); p / 4 == n || (n == 15 && decide (64 ≤ p)))
  else if d < 88 then d - 80 == n / 2
  else d - 88 == n / 4

/-- A sensor that covers domain d reads below its threshold. -/
def State.sagging (s : State) (d : Nat) : Bool := (List.range 16).any (fun m => s.clk.braking.getLsbD m && s.covers m d)

/-- A domain's brake ends: its time is counted. -/
def State.endBrake (s : State) (d : Nat) : State :=
  let x := s.dom d
  if !x.braked then s
  else
    let s := { s with cad := { s.cad with braked := SMap.set 0 d (s.brakedNow d) s.cad.braked } }
    (s.countBy (Reg.CLK_D_BRAKED d) (s.now - x.brakedFrom)).setDom d { x with braked := false }

/-- The brake of domain d follows the sensors that cover the units which serve it now (R380, R388, R389). -/
def State.brakeDom (s : State) (d : Nat) : State :=
  let x := s.dom d
  if x.stopped then s
  else if s.sagging d then (if x.braked then s else s.setDom d { x with braked := true, brakedFrom := s.now })
  else s.endBrake d

/-- As `brakeDom`, for every gateable domain. -/
def State.brakeAll (s : State) : State := domNums.foldl State.brakeDom s

/-- Time that a domain has lost to the brake since a snapshot: an eighth of its braked time (R388). -/
def State.lostSince (s : State) (old : SMap Nat) (d : Nat) : Nat := (s.brakedNow d - SMap.get 0 old d) / 8

/-- The domains of instance i (R389): of its engines, tile and core clusters, and the bulk links of its windows' dies. -/
def State.domsOf (s : State) (i : Nat) : List Nat :=
  domNums.filter (fun d =>
    if d < 64 then hasBit (s.engMask i) d
    else if d < 80 then (List.range 4).any (fun k => s.ownsCol i (4 * (d - 64) + k))
    else if d < 88 then (List.range 16).any (fun k => s.ownsCore i (16 * (d - 80) + k))
    else ((List.range 512).map s.win).any (fun w => w.valid && w.owner == i && w.die == d - 88))

end Sys2Proof.Machine
end

