-- ==== Sys2Proof/Machine/Spares.lean ====
section
/-! DEFINITION. Spare engines and columns: repair of a logical unit, its copy, and its return (R46, R47, R180, R305, R306,
R350). -/

namespace Sys2Proof.Machine

def State.modFlt (s : State) (g : Faults → Faults) : State := { s with flt := g s.flt }

/-- A repair, of an engine or a column, is in hand. -/
def State.repairBusy (s : State) : Bool := s.flt.engRepair.isSome || s.flt.takeover.isSome

/-- INS_REPAIR_STAT (R306). -/
def State.repairStat (s : State) (busy outcome phys : Nat) : State :=
  s.wr Reg.INS_REPAIR_STAT (BitVec.ofNat 32 (0x80000000 * busy + 0x1000000 * outcome + phys))

/-- The owner and stage of logical unit u: kind 0 engine, 1 column; its instance must be running or in freewheel. -/
def State.unitStage (s : State) (kind u : Nat) : Option (Nat × StageDesc) :=
  match (if kind = 0 then s.engOwner u else s.colOwner u) with
  | none => none
  | some i =>
    let x := s.inst i
    if !x.live then none
    else ((if kind = 0 then x.stageOfEngine u else x.stageOfCol u)).map (fun d => (i, d))

/-- No spare is free: outcome 2, and the fault of the unit's stage escalates to an instance fault, however the repair was
started (R47, R306). A unit of no stage that runs has such a fault only when the fault path asks for the repair. -/
def State.noSpare (s : State) (kind u : Nat) (fault : Bool) : State :=
  let s := s.repairStat 0 2 0
  match s.unitStage kind u with
  | some (i, d) => s.noPath i d.id u 0
  | none => if fault then s.instFault (if kind = 0 then s.engOwner u else s.colOwner u) 0x0D 0x0022 0 u 0 else s

/-- The stage of a unit is to enter fenced-repairing at its owner's next accepted tick, or later while it drains or
reloads (R305, R180); one that is fenced-repairing already stays so. -/
def State.pendRepair (s : State) (kind u : Nat) : State :=
  match s.unitStage kind u with
  | some (i, d) => s.modInst i (fun x => x.modStage d.id (fun g => { g with unitRepair := 1 }))
  | none => s

/-- Take up the repair of logical engine e: the free spare with the lowest physical number (R305). -/
def State.takeEngine (s : State) (e : Nat) (fault : Bool) : State :=
  match s.flt.engFree with
  | [] => s.noSpare 0 e fault
  | p :: ps =>
    ((s.modFlt (fun f => { f with engFree := ps, engRepair := some (e, p) })).repairStat 1 0 p).pendRepair 0 e

/-- Take up the repair of logical column c (R180, R306). -/
def State.takeColumn (s : State) (c : Nat) (fault : Bool) : State :=
  match s.flt.colFree with
  | [] => s.noSpare 1 c fault
  | p :: ps =>
    ((s.modFlt (fun f => { f with colFree := ps, takeover := some { col := c, toCol := p, back := false, on := false } })).repairStat
      1 0 p).pendRepair 1 c

/-- A passing column takes back its logical column by the copy in reverse (R350). -/
def State.takeBack (s : State) (c p : Nat) : State :=
  (s.modFlt (fun f => { f with takeover := some { col := c, toCol := p, back := true, on := false } })).pendRepair 1 c

/-- Take up a repair of kind 0 engine, 1 column, 2 a column's return. -/
def State.beginRepair (s : State) (kind u : Nat) (fault : Bool) : State :=
  if kind = 0 then s.takeEngine u fault
  else if kind = 1 then s.takeColumn u fault
  else s.takeBack (u % 64) (u / 64)

/-- Repair logical unit u; a repair asked for while another is in progress waits (R306). -/
def State.repairUnit (s : State) (kind u : Nat) (fault : Bool) : State :=
  if s.repairBusy then s.modFlt (fun f => { f with repairWait := f.repairWait ++ [(kind, u, fault)] })
  else s.beginRepair kind u fault

/-- Take up waiting repairs, oldest first, until one is in hand; one that finds no spare ends at once. -/
def State.serveRepairs : Nat → State → State
  | 0, s => s
  | n + 1, s =>
    if s.repairBusy then s
    else match s.flt.repairWait with
      | [] => s
      | (k, u, f) :: ws => ((s.modFlt (fun x => { x with repairWait := ws })).beginRepair k u f).serveRepairs n

/-- A repair has ended: the oldest that waits begins (R306). -/
def State.nextRepair (s : State) : State := s.serveRepairs s.flt.repairWait.length

/-- INS_REPAIR: go starts the repair of the unit named (R305, R306). -/
def State.insRepair (s : State) (v : Word) : State :=
  let s := s.wr Reg.INS_REPAIR (v &&& 0x0100003F)
  if v.getLsbD 31 then s.repairUnit (bits v 24 24) (bits v 5 0) false else s

/-- Is T now for a stage whose unit waits for repair: it runs, or is fenced-repairing for another cause (R305, R180)? -/
def Stage.fences (g : Stage) : Bool := g.unitRepair == 1 && (g.st == .running || g.st == .fencedRepairing)

/-- A stage whose unit waits for repair enters or stays in fenced-repairing, and a stage whose copy is done runs again,
unless a poisoned fetch holds it (R347). -/
def Stage.repairStep (g : Stage) : Stage :=
  if g.fences then { g with st := .fencedRepairing, unitRepair := 2 }
  else if g.unitRepair = 3 ∧ g.st = .fencedRepairing then
    { g with st := if g.stopTick.isSome then .fencedRepairing else .running, unitRepair := 0 }
  else g

/-- Engine e of instance x is being replaced, and this tick is its T: from it the engine starts no command. -/
def Inst.swapBegins (x : Inst) (e : Nat) : Bool :=
  match x.stageOfEngine e with
  | some d => (match x.stage d.id with | some g => g.fences | none => false)
  | none => false

/-- What an accepted tick of instance i does to repairs of its units (R180, R305). -/
def State.repairTick (s : State) (i : Nat) : State :=
  let x := s.inst i
  let s := match s.flt.engRepair with
    | some (e, _) =>
      if s.engOwner e = some i ∧ x.swapBegins e then s.modEngine e (fun h => { h with swap := 1 }) else s
    | none => s
  s.modInst i (fun x => { x with stages := x.stages.map Stage.repairStep })

/-- May the copy of a unit begin: its stage waits for it, or no running stage holds it? -/
def State.copyMayStart (s : State) (kind u : Nat) : Bool :=
  match s.unitStage kind u with
  | none => true
  | some (i, d) => (match (s.inst i).stage d.id with | some g => g.unitRepair == 2 | none => true)

/-- The copy of the stage's unit is done (R305, R180). -/
def State.copied (s : State) (kind u : Nat) : State :=
  match s.unitStage kind u with
  | some (i, d) => s.modInst i (fun x => x.modStage d.id (fun g => { g with unitRepair := if g.unitRepair = 2 then 3 else 0 }))
  | none => s

/-- ENGINE_COPY_START: every command of engine e that started before T has completed, so the copy begins (R305). -/
def execEngineCopyStart (e : Nat) (s : State) : Res :=
  match s.flt.engRepair with
  | none => .next s
  | some (u, _) =>
    s.onlyIf (u == e && s.copyMayStart 0 e && decide ((s.engine e).swap < 2) && (s.engine e).epis.isEmpty)
      (s.modEngine e (fun g => { g with swap := 2 }))

/-- Copy an engine's three memories, marks with them (R305). -/
def State.copyEngine (s : State) (p q : Nat) : State :=
  [MemKind.weight, MemKind.staging, MemKind.acc].foldl (fun s k => s.copyMem (memAddr k p 0) (memAddr k q 0) k.size) s

/-- ENGINE_SWAP_DONE: the copy completes; the spare serves e and starts the waiting commands (R305). -/
def execEngineSwapDone (e : Nat) (s : State) : Res :=
  match s.flt.engRepair with
  | none => .next s
  | some (u, p) =>
    s.onlyIf (u == e && (s.engine e).swap == 2)
      (let s := (s.copyEngine (s.engPhys e) p).modFlt (fun f =>
         { f with engMap := SMap.set e e p f.engMap, engRepair := none })
       let s := ((s.modEngine e (fun g => { g with swap := 0 })).repairStat 0 1 p).brakeDom e
       (s.copied 0 e).nextRepair)

/-- COLUMN_TAKEOVER: at a tick boundary the spare begins to copy logical column c (R180). -/
def execColumnTakeover (c : Nat) (s : State) : Res :=
  match s.flt.takeover with
  | none => .next s
  | some k =>
    s.onlyIf (k.col == c && !k.on && s.copyMayStart 1 c) (s.modFlt (fun f => { f with takeover := some { k with on := true } }))

/-- TAKEOVER_DONE: the column copy completes; the column's old router becomes a proxy, or after the copy in reverse its
spare is free again (R180, R350). A takeover raises TIL_C_EVT.takeover_done. -/
def execTakeoverDone (c : Nat) (s : State) : Res :=
  match s.flt.takeover with
  | none => .next s
  | some k =>
    s.onlyIf (k.col == c && k.on)
      (let old := s.colPhys c
       let s := (s.copyMem (memAddr .tile old 0) (memAddr .tile k.toCol 0) MemKind.tile.size).modFlt (fun f =>
         { f with colMap := SMap.set c c k.toCol f.colMap, takeover := none
                  colFree := if k.back then insKey old f.colFree else f.colFree
                  proxy := if k.back then delKey c f.proxy else insKey c f.proxy })
       let s := if k.back then s else (s.repairStat 0 1 k.toCol).event (Reg.TIL_C_EVT c) 8
       ((s.brakeDom (64 + c / 4)).copied 1 c).nextRepair)

end Sys2Proof.Machine
end

