-- ==== Sys2Proof/Machine/Instances.lean ====
section
/-! DEFINITION. Instances: loading, the staged release, reset, and the reload of one stage by the host (R289 to R304). -/

namespace Sys2Proof.Machine

/-! ### Bytes that the lead reads from host memory (R370) -/

/-- One DATA message: its header, then the raw 64-byte units. -/
def dataMessage (kind id off : Nat) (bs : List Byte) : List (List Byte) :=
  let n := ceilDiv bs.length 64
  message64 ([0x04, BitVec.ofNat 8 kind] ++ leBytes 2 id ++ leBytes 4 n ++ leBytes 8 off)
    :: (List.range n).map (fun k => message64 (slice bs (64 * k) 64))

/-- DATA messages of at most 15 units each, one frame each. -/
def State.postData (kind id : Nat) : Nat → Nat → List Byte → State → State
  | 0, _, _, s => s
  | n + 1, off, bs, s =>
    if bs.isEmpty then s
    else State.postData kind id n (off + 960) (bs.drop 960) (s.tdmFrame (dataMessage kind id off (bs.take 960)))

/-- A paired lead forwards what it has read from host memory. -/
def State.forward (s : State) (kind id off : Nat) (bs : List Byte) : State :=
  if s.leads then State.postData kind id (bs.length / 960 + 1) off bs s else s

/-- Bytes `off .. off + n` of what has come in as DATA of a kind for an id; none while some are missing. -/
def State.dataBytes (s : State) (kind id off n : Nat) : Option (List Byte) :=
  (s.tdm.dataIn.find? (fun d => d.kind == kind && d.id == id && decide (d.off ≤ off) && decide (off + n ≤ d.off + d.bytes.length))).map
    (fun d => slice d.bytes (off - d.off) n)

/-- DATA of a kind for an id has been taken. -/
def State.dropData (s : State) (kind id : Nat) : State :=
  { s with tdm := { s.tdm with dataIn := s.tdm.dataIn.filter (fun d => !(d.kind == kind && d.id == id)) } }

/-! ### Existence and loading (R289, R295) -/

/-- Instance i exists: its virtual function is enabled, or it is instance 0 of a flash boot before the host's first write
of VF Enable (R289, R424). -/
def State.instExists (s : State) (i : Nat) : Bool :=
  s.hif.vfEnabled.getLsbD i || (i == 0 && s.sig.boot != 0 && !s.hif.vfWritten)

/-- The committed boot image at an index (R324). -/
def State.bootImage (s : State) (n : Nat) : Option Txn :=
  (s.store.txns.filter (fun t => t.kind == 3 && t.phase == 2 && t.index == n)).getLast?

/-- Read a transaction's pages for an instance: op 0x10 a load, 0x11 a restore. -/
def State.readTxn (s : State) (op i : Nat) (t : Txn) : State :=
  s.modStore (fun y => { y with jobs := y.jobs ++ [{ op := op, fn := i, tag := 0, part := t.part, txn := t.num, addr := 0, offset := 0
                                                     length := t.payload.length, got := []
                                                     pages := t.pages.map (fun a => (a, pageCap)), bad := false }] })

/-- Source bytes in host memory: none for a length of 0 or a completion error. A paired follower waits for DATA. -/
def State.hostSource (s : State) (i : Nat) : Option (List Byte) :=
  let len := s.fld (Reg.INS_I_LOAD_LEN i) 29 0
  if len = 0 then none else s.hostBytes (s.rd64 (Reg.INS_I_LOAD_ADDR_LO i) (Reg.INS_I_LOAD_ADDR_HI i)) len

/-- INS_I_CMD.load: an unloaded instance that exists begins to load (R295); a load written before the mapping of R354 is
complete waits for it (R423). -/
def State.startLoad (s : State) (i : Nat) : State :=
  let x := s.inst i
  if x.st != .unloaded || !s.instExists i || s.flt.down then s
  else if !s.sig.mapped then s.setFld (Reg.INS_I_CMD i) 0 0 1
  else
    let s := (s.setFld (Reg.INS_I_CMD i) 0 0 0).setInst i { x with st := .loading, resetDone := false, load := none }
    if s.bit (Reg.INS_I_LOAD_SRC i) 31 then
      match s.bootImage (s.fld (Reg.INS_I_LOAD_SRC i) 7 0) with
      | some t => s.readTxn 0x10 i t
      | none => s.modInst i (fun x => { x with load := some none })
    else if s.follows then s
    else
      let b := s.hostSource i
      let s := match b with | some bs => s.forward 1 i 0 bs | none => s
      s.modInst i (fun x => { x with load := some b })

/-- The windows of instance i. -/
def State.windowsOf (s : State) (i : Nat) : List Win := ((List.range 512).map s.win).filter (fun w => w.valid && w.owner == i)

/-- Zero the memories of an instance's units when INS_CTRL.zero_on_reset is 1, and clear the units (R300 step 4, R295). -/
def State.clearUnits (s : State) (i : Nat) : State :=
  let es := maskUnits (s.engMask i) 64
  let cs := (List.range 64).filter (s.ownsCol i)
  let ks := (List.range 128).filter (s.ownsCore i)
  let zero (s : State) : State :=
    let s := es.foldl (fun s e => [MemKind.weight, MemKind.staging, MemKind.acc].foldl (fun s k => s.zeroMem k (s.engPhys e) 0 k.size) s) s
    let s := cs.foldl (fun s c => s.zeroMem .tile (s.colPhys c) 0 MemKind.tile.size) s
    let s := ks.foldl (fun s k => s.zeroMem .core k 0 MemKind.core.size) s
    (s.windowsOf i).foldl (fun s w => s.zeroMem .bulk w.die w.base w.size) s
  let s := if s.bit Reg.INS_CTRL 0 then zero s else s
  let s := es.foldl (fun s e => s.setEngine e {}) s
  let s := cs.foldl (fun s c => tileRows.foldl (fun s r => s.setTile c r {}) s) s
  ks.foldl (fun s k => if (s.core k).st = .fenced then s else s.setCore k {}) s

/-- A load fails: its code, and the instance is unloaded with its units cleared (R295). -/
def State.loadFail (s : State) (i code : Nat) : State :=
  let s := s.modInst i (fun x => { x with st := .unloaded, load := none, image := none, loadCode := BitVec.ofNat 8 code })
  let s := s.clearUnits i
  (s.event (Reg.INS_I_EVT i) 1).report 0x09 0x0101 0 (some i) 0 0xFFFF (BitVec.ofNat 32 code)

/-- The image's bytes are judged and written: held on success (R85, R295, R298). -/
def State.judgeLoad (s : State) (i : Nat) : Option (List Byte) → State
  | none => s.loadFail i 0x0D
  | some bs =>
    match s.checkImage i bs with
    | .error c => s.loadFail i c
    | .ok (im, t) =>
      let s := (t.bindImage i im).modInst i (fun x => { x with st := .held, load := none, loadCode := 0 })
      s.event (Reg.INS_I_EVT i) 0

/-! ### Flash boot of instance 0 (R424) -/

/-- Writes of Lenuk's own to the assignment registers of queue q recompute their parity (R407). -/
def State.healAssign (s : State) (q : Nat) : State :=
  s.healIf (fun a => a == queueKey q Reg.QUE_Q_ASSIGN || a == queueKey q Reg.QUE_Q_CAP || a == queueKey q Reg.QUE_Q_MAXB)

/-- The token queues of the columns of instance i come with the columns: `on` assigns them, else they are unassigned. -/
def State.assignTokens (s : State) (i : Nat) (on : Bool) : State :=
  let v := s.rd (Reg.INS_I_COLS i)
  let s := (List.range (min (192 * bits v 14 8) (12288 - 192 * bits v 5 0))).foldl (fun s k => s.modQueue (192 * bits v 5 0 + k) (fun x =>
    { x with assign := if on then BitVec.ofNat 32 (0x80000000 + 0x1000000 * i) else 0 })) s
  s.healIf (fun a => decide (2 ^ 26 ≤ a) && a % 2 ^ 26 == Reg.QUE_Q_ASSIGN
    && decide (192 * bits v 5 0 ≤ a / 2 ^ 26 - 16) && decide (a / 2 ^ 26 - 16 < min 12288 (192 * bits v 5 0 + 192 * bits v 14 8)))

/-- INS_I_COLS takes a value, and its token queues follow. -/
def State.setCols (s : State) (i : Nat) (v : Word) : State :=
  ((s.assignTokens i false).wrHeal (Reg.INS_I_COLS i) v).assignTokens i true

/-- First and count of the run that holds a column mask. -/
def runOf (m : Nat) : Nat × Nat :=
  match maskUnits m 64 with
  | [] => (0, 0)
  | c :: cs => (c, (c :: cs).getLastD c - c + 1)

/-- Lowest free base, in 64 KiB units, for `n` units on a die. -/
def State.freeBase (s : State) (die n : Nat) : Option Nat :=
  let ws := ((List.range 512).map s.win).filter (fun w => w.valid && w.die == die)
  (List.range 1537).find? (fun b => decide (b + n ≤ 1536) &&
    ws.all (fun w => decide (w.base + w.size ≤ 0x10000 * b) || decide (0x10000 * (b + n) ≤ w.base)))

/-- Place the windows of an image in entry order, in window table entries from 0 upwards. -/
def State.placeWindows (s : State) : List WindowReq → Nat → Option State
  | [], _ => some s
  | w :: ws, k =>
    match s.freeBase w.die w.size with
    | none => none
    | some b =>
      let s := (s.wrHeal (Reg.INS_W_MATCH k) (BitVec.ofNat 32 (0x80000000 + w.id))).wrHeal (Reg.INS_W_PLACE k)
        (BitVec.ofNat 32 (0x40000000 * w.die + 0x10000 * b + w.size))
      (s.wrHeal (Reg.INS_W_ACCESS k) (BitVec.ofNat 32 w.access)).placeWindows ws (k + 1)

/-- Assign the lowest free device queues of a pool to the entries of an image, with their caps and sizes. -/
def State.placeQueues (s : State) (lo n : Nat) (qs : List QueueReq) : Option State :=
  let free := ((List.range n).map (· + lo)).filter (fun q => !(s.queue q).assign.getLsbD 31)
  if free.length < qs.length then none
  else some ((qs.zip free).foldl (fun s p => (s.modQueue p.2 (fun x =>
    { x with assign := 0x80000000, cap := BitVec.ofNat 32 p.1.cap, maxb := BitVec.ofNat 32 p.1.maxBytes })).healAssign p.2) s)

/-- Step 2 of R424: the units, windows and queues of the resources section go to instance 0; none when they do not fit. -/
def State.bootAssign (s : State) (r : Resources) : Option State :=
  let s := (s.wr64 (Reg.INS_I_ENGINES_LO 0) (Reg.INS_I_ENGINES_HI 0) r.engines).healIf (fun a => a == Reg.INS_I_ENGINES_LO 0 || a == Reg.INS_I_ENGINES_HI 0)
  let run := runOf r.columns
  let s := s.setCols 0 (BitVec.ofNat 32 (256 * run.2 + run.1))
  let s := (List.range 4).foldl (fun s n => s.wrHeal (Reg.INS_I_CORES 0 n) (BitVec.ofNat 32 (r.cores >>> (32 * n)))) s
  let s := s.wrHeal (Reg.INS_I_TAGS 0) (BitVec.ofNat 32 (min r.tags 262144))
  match s.placeWindows r.windows 0 with
  | none => none
  | some s =>
    match s.placeQueues 12288 2048 (r.queues.filter (·.pool == 1)) with
    | none => none
    | some s => s.placeQueues 14336 2048 (r.queues.filter (·.pool == 2))

/-- Clear the assignment of instance 0. -/
def State.bootClear (s : State) : State :=
  let s := (s.wr64 (Reg.INS_I_ENGINES_LO 0) (Reg.INS_I_ENGINES_HI 0) 0).healIf
    (fun a => a == Reg.INS_I_ENGINES_LO 0 || a == Reg.INS_I_ENGINES_HI 0)
  let s := s.setCols 0 0
  let s := (List.range 4).foldl (fun s n => s.wrHeal (Reg.INS_I_CORES 0 n) 0) s
  let s := s.wrHeal (Reg.INS_I_TAGS 0) 0
  let s := ((List.range 512).filter (fun k => (s.win k).valid && (s.win k).owner == 0)).foldl (fun s k =>
    ((s.wrHeal (Reg.INS_W_MATCH k) 0).wrHeal (Reg.INS_W_PLACE k) 0).wrHeal (Reg.INS_W_ACCESS k) 0) s
  let s := s.healIf (fun a => decide (2 ^ 26 ≤ a) && (s.queue (a / 2 ^ 26 - 16)).ofInst 0 && decide (Reg.QUE_Q_ASSIGN ≤ a % 2 ^ 26))
  { s with queues := SMap.mapVals {} (fun _ x => if x.ofInst 0 then { x with assign := 0, cap := 0, maxb := 0 } else x) s.queues }

/-- Index of boot attempt n (1 or 2): the strap's, then the other. -/
def State.bootIndex (s : State) (n : Nat) : Nat :=
  let first := if s.fld Reg.HIF_STRAPS 1 0 = 1 then 0 else 1
  if n = 1 then first else 1 - first

/-- An attempt has ended with a load code. -/
def State.bootOutcome (s : State) (n code : Nat) (ok : Bool) : State :=
  let s := s.setFld Reg.DBG_BOOT (if n = 1 then 15 else 7) (if n = 1 then 8 else 0) code
  let s := (s.setFld Reg.DBG_BOOT 23 16 (s.bootIndex n)).setFld Reg.DBG_BOOT 24 24 (n - 1)
  if ok then (s.setFld Reg.DBG_BOOT 31 30 1).event Reg.DBG_EVT 5
  else if n = 2 then (s.setFld Reg.DBG_BOOT 31 30 2).event Reg.DBG_EVT 4
  else s

/-- Steps 1 to 3 of attempt n; the code where a step before the load fails. -/
def State.bootLoad (s : State) (n : Nat) : Except Nat State :=
  match s.bootImage (s.bootIndex n) with
  | none => .error 0x0D
  | some t =>
    let bs := t.payload
    match s.bootAssign (parseResources (secBytes bs (directory bs) 1)) with
    | none => .error 0x05
    | some s =>
      let s := s.wrHeal (Reg.INS_I_LOAD_SRC 0) (BitVec.ofNat 32 (0x80000000 + s.bootIndex n))
      .ok ({ s with sig := { s.sig with boot := n } }.startLoad 0)

/-- The second attempt, on the other index. -/
def State.bootSecond (s : State) : State :=
  match s.bootLoad 2 with
  | .ok s => s
  | .error c => { s.bootOutcome 2 c false with sig := { s.sig with boot := 3 } }.bootClear

/-- The first attempt. -/
def State.bootFirst (s : State) : State :=
  match s.bootLoad 1 with
  | .ok s => s
  | .error c => (s.bootOutcome 1 c false).bootSecond

/-- A load of instance 0 that the boot ordered has been judged (R424 steps 4 and 5). -/
def State.bootJudged (s : State) (i : Nat) : State :=
  let n := s.sig.boot
  let x := s.inst i
  if i ≠ 0 ∨ (n ≠ 1 ∧ n ≠ 2) then s
  else
    let ok := x.st == .held
    let s := s.bootOutcome n x.loadCode.toNat ok
    if ok then { s with sig := { s.sig with boot := 3 } }
    else if n = 1 then s.bootClear.bootSecond
    else { s with sig := { s.sig with boot := 3 } }.bootClear

/-- LOAD_COMPLETE: the last byte of an image has been taken in. -/
def execLoadComplete (i : Nat) (s : State) : Res :=
  let x := s.inst i
  match x.load with
  | some b => s.onlyIf (x.st == .loading) ((s.judgeLoad i b).bootJudged i)
  | none => .next s

/-! ### Release (R297) -/

/-- Does the adaptation plan name core k (R55, R83)? -/
def Image.planCore (im : Image) (k : Nat) : Bool :=
  match im.plan with
  | some p => p.entries.any (fun e => decide (e.firstCore ≤ k) && decide (k < e.firstCore + e.coreCount))
  | none => false

/-- INS_I_CMD.release: step 1, outputs. -/
def State.startRelease (s : State) (i : Nat) : State :=
  let x := s.inst i
  if x.st = .held ∧ x.relStep = 0 then s.setInst i { x with relStep := 1 } else s

/-- Step 3: registers leave reset, cores start, generators are seeded, epochs are 0, and the instance runs with no current
line (R27, R96, R184). A unit that neither a stage nor the adaptation plan names stays idle (R55). -/
def State.releaseDone (s : State) (i : Nat) (im : Image) : State :=
  let x := s.inst i
  let s := s.setInst i { st := .running, loadCode := x.loadCode, image := x.image, adp := x.adp,
                         segs := x.segs, window := x.window, marks := x.marks, brakeAt := s.brakedAll
                         reload := x.reload, reloadAt := x.reloadAt
                         stages := im.stages.map (fun d => { id := d.id, st := .running, workCycles := d.workCycles }) }
  let s := im.stages.foldl (fun s d => s.startStage i im d 0) s
  let s := ((List.range 128).filter (fun k => s.ownsCore i k && im.planCore k)).foldl (fun s k => s.startCore i k im 0) s
  let s := { s with queues := SMap.mapVals {} (fun _ q => if q.ofInst i then { q with epoch := 0, discard := false, markerPast := true } else q) s.queues
                    sig := { s.sig with anyReleased := true } }
  ((s.releasePlan i).event (Reg.INS_I_EVT i) 2).wakeKept

/-- RELEASE_STEP: write enables, then resets, each at least 64 cycles after the step before. -/
def execReleaseStep (i t : Nat) (s : State) : Res :=
  let s := s.at_ t
  let x := s.inst i
  match x.image with
  | none => .next s
  | some im =>
    if x.st ≠ .held then .next s
    else if x.relStep = 1 then .next (s.setInst i { x with relStep := 2 })
    else if x.relStep = 2 then .next (s.releaseDone i im)
    else .next s

/-! ### Reset (R300) -/

/-- The open transactions of instance i are rolled back (R333). -/
def State.rollbackTxns (s : State) (i : Nat) : State :=
  (s.store.txns.filter (fun t => t.inst == i && t.phase == 0)).foldl (fun s t =>
    ((s.journal { type := 4, part := t.part, inst := t.inst, count := 0, txn := t.num, body := [] }).modTxn t.num
      (fun u => { u with phase := 3 })).flushJournal) s

/-- A reload in any phase ends with reload_fail and code 0x0E (R304). -/
def State.dropReload (s : State) (i : Nat) : State :=
  if (s.inst i).reloading || s.bit (Reg.INS_I_CMD i) 3 then
    (((s.setFld (Reg.INS_I_RELOAD_STAT i) 7 0 0x0E).setFld (Reg.INS_I_CMD i) 3 3 0)).event (Reg.INS_I_EVT i) 6
  else s

/-- The tasks of instance i that a reset finds active are abandoned: each is recorded with cause 7 (R239) and posts no token
(R248). -/
def State.abandonTasks (s : State) (i : Nat) : State :=
  (s.tasks.filter (fun t => t.inst == i && !t.done)).foldl (fun s t =>
    s.recordAbort i t.q (leField t.prog 0 2) 7 t.beats) s

/-- A reset begins: steps 1 to 3. Nothing happens to an instance that is unloaded or already resetting (R298). -/
def State.resetInst (s : State) (i : Nat) : State :=
  let x := s.inst i
  if x.st = .unloaded ∨ x.st = .resetting then s
  else
    let s := ((s.dropReload i).abandonTasks i).dropTransfers i
    let s := s.holdUnits i
    let s := s.rollbackTxns i
    let s := s.modStore (fun y => { y with jobs := y.jobs.filter (fun j =>
      !(if j.op < 0x10 then j.fn == i + 1 else j.fn == i && (j.op == 0x10 || j.op == 0x11))) })
    s.setInst i { st := .resetting, loadCode := if x.st = .loading then 0x0E else x.loadCode, image := x.image }

/-- Rows of instance i in CAD, INL, OUT, ACT, ADP and XFR: first byte, and bytes. -/
def rowsOf (i : Nat) : List (Nat × Nat) := [
  (Reg.CAD_I_PMIN i, 0x40), (Reg.INL_I_SEQ i, 0x10), (Reg.OUT_I_QUEUES i, 0x80), (Reg.ACT_I_QUEUES i, 0x40),
  (Reg.ADP_I_CTRL i, 0x40), (Reg.ADP_I_TRAINED i, 0x10), (Reg.XFR_I_STAT i, 0x20)]

/-- Those rows return to their reset values; the allowances and the image number of an unloaded instance read 0. -/
def State.resetRows (s : State) (i : Nat) : State :=
  let s := { s with regs := (rowsOf i).foldl (fun (m : SMap Word) (r : Nat × Nat) => SMap.dropRange r.1 (r.1 + r.2) m) s.regs }
  let s := s.healIf (fun a => (rowsOf i).any (fun r => decide (r.1 ≤ a) && decide (a < r.1 + r.2)))
  let s := (List.range 10).foldl (fun s p => s.wr (Reg.INS_I_ALLOW i p) 0) s
  s.wr64 (Reg.INS_I_IMAGE_LO i) (Reg.INS_I_IMAGE_HI i) 0

/-- Pending bits whose events are gone fall. -/
def State.pendDrop (s : State) : State :=
  { s with hif := { s.hif with pend := s.hif.pend.filter (fun p => s.pendNow (p / 32) (p % 32)) } }

/-- NAND programs of the instance's rolled back transactions still in hand (R300 step 3). -/
def State.programsLeft (s : State) (i : Nat) : Bool :=
  s.store.jobsLeft.any (fun j => j.page.kind == 3 && s.store.txns.any (fun t => t.num == j.page.txn && t.inst == i && t.phase == 3))

/-- Is a unit swap of the instance's units copying (R300)? -/
def State.swapBusy (s : State) (i : Nat) : Bool :=
  (match s.flt.engRepair with | some (e, _) => s.engOwner e == some i && (s.engine e).swap == 2 | none => false)
  || (match s.flt.takeover with | some k => s.colOwner k.col == some i && k.on | none => false)

/-- Steps 4 to 6. -/
def State.resetEnd (s : State) (i : Nat) : State :=
  let x := s.inst i
  let s := s.clearUnits i
  let s := { s with
    queues := SMap.mapVals {} (fun _ q => if q.ofInst i then
      { q with entries := [], rd := q.wr, epoch := 0, discard := false, markerPast := true, lastLine := 0, localId := none }
      else q) s.queues
    outSegs := s.outSegs.filter (fun g => g.inst != i || g.sending)
    tdm := { s.tdm with waiting := s.tdm.waiting.filter (fun w => w.1.inst != i), partner := s.tdm.partner.filter (fun p => p.inst != i)
                        faults := s.tdm.faults.filter (fun f => f.1 != i), theirs := s.tdm.theirs.filter (· != i) } }
  let s := (s.resetRows i).setInst i { loadCode := x.loadCode, resetDone := true }
  ((s.count (Reg.INS_I_RESETS i)).event (Reg.INS_I_EVT i) 4).pendDrop

/-- RESET_DONE: steps 2 to 5 have ended, and the instance is unloaded. -/
def execResetDone (i : Nat) (s : State) : Res :=
  s.onlyIf ((s.inst i).st == .resetting && !s.programsLeft i && !s.swapBusy i) (s.resetEnd i)

/-! ### Reload of one stage (R302, R303) -/

/-- A refused reload: nothing in the stage changes. -/
def State.reloadFail (s : State) (i code : Nat) : State :=
  let s := s.modInst i (fun x => { x with reload := none })
  let s := (s.setFld (Reg.INS_I_RELOAD_STAT i) 7 0 code).setFld (Reg.INS_I_CMD i) 3 3 0
  (s.event (Reg.INS_I_EVT i) 6).report 0x09 0x0106 0 (some i) (s.fld (Reg.INS_I_RELOAD i) 7 0) 0xFFFF (BitVec.ofNat 32 code)

/-- The window and the first byte of the patch's copy, as the command named them, when it fits. -/
def State.reloadPlace (s : State) (i len : Nat) : Option (Win × Nat) :=
  let p := (s.inst i).reloadAt
  match s.window i p.1 with
  | some w => if p.2.1 + len ≤ w.size then some (w, p.2.1) else none
  | none => none

/-- The patch's bytes have arrived: the copy goes into the window. -/
def State.copyPatch (s : State) (i : Nat) : Option (List Byte) → State
  | none => s.modInst i (fun x => { x with reload := some none })
  | some bs =>
    match s.reloadPlace i bs.length with
    | some (w, off) =>
      let s := (s.writeWindow w off bs).reloadMove i (s.inst i).reloadAt.2.2 (memAddr .bulk w.die (w.base + off)) bs.length 0
      s.modInst i (fun x => { x with reload := some (some bs) })
    | none => let r := s.draw; r.2.reloadFail i (r.1.toNat % 256)

/-- INS_I_CMD.reload: copies a patch from host memory into the window (R302 step 1). -/
def State.startReload (s : State) (i : Nat) : State :=
  let x := s.inst i
  if !(x.live || x.st == .held) || s.bit (Reg.INS_I_CMD i) 3 then s
  else
    let s := (s.setFld (Reg.INS_I_CMD i) 3 3 1).wr (Reg.INS_I_RELOAD_STAT i)
      (BitVec.ofNat 32 (256 * s.fld (Reg.INS_I_RELOAD i) 7 0))
    let at_ := (s.fld (Reg.INS_I_RELOAD i) 15 8, s.fld (Reg.INS_I_RELOAD_OFF i) 31 6 * 64, s.fld (Reg.INS_I_RELOAD i) 29 16)
    let s := s.modInst i (fun x => { x with reloadAt := at_ })
    if s.follows then s
    else
      let b := s.hostSource i
      let s := match b with | some bs => s.forward 2 i 0 bs | none => s
      s.copyPatch i b

/-- PATCH_CHECK: the copy is checked, and armed or refused; a held instance takes it at once (R302, R303). It waits while a
reload of the stage is still armed, and while the transfer queue of its copy is at its cap. -/
def execPatchCheck (i : Nat) (s : State) : Res :=
  let x := s.inst i
  let sid := s.fld (Reg.INS_I_RELOAD_STAT i) 15 8
  match x.reload with
  | none => .next s
  | some none => .next (s.reloadFail i 0x0D)
  | some (some bs) =>
    let l := x.reloadAt.2.2
    if (match x.stage sid with | some g => g.armed.isSome | none => false) || !s.reloadReady i l then .next s
    else
      let r := match s.reloadPlace i bs.length with
        | some (w, off) => s.readWindow w off bs.length
        | none => (bs, s)
      let s := r.2
      match s.checkPatch i sid r.1 with
      | .error c => .next (s.reloadFail i c)
      | .ok p =>
        let src := match s.reloadPlace i bs.length with | some (w, off) => memAddr .bulk w.die (w.base + off) | none => 0
        let s := (s.modInst i (fun x => { x with reload := none })).setFld (Reg.INS_I_CMD i) 3 3 0
        if x.st = .held then
          .next (((s.applyPatch i p src l).count (Reg.INS_I_RELOADS i)).event (Reg.INS_I_EVT i) 5)
        else .next (s.modInst i (fun x => x.modStage sid (fun g => { g with armed := some { patch := some p, src := src, queue := l } })))

/-- A checkpoint waits for the reloads of the plan stages (R268). -/
def State.reloadCkpt (s : State) (i : Nat) : State :=
  let x := s.inst i
  match x.plan with
  | none => s
  | some p =>
    if x.adp.ckptAfterReload && p.entries.all (fun e => match x.stage e.stage with | some g => g.change.isNone | none => true) then
      (s.modAdp i (fun a => { a with ckptAfterReload := false })).startCkpt i
    else s

/-- RELOAD_DONE: the stage runs again with its new programs and data (R303). -/
def execReloadDone (i sid : Nat) (s : State) : Res :=
  match (s.inst i).stage sid with
  | none => .next s
  | some g =>
    s.onlyIf (g.relStep == 3 && g.change.isSome && (s.inst i).live)
      (let s := s.modInst i (fun x => x.modStage sid (fun g => { g with change := none, relStep := 0 }))
       ((s.count (Reg.INS_I_RELOADS i)).event (Reg.INS_I_EVT i) 5).reloadCkpt i)

end Sys2Proof.Machine
end

