-- ==== Sys2Proof/Machine/Inlet.lean ====
section
/-! DEFINITION. The line inlet: lanes, VLF frames, the stream map, assembly slots, the freewheel window, and the tokens of
an admitted line (R28 to R44, R250, R432). -/

namespace Sys2Proof.Machine

/-! ### The stream map in force (R38, R41) -/

/-- A stream-map entry. -/
structure MapEntry where
  valid : Bool
  mask : Nat
  id : Nat
  placement : Nat
  base : Nat
  role : Nat
  insts : Nat
  segs : Nat
  chans : Nat
  fmt : Nat
  width : Nat
  off : Word
deriving DecidableEq, Repr

/-- A register of the stream map in force. -/
def State.mapReg (s : State) (a : Nat) : Word := SMap.get (resetValue a) s.mapLive a

/-- Entry k of the map in force. -/
def State.mapEntry (s : State) (k : Nat) : MapEntry :=
  let m := s.mapReg (Reg.INL_MAP_MATCH k)
  let r := s.mapReg (Reg.INL_MAP_ROUTE k)
  let h := s.mapReg (Reg.INL_MAP_SHAPE k)
  let a := s.mapReg (Reg.INL_MAP_ALIGN k)
  { valid := m.getLsbD 8, mask := bits m 7 4, id := bits m 3 0
    placement := bits r 31 16, base := bits r 15 12, role := bits r 11 8, insts := bits r 7 0
    segs := bits h 31 24 + 1, chans := bits h 23 20 + 1, fmt := bits h 19 16, width := bits h 15 0
    off := (a.extractLsb' 0 16).signExtend 32 }

/-- Does the entry match a stream? -/
def MapEntry.hits (m : MapEntry) (stream : Nat) : Bool := m.valid && (m.id &&& m.mask == stream &&& m.mask)

/-- The entries of the map. -/
def mapKeys : List Nat := List.range 32

/-- The entry that takes a frame of a stream: the lowest that matches (R38). -/
def State.mapFor (s : State) (stream : Nat) : Option Nat := mapKeys.find? (fun k => (s.mapEntry k).hits stream)

/-- Entries routed to instance i. -/
def State.routed (s : State) (i : Nat) : List Nat :=
  mapKeys.filter (fun k => (s.mapEntry k).valid && hasBit (s.mapEntry k).insts i)

/-- Line that a tick-only frame names in instance i (R38). -/
def State.tickLine (s : State) (i stream : Nat) (seq : Word) : Word :=
  match (s.routed i).find? (fun k => (s.mapEntry k).hits stream) with
  | some k => seq + (s.mapEntry k).off
  | none => seq

/-! ### Lanes (R28, R44, R432) -/

/-- Unit kind of an inlet lane (R353). -/
def laneKind : Nat := 5

/-- Is lane j fenced or under test (R348, R352)? -/
def State.laneOut (s : State) (j : Nat) : Bool :=
  s.flt.fenced.any (fun f => f.1 == laneKind && f.2.1 == j) || s.flt.testing.any (fun t => t.kind == laneKind && t.unit == j)

/-- Does lane j run the PCS: enabled, in service and not checking PRBS-31? -/
def State.lanePcs (s : State) (j : Nat) : Bool :=
  decide (j < 32) && s.bit Reg.INL_LANE_EN j && !s.bit Reg.INL_CTRL 1 && !s.laneOut j

/-- Does lane j receive frames? -/
def State.laneUp (s : State) (j : Nat) : Bool := s.lanePcs j && s.bit Reg.INL_LANE_LOCK j

/-- Change a bit of a register. -/
def State.setBit (s : State) (a n : Nat) (b : Bool) : State := s.setFld a n n (if b then 1 else 0)

/-- A lane event (R44): its bit, and a notice. -/
def State.laneEvent (s : State) (j : Nat) : State :=
  (s.event Reg.INL_LANE_EVT j).report 0x02 (0x0300 + j) 0 none 0 j 0

/-- BLOCK_LOCK_LOST (R44): the frame in progress is discarded, and the lane relocks. -/
def execBlockLockLost (j : Nat) (s : State) : Res :=
  s.onlyIf (s.laneUp j) ((s.setBit Reg.INL_LANE_LOCK j false).laneEvent j)

/-- HIGH_BER (R28, R44, R348): high BER on a lane; when FLT_CTRL.lane_test is 1 its rise queues a test of the lane. -/
def execHighBer (j : Nat) (s : State) : Res :=
  s.onlyIf (s.lanePcs j && !s.bit Reg.INL_LANE_HIBER j)
    (let s := ((s.setBit Reg.INL_LANE_LOCK j false).setBit Reg.INL_LANE_HIBER j true).laneEvent j
     if s.bit Reg.FLT_CTRL 1 then
       s.queueTest { kind := laneKind, unit := j, cause := 3, logical := 0xFFFF, spoiled := false }
     else s)

/-- BLOCK_LOCK_GAINED (R432): the lane may receive frames from its next start block. -/
def execBlockLockGained (j : Nat) (s : State) : Res :=
  s.onlyIf (s.lanePcs j)
    { (s.setBit Reg.INL_LANE_LOCK j true).setBit Reg.INL_LANE_HIBER j false with lockAt := SMap.put j s.now s.lockAt }

/-- INVALID_BLOCK (R29, R44): counted, and logged; the manual gives the log no event bit, so the code's is open. -/
def execInvalidBlock (j : Nat) (s : State) : Res :=
  s.onlyIf (s.lanePcs j)
    (let r := (s.count (Reg.INL_LANE_ERR j)).draw
     r.2.report 0x02 (0x0300 + r.1.toNat % 256) 0 none 0 j 0)

/-- PRBS_BIT_ERROR (R28): counted while the lane runs the PRBS-31 checker. -/
def execPrbsBitError (j : Nat) (s : State) : Res :=
  s.onlyIf (decide (j < 32) && s.bit Reg.INL_LANE_EN j && s.bit Reg.INL_CTRL 1) (s.count (Reg.INL_PRBS_ERR j))

/-- INL_LANE_EN takes a value: a cleared lane stops at once, without block lock (R432). -/
def State.setLaneEn (s : State) (v : Word) : State :=
  let s := s.wr Reg.INL_LANE_EN v
  (s.wr Reg.INL_LANE_LOCK (s.rd Reg.INL_LANE_LOCK &&& v)).wr Reg.INL_LANE_HIBER (s.rd Reg.INL_LANE_HIBER &&& v)

/-- INL_CTRL.enable at an instant (R432). -/
def State.inlEnabled (s : State) (t : Nat) : Bool :=
  match s.inlEn.find? (fun e => decide (e.1 ≤ t)) with
  | some e => e.2
  | none => false

/-- INL_CTRL takes a value: a new tick stream resets the stamp reference (R33), PRBS checking takes the lanes off the
PCS (R28), and the value of enable is kept with its instant (R432). -/
def State.setInlCtrl (s : State) (v : Word) : State :=
  let old := s.rd Reg.INL_CTRL
  let s := { s.wr Reg.INL_CTRL (v &&& 0xF3) with inlEn := (s.now, v.getLsbD 0) :: s.inlEn }
  let s := if bits old 7 4 ≠ bits v 7 4 then { s with cad := { s.cad with stampRef := none } } else s
  if v.getLsbD 1 then s.wr Reg.INL_LANE_LOCK 0 else s

/-- INL_CMD.resync of instance i (R42): its assembly slots are emptied and it has no current line. -/
def State.resyncInst (s : State) (i : Nat) : State :=
  s.modInst i (fun x => { x with segs := [], curLine := none, window := none, lastAdmitted := none, marks := [] })

/-- The counters of INL. -/
def inlCounters : List Nat :=
  (List.range 32).map Reg.INL_LANE_ERR ++ (List.range 32).map Reg.INL_PRBS_ERR
    ++ (List.range 16).flatMap (fun n => [Reg.INL_S_FRAMES n, Reg.INL_S_CRC n, Reg.INL_S_MALFORMED n, Reg.INL_S_LATE n,
      Reg.INL_S_AHEAD n, Reg.INL_S_DUP n, Reg.INL_S_UNMAPPED n])

/-- INL_CMD takes a value. -/
def State.inlCmd (s : State) (v : Word) : State :=
  let s := instNums.foldl (fun s i => if v.getLsbD (8 + i) then s.resyncInst i else s) s
  if v.getLsbD 0 then inlCounters.foldl (fun s a => s.wr a 0) s else s

/-! ### Framing (R29, R31 to R37) -/

/-- A frame that has passed the first step of R37. -/
structure Vlf where
  h0 : DWord
  h1 : DWord
  h2 : DWord
  payload : List DWord
  trailer : DWord
deriving DecidableEq, Repr

def Vlf.type (v : Vlf) : Nat := bits64 v.h0 59 56
def Vlf.stream (v : Vlf) : Nat := bits64 v.h0 55 52
def Vlf.sos (v : Vlf) : Bool := v.h0.getLsbD 51
def Vlf.tick (v : Vlf) : Bool := v.h0.getLsbD 50
def Vlf.segIndex (v : Vlf) : Nat := bits64 v.h0 47 40
def Vlf.segCount (v : Vlf) : Nat := bits64 v.h0 39 32 + 1
def Vlf.seq (v : Vlf) : Word := v.h0.extractLsb' 0 32
def Vlf.sheet (v : Vlf) : BitVec 24 := v.h1.extractLsb' 40 24
def Vlf.chans (v : Vlf) : Nat := bits64 v.h1 39 36 + 1
def Vlf.fmt (v : Vlf) : Nat := bits64 v.h1 35 32
def Vlf.stamp (v : Vlf) : Word := v.h1.extractLsb' 0 32
def Vlf.pixelOffset (v : Vlf) : Nat := bits64 v.h2 63 48
def Vlf.pixelCount (v : Vlf) : Nat := bits64 v.h2 47 32
def Vlf.payloadWords (v : Vlf) : Nat := bits64 v.h2 31 16

/-- The data words ahead of the first other block, and that block with what follows. -/
def takeData : List Block → List DWord × List Block
  | .data w :: bs => let r := takeData bs; (w :: r.1, r.2)
  | bs => ([], bs)

/-- The blocks of a frame without the ordered sets, which take no place in it (R29). -/
def frameBody (fr : Frame) : List DWord × List Block := takeData (fr.blocks.filter (· != .ordered))

/-- The start block's octets D1 to D7 (R31). -/
def startOctets : List Byte := [0x55, 0x55, 0x55, 0x55, 0x55, 0x55, 0xD6]

/-- The first step of R37: none is malformed. -/
def parseFrame (fr : Frame) : Option Vlf :=
  let b := frameBody fr
  match b.1 with
  | w0 :: w1 :: w2 :: ws =>
    if fr.octets = startOctets ∧ ws.length = bits64 w2 31 16 + 1 ∧ b.2.head? = some .term then
      some { h0 := w0, h1 := w1, h2 := w2, payload := ws.take (ws.length - 1), trailer := ws.getLastD 0 }
    else none
  | _ => none

/-- The stream that a malformed frame counts under: stream 0 without a data block. -/
def frameStream (fr : Frame) : Nat := match (frameBody fr).1 with | w :: _ => bits64 w 55 52 | [] => 0

/-- CRC-32 from header word 0 to the last payload word (R36). -/
def Vlf.crc (v : Vlf) : Word := crc32 (octets ([v.h0, v.h1, v.h2] ++ v.payload))

/-- Header checks that need no map entry (R37). -/
def Vlf.headerOk (v : Vlf) : Bool :=
  bits64 v.h0 63 60 == 1 && decide (v.type ≤ 1) && bits64 v.h0 49 48 == 0 && bits64 v.h2 15 0 == 0
    && bits64 v.trailer 63 32 == 0 && decide (v.segIndex < v.segCount)
    && (if v.type = 1 then v.pixelCount == 0 && v.payloadWords == 0
        else decide (1 ≤ v.fmt) && decide (v.fmt ≤ 5)
          && v.payloadWords == ceilDiv (v.pixelCount * v.chans * fmtWidth v.fmt) 64)

/-- Header checks of a line-data frame against its map entry (R37). -/
def Vlf.fits (v : Vlf) (m : MapEntry) : Bool :=
  decide (v.pixelOffset + v.pixelCount ≤ m.width) && v.segCount == m.segs && v.fmt == m.fmt && v.chans == m.chans

/-- An inlet event of INL_EVT with its notice, for a stream. -/
def State.inlEvent (s : State) (n stream : Nat) : State := (s.event Reg.INL_EVT n).report 0x02 n 0 none 0 stream 0

/-- A malformed frame of a stream. -/
def State.malformed (s : State) (stream : Nat) : State := (s.count (Reg.INL_S_MALFORMED stream)).inlEvent 2 stream

/-! ### Assembly (R38, R39, R43) -/

/-- What became of a frame in one instance. -/
inductive Fate where
  | held | late | ahead | dup
deriving DecidableEq, Repr

/-- Same segment of the same line (R38). -/
def Seg.same (a b : Seg) : Bool := a.line == b.line && a.entry == b.entry && a.segIndex == b.segIndex

/-- Is line l one of `w` and the three lines after it? -/
def inSpan (w l : Word) : Bool := decide ((l - w).toNat ≤ 3)

/-- Hold a segment, or find that it is a second copy. -/
def Inst.hold (x : Inst) (g : Seg) : Inst × Fate × List Seg :=
  if x.segs.any (fun h => h.same g) then (x, .dup, []) else ({ x with segs := x.segs ++ [g] }, .held, [])

/-- A segment reaches an instance: its slot, what became of it, and the segments that a window moving back empties. -/
def Inst.receive (x : Inst) (g : Seg) : Inst × Fate × List Seg :=
  match (if x.st = .freewheel then none else x.curLine) with
  | some c =>
    if inSpan c g.line then x.hold g
    else if isAfter g.line c then (x, .ahead, [])
    else (x, .late, [])
  | none =>
    if (match x.lastAdmitted with | some a => !isAfter g.line a | none => false) then (x, .late, [])
    else
      match x.window with
      | none => { x with window := some g.line }.hold g
      | some w =>
        if inSpan w g.line then x.hold g
        else if isAfter w g.line then
          let y := { x with window := some g.line, segs := x.segs.filter (fun h => inSpan g.line h.line) }
          let r := y.hold g
          (r.1, r.2.1, x.segs.filter (fun h => !inSpan g.line h.line))
        else (x, .ahead, [])

/-- Edges from the inlet. -/
def Inst.inletEdges (x : Inst) : List EdgeDesc := (x.stageDescs.flatMap (fun d => d.edges)).filter (fun e => e.producer == 0)

/-- Sample of pixel `px` and channel `ch` of a segment: samples run from bit 63 of the first payload word downwards. -/
def Seg.sample (g : Seg) (w chans px ch : Nat) : Nat :=
  (beNat (octets g.payload) >>> (64 * g.payload.length - w * (px * chans + ch + 1))) % 2 ^ w

/-- Where an entry's row stands: does it cover composite pixel px and channel ch? -/
def MapEntry.covers (m : MapEntry) (px ch : Nat) : Bool :=
  decide (m.placement ≤ px) && decide (px < m.placement + m.width) && decide (m.base ≤ ch) && decide (ch < m.base + m.chans)

/-! ### The line buffers of the inlet edges (R250) -/

/-- Map entries of a role routed to instance i: role 0 camera, 1 raster. -/
def State.roleEntries (s : State) (i : Nat) (camera : Bool) : List Nat :=
  (s.routed i).filter (fun k => (s.mapEntry k).role == (if camera then 0 else 1))

/-- Pixels and channels of the composite line of some entries. -/
def State.extent (s : State) (ks : List Nat) : Nat × Nat :=
  ks.foldl (fun a k => let m := s.mapEntry k; (max a.1 (m.placement + m.width), max a.2 (m.base + m.chans))) (0, 1)

/-- Format of the composite line of some entries. -/
def State.lineFmt (s : State) (ks : List Nat) : Nat := match ks with | k :: _ => (s.mapEntry k).fmt | [] => 1

/-- Bytes of the composite line of some entries. -/
def State.lineBytes (s : State) (ks : List Nat) : Nat :=
  let e := s.extent ks
  ceilDiv (e.1 * e.2 * fmtStored (s.lineFmt ks)) 8

/-- The stage that reads inlet edge e of instance i. -/
def State.edgeStage (s : State) (i : Nat) (e : EdgeDesc) : Option StageDesc := (s.edgeOf i e.queue).map (·.1)

/-- The 64-byte unit at which the row of a line stands in the line buffer of an inlet edge: one of `rows` places, which R74 and
R250 leave open. -/
def State.lineUnit (s : State) (i : Nat) (e : EdgeDesc) (line : Word) : Nat :=
  unitIn (s.windowSize i e.window) e.base (s.lineBytes (s.roleEntries i e.camera)) (Config.rowUnit e.queue (line.toNat % max e.rows 1))

/-- Store elements of a line in the line buffer of an inlet edge, at the row of the line (R250). -/
def State.storeLine (s : State) (i : Nat) (e : EdgeDesc) (line : Word) (es : List (Nat × Nat)) : State :=
  let ks := s.roleEntries i e.camera
  s.putElems (s.rowOut i (s.edgeStage i e) e.window (s.lineUnit i e line) (s.lineBytes ks)) (fmtStored (s.lineFmt ks)) es

/-- The elements of a segment in the composite line: index and code. -/
def State.segElems (s : State) (g : Seg) (chans : Nat) : List (Nat × Nat) :=
  let m := s.mapEntry g.entry
  (List.range (g.pixelCount * m.chans)).map (fun j =>
    ((m.placement + g.pixelOffset + j / m.chans) * chans + m.base + j % m.chans,
      g.sample (fmtWidth m.fmt) m.chans (j / m.chans) (j % m.chans)))

/-- The inlet writes a segment's payload into the line buffer of every inlet edge of instance i that takes its role (R250). -/
def State.storeSeg (s : State) (i : Nat) (g : Seg) : State :=
  ((s.inst i).inletEdges.filter (fun e => (s.mapEntry g.entry).role == (if e.camera then 0 else 1))).foldl (fun s e =>
    s.storeLine i e g.line (s.segElems g (s.extent (s.roleEntries i e.camera)).2)) s

/-- Is the inlet route of the instance open (R297)? -/
def Inst.receives (x : Inst) : Bool := x.live || (x.st == .held && decide (1 ≤ x.relStep))

/-- A segment reaches the instances that its entry routes to; the fates, and the segments emptied. -/
def State.deliverSeg (s : State) (m : MapEntry) (g : Seg) : State × List Fate × List Seg :=
  (instNums.filter (fun i => hasBit m.insts i && (s.inst i).receives)).foldl (fun (a : State × List Fate × List Seg) i =>
    let x := a.1.inst i
    let r := x.receive g
    let t := a.1.setInst i r.1
    let t := if r.2.1 = .held then t.storeSeg i g else t
    let t := if x.curLine = some g.line ∧ x.st ≠ .freewheel then t.wr (Reg.INL_I_EMPTY i) 0 else t
    (t, r.2.1 :: a.2.1, a.2.2 ++ r.2.2.filter (fun h => !a.2.2.any (fun k => k.same h)))) (s, [], [])

/-- Late, ahead and duplicate counts of a frame: once each, whatever the number of instances (R39). -/
def State.countFates (s : State) (stream : Nat) (fs : List Fate) (emptied : List Seg) : State :=
  let s := if fs.contains .late then (s.count (Reg.INL_S_LATE stream)).inlEvent 3 stream else s
  let s := if fs.contains .ahead then (s.count (Reg.INL_S_AHEAD stream)).inlEvent 4 stream else s
  let s := if fs.contains .dup then (s.count (Reg.INL_S_DUP stream)).inlEvent 5 stream else s
  emptied.foldl (fun s g => (s.count (Reg.INL_S_AHEAD g.stream)).inlEvent 4 g.stream) s

/-- INL_S_FRAMES and INL_S_LAST_SEQ (R38). -/
def State.goodFrame (s : State) (v : Vlf) : State :=
  (s.count (Reg.INL_S_FRAMES v.stream)).wr (Reg.INL_S_LAST_SEQ v.stream) v.seq

/-! ### Ticks and marks from frames (R8, R13, R33, R38) -/

/-- The stamp of a TICK frame on the tick stream, compared with the one before it (R33). -/
def State.checkStamp (s : State) (v : Vlf) : State :=
  let jump := match s.cad.stampRef with | some r => v.stamp != r + 1 | none => false
  let s := { s with cad := { s.cad with stampRef := some v.stamp } }
  if jump then s.inlEvent 7 v.stream else s

/-- A frame that R37 accepts at instant t on the tick stream with TICK set: a framing tick falls due 40 ns later (R8). -/
def State.frameTick (s : State) (v : Vlf) (t : Nat) : State :=
  if v.tick && v.stream == s.fld Reg.INL_CTRL 7 4 && s.cad.tickSrc == 2 then
    let s := s.checkStamp v
    { s with cad := { s.cad with due := s.cad.due ++ [{ at_ := t + 40, src := 2, mark := false }] } }
  else s

/-- A tick-only frame of the tick stream gives its line's mark and sheet number to each instance that receives (R38). -/
def State.tickOnly (s : State) (v : Vlf) : State :=
  if v.stream = s.fld Reg.INL_CTRL 7 4 then
    instNums.foldl (fun s i =>
      if (s.inst i).receives then
        let l := s.tickLine i v.stream v.seq
        let x := s.inst i
        let old := match (if x.st = .freewheel then x.window else x.curLine) with
          | some c => c != l && !isAfter l c
          | none => false
        if old then s else s.setInst i { x with marks := x.marks ++ [(l, v.sos, v.sheet)] }
      else s) s
  else s

/-- A frame that the first step of R37 passes and whose CRC has checked good at instant t. -/
def State.takeFrame (s : State) (v : Vlf) (t : Nat) : State :=
  if !v.headerOk then s.malformed v.stream
  else if v.type = 1 then ((s.goodFrame v).frameTick v t).tickOnly v
  else
    match s.mapFor v.stream with
    | none => ((s.frameTick v t).count (Reg.INL_S_UNMAPPED v.stream)).inlEvent 6 v.stream
    | some k =>
      let m := s.mapEntry k
      if !v.fits m then s.malformed v.stream
      else
        let s := (s.goodFrame v).frameTick v t
        let g : Seg := { line := v.seq + m.off, entry := k, segIndex := v.segIndex, pixelOffset := v.pixelOffset
                         pixelCount := v.pixelCount, sheet := v.sheet, sos := v.sos, stream := v.stream, payload := v.payload }
        let r := s.deliverSeg m g
        r.1.countFates v.stream r.2.1 r.2.2

/-- The tick that is due now: the earliest of those whose instant has come, the generator's among them. -/
def Cadence.dueNow (c : Cadence) (now : Nat) : Option DueTick :=
  let g : DueTick := { at_ := c.genStart + c.genPeriod, src := 1, mark := false }
  let ds := (c.due ++ (if c.tickSrc = 1 then [g] else [])).filter (fun d => decide (d.at_ ≤ now))
  ds.foldl (fun (b : Option DueTick) d => match b with | some x => if d.at_ < x.at_ then some d else b | none => some d) none

/-- A tick that will be delivered is due at or before instant t, and has not been delivered. -/
def State.tickOpen (s : State) (t : Nat) : Bool :=
  s.bit Reg.CAD_CTRL 0 && (match s.cad.dueNow t with
    | some d => if d.src = 3 then true else d.src == s.cad.tickSrc.toNat && !s.follower
    | none => false)

/-- A frame checks at instant t. It belongs to the line of a tick only when it checks before the tick's cycle (R40): where a
tick is due at or before t and has not been delivered, the frame arrives after that tick. -/
def State.arriveFrame (s : State) (v : Vlf) (t : Nat) : State :=
  if s.tickOpen t || !s.cad.frames.isEmpty then
    let ws := [v.h0, v.h1, v.h2] ++ v.payload ++ [v.trailer]
    { s with cad := { s.cad with frames := s.cad.frames ++ [{ words := ws, at_ := t }] } }
  else s.takeFrame v t

/-- The frame of a held frame's words. -/
def HeldFrame.vlf (h : HeldFrame) : Vlf :=
  { h0 := h.words.getD 0 0, h1 := h.words.getD 1 0, h2 := h.words.getD 2 0
    payload := (h.words.drop 3).take (h.words.length - 4), trailer := h.words.getLastD 0 }

/-- The held frames are taken, oldest first, up to the first that a further open tick precedes; `n` bounds their count. -/
def State.takeHeldFrames (s : State) : Nat → State
  | 0 => s
  | n + 1 =>
    match s.cad.frames with
    | [] => s
    | h :: hs =>
      if s.tickOpen h.at_ then s
      else State.takeHeldFrames ({ s with cad := { s.cad with frames := hs } }.takeFrame h.vlf h.at_) n

/-- Was the lane of a frame in block lock from its start block on (R432)? -/
def State.lockedSince (s : State) (j t : Nat) : Bool := decide (SMap.get 0 s.lockAt j ≤ t)

/-- VLF_FRAME (R37): a received frame is judged, matched and held. INL_CTRL.enable is judged at its start block, and a lane
receives no frame before the first start block after it gains lock (R432). -/
def execVlfFrame (fr : Frame) (t : Nat) (s : State) : Res :=
  let s := s.at_ t
  if !s.inlEnabled fr.start || !s.laneUp fr.lane || !s.lockedSince fr.lane fr.start then .next s
  else
    match parseFrame fr with
    | none => .next (s.malformed (frameStream fr))
    | some v =>
      if v.crc.toNat ≠ bits64 v.trailer 31 0 then .next ((s.count (Reg.INL_S_CRC v.stream)).inlEvent 1 v.stream)
      else .next (s.arriveFrame v s.now)

/-! ### The line that a tick closes (R23, R35, R74, R250) -/

/-- The segments that instance x holds of a line. -/
def Inst.lineSegs (x : Inst) (l : Word) : List Seg := x.segs.filter (fun g => g.line == l)

/-- Has every segment of entry k arrived? -/
def State.entryFull (s : State) (gs : List Seg) (k : Nat) : Bool := (gs.filter (fun g => g.entry == k)).length == (s.mapEntry k).segs

/-- Has every segment of every entry routed to the instance arrived? -/
def State.lineFull (s : State) (i : Nat) (gs : List Seg) : Bool := !gs.isEmpty && (s.routed i).all (s.entryFull gs)

/-- Pad value by INL_I_PAD: zero, the constant, or the previous line's pixel, which is open where there is none. -/
def padSample (rule const w : Nat) (prev : Option Nat) (free : Nat) : Nat :=
  if rule = 1 then const % 2 ^ w else if rule = 2 then prev.getD (free % 2 ^ w) else 0

/-- The row of entry k in a line, padded where segments are missing. A pixel that no segment of a complete entry covers
is open. -/
def State.entryRow (s : State) (i k : Nat) (gs : List Seg) : List Nat × State :=
  let m := s.mapEntry k
  let w := fmtWidth m.fmt
  let mine := gs.filter (fun g => g.entry == k)
  let full := s.entryFull gs k
  let prev := ((s.inst i).inletRows.find? (fun r => r.entry == k)).map (·.samples)
  let pad := s.rd (Reg.INL_I_PAD i)
  let xs := (List.range (m.width * m.chans)).map (fun j =>
    let free := (Config.freeValue (s.free + j)).toNat
    match mine.find? (fun g => decide (g.pixelOffset ≤ j / m.chans) && decide (j / m.chans < g.pixelOffset + g.pixelCount)) with
    | some g => g.sample w m.chans (j / m.chans - g.pixelOffset) (j % m.chans)
    | none => if full then free % 2 ^ w else padSample (bits pad 1 0) (bits pad 27 16) w (prev.bind (fun p => p[j]?)) free)
  (xs, { s with free := s.free + m.width * m.chans })

/-- The rows of every entry routed to instance i. -/
def State.lineRows (s : State) (i : Nat) (line : Word) (gs : List Seg) : List InletRow × State :=
  (s.routed i).foldl (fun a k =>
    let r := a.2.entryRow i k gs
    (a.1 ++ [{ entry := k, line := line, samples := r.1 }], r.2)) ([], s)

/-- The elements of a line that no segment has supplied, as the closing tick writes them: padded samples (R23), and open ones
where no entry stands. -/
def State.lineRest (s : State) (ks : List Nat) (rows : List InletRow) (gs : List Seg) : List (Nat × Nat) × State :=
  let e := s.extent ks
  let xs := (List.range (e.1 * e.2)).filterMap (fun j =>
    match rows.find? (fun r => ks.contains r.entry && (s.mapEntry r.entry).covers (j / e.2) (j % e.2)) with
    | some r =>
      let m := s.mapEntry r.entry
      let px := j / e.2 - m.placement
      if gs.any (fun g => g.entry == r.entry && decide (g.pixelOffset ≤ px) && decide (px < g.pixelOffset + g.pixelCount)) then none
      else some (j, r.samples.getD (px * m.chans + (j % e.2 - m.base)) 0)
    | none => some (j, (Config.freeValue (s.free + j)).toNat % 2 ^ fmtWidth (s.lineFmt ks)))
  (xs, { s with free := s.free + e.1 * e.2 })

/-- A line goes out on one inlet edge: the samples that no segment has brought are written, and the tokens follow, SHEET when
it opens a sheet, then the data token (R160, R250). -/
def State.sendEdge (s : State) (i : Nat) (e : EdgeDesc) (rows : List InletRow) (line : Word) (flags : Byte) (gs : List Seg)
    (sheet : Option (BitVec 24)) : State :=
  match s.localQueue i e.queue with
  | none => s
  | some q =>
    let ks := s.roleEntries i e.camera
    let x := s.extent ks
    let c := s.lineRest ks rows gs
    let s := c.2.storeLine i e line c.1
    let s := match sheet with
      | some n => s.pushDrop q (controlToken 0 0 line codeSheet (n.setWidth 32) s.now)
      | none => s
    s.pushDrop q (dataToken 0 (BitVec.ofNat 5 (s.lineFmt ks)) 0x7F flags false x.2 line 0 x.1 e.window (s.lineUnit i e line) s.now)

/-- The inlet admits a line of instance i with its flags: its tokens go out on every inlet edge, and its result slot is
marked invalid (R250, R270). -/
def State.admitLine (s : State) (i : Nat) (line : Word) (flags : Byte) (gs : List Seg) (sheet : Option (BitVec 24)) : State :=
  let r := s.lineRows i line gs
  let s := (s.inst i).inletEdges.foldl (fun s e => s.sendEdge i e r.1 line flags gs sheet) r.2
  (s.modInst i (fun x => { x with inletRows := r.1 })).clearSlot i line

end Sys2Proof.Machine
end

