-- ==== Sys2Proof/Machine/Mount.lean ====
section
/-! DEFINITION. Superblocks, map objects and the mount: what a superblock and a map carry, and how the store's tables are
read back from the flash (R316 to R319, R322, R353). -/

namespace Sys2Proof.Machine

/-! ### Superblocks and maps (R316, R317, R322) -/

/-- Entry of partition p in the superblock (R317). -/
def State.partEntry (s : State) (p : Nat) : List Byte :=
  let c := s.rd (Reg.STO_P_CFG p)
  [BitVec.ofNat 8 (bits c 27 24), BitVec.ofNat 8 (if p = 0 then 0 else if p = 1 then 1 else 2)]
    ++ leBytes 2 (bits c 23 23) ++ leBytes 4 (bits c 15 0) ++ List.replicate 8 0

/-- The superblock payload (R317) of the map object `m` whose first page is `addr`. -/
def State.superPayload (s : State) (m : MapObj) (addr : Nat) : List Byte :=
  let y := s.store
  leBytes 2 1 ++ leBytes 2 0 ++ leBytes 4 (y.generation + 1) ++ leBytes 4 (s.rd Reg.STO_TARGETS).toNat
    ++ leBytes 2 s.geo.pages ++ leBytes 2 s.geo.blocks ++ leBytes 1 s.geo.luns ++ List.replicate 15 (0 : Byte)
    ++ leBytes 4 addr ++ leBytes 8 m.seq ++ leBytes 4 m.jaddr ++ leBytes 8 m.next ++ leBytes 8 y.formatId.toNat
    ++ (List.range 16).flatMap s.partEntry

/-- Write a new superblock on the copy that did not take the previous one, or on the other where that one has no good
block (R316). It points to the map object of transaction n. -/
def State.writeSuper (s : State) (n : Nat) : State :=
  match SMap.find s.store.maps n, s.txn n with
  | some m, some t =>
    let copy := s.store.generation % 2
    match (match s.superPlace copy with | some p => some p | none => s.superPlace (1 - copy)) with
    | none => s
    | some (a, erase) =>
      let b := blockOf a
      let p : Page := { kind := 1, part := 0, seq := s.store.seq, txn := 0, index := a % 4096
                        payload := s.superPayload m (t.pages.headD 0), erases := (s.blk b).erases + (if erase then 1 else 0) }
      (s.setBlk b { s.blk b with st := 1 }).modStore (fun y =>
        { y with generation := y.generation + 1, seq := y.seq + 1
                 erasing := if erase then insKey b y.erasing else y.erasing
                 todo := y.todo ++ [{ addr := a, page := p }] })
  | _, _ => s

/-- A map object is on its way: its transaction is not yet on the medium, or the superblock that points to it is not. -/
def State.mapInHand (s : State) : Bool :=
  s.store.txns.any (fun t => t.isMap && decide (t.phase < 2)) || s.store.todo.any (fun j => j.page.kind == 1)

/-- What a map keeps of a transaction: all but its bytes. One whose COMMIT is journalled is committed by then. -/
def Txn.inMap (t : Txn) : Txn :=
  { t with payload := [], records := [], onMedium := t.bytes.length, phase := if t.journalled then 2 else t.phase }

/-- A new map object (R322); the superblock follows its COMMIT. It covers every journal page so far; transactions begun
and not committed are in it too, so that a COMMIT after it finds their pages. The manual gives what the map holds but not its layout: its
bytes are open, and the model takes 4 for each page address, 32 for each transaction and 16 for each block and partition. DESIGN CHOICE (log entry 73). -/
def State.writeMap (s : State) : State :=
  if s.mapInHand then s
  else
    let s := s.flushJournal.openJournal
    let ts := s.store.txns.filter (fun t => decide (t.phase ≤ 2))
    let m : MapObj :=
      { txns := ts.map Txn.inMap, blocks := s.store.blocks, seq := s.store.seq - 1, next := s.store.nextTxn
        jaddr := match s.store.jopen with | some (a, _) => 4096 * blockOf a | none => 0 }
    let r := s.openBytes (256 + 32 * ts.length + 4 * (ts.map (fun t => t.pages.length + t.recPages.length)).sum + 16 * m.blocks.length)
    let n := r.2.store.nextTxn
    let s := r.2.modStore (fun y => { y with maps := SMap.put n m y.maps, jpages := 0 })
    (s.writeSystem 1 r.1).2

/-- A superblock is on the medium: its map is the newest. Older map objects are superseded, and the journal up to that map
is no longer needed. -/
def State.superDone (s : State) (p : Page) : State :=
  let a := leField p.payload 0x20 4
  let jb := blockOf (leField p.payload 0x2C 4)
  let s := s.modStore (fun y => { y with mapSeq := leField p.payload 0x24 8, jchain := y.jchain.dropWhile (fun q => q.1 != jb) })
  let old := s.store.txns.filter (fun t => t.isMap && t.phase == 2 && t.pages.head? != some a)
  let s := old.foldl (fun s t => (s.releaseTxn t 2).modStore (fun y => { y with maps := SMap.del t.num y.maps })) s
  s.flushJournal

/-- A map object with a page in a block that is to be erased or has gone bad is replaced by a new one. -/
def State.mapCare (s : State) : State :=
  let leaving (b : Nat) : Bool := s.store.erasing.contains b || (s.blk b).st == 2
  if s.storeOpen ∧ s.store.txns.any (fun t => t.isMap && t.phase == 2 && t.pages.any (fun a => leaving (blockOf a))) then s.writeMap else s

/-- What the store looks after when the medium has changed: pages that wait for room, journal programs in a block that has
gone bad, entries that wait, the map object, wear, and the registers that show the medium. A store that has become read-only refuses what it
has not committed. -/
def State.upkeep (s : State) : State :=
  let s := s.placeWaiting.placeRest
  let s := match s.store.todo.find? (fun j => j.page.kind == 2 && (s.blk (blockOf j.addr)).st == 2) with
    | some j => (match s.moveJournal (blockOf j.addr) with | some (_, s) => s | none => s)
    | none => s
  let s := s.flushJournal.mapCare
  let s := if s.store.st = 3 then s.refuseAll else if s.storeOpen then s.wearLevel else s
  s.storeRegs

/-! ### Reading the flash back (R316, R318, R319, R322) -/

/-- A page of the flash as a mount reads it: none where it is unprogrammed, or unreadable. -/
def State.mountPage (s : State) (bad : List Nat) (kind a : Nat) : Option Page :=
  if bad.contains a then none
  else match SMap.find s.store.pages a with
    | some p => if p.kind = kind then some p else none
    | none => none

/-- The superblock that stands: the valid one with the highest generation. -/
def State.superOf (s : State) (bad : List Nat) : Option Page :=
  (s.store.pages.filterMap (fun q => s.mountPage bad 1 q.1)).foldl (fun best p =>
    match best with
    | some b => if leField b.payload 4 4 < leField p.payload 4 4 then some p else best
    | none => some p) none

/-- The map object that a superblock points to: none where one of its pages cannot be read. -/
def State.mapOf (s : State) (bad : List Nat) (p : Page) : Option MapObj :=
  match s.mountPage bad 3 (leField p.payload 0x20 4) with
  | none => none
  | some q =>
    if s.store.pages.any (fun x => x.2.kind == 3 && x.2.txn == q.txn && (s.mountPage bad 3 x.1).isNone) then none
    else SMap.find s.store.maps q.txn

/-- What a replay gathers: the transactions and blocks, the next transaction number, invalid entries, pages replayed, and
where it ended in the last journal block and its copy. -/
structure Replay where
  txns : List Txn
  blocks : SMap BlockInfo
  next : Nat
  invalid : Nat := 0
  pages : Nat := 0
  stop : Option (Nat × Nat) := none

/-- The page addresses of an entry's body, from byte `off`. -/
def JEntry.addrs (e : JEntry) (off : Nat) : List Nat := (List.range e.count).map (fun k => leField e.body (off + 4 * k) 4)

/-- Blocks that hold the pages at these addresses are in use. -/
def Replay.use (x : Replay) (as : List Nat) : Replay :=
  { x with blocks := as.foldl (fun m a =>
      let b := SMap.get {} m (blockOf a)
      if b.st = 0 then SMap.set {} (blockOf a) { b with st := 1 } m else m) x.blocks }

/-- Change the transaction that an entry names. -/
def Replay.modTxn (x : Replay) (n : Nat) (g : Txn → Txn) : Replay :=
  { x with txns := x.txns.map (fun t => if t.num = n then g t else t) }

/-- A page has moved. -/
def Replay.move (x : Replay) (a b : Nat) : Replay :=
  let sub (l : List Nat) : List Nat := l.map (fun y => if y = a then b else y)
  { x with txns := x.txns.map (fun t => { t with pages := sub t.pages, recPages := sub t.recPages, badPages := sub t.badPages }) }

/-- Replay one valid entry (R319, R320). DEDUCED: a RELEASE with reason trim covers its partition up to its number, and one
for another reason its transaction alone (log entry 73). -/
def Replay.entry (all : List Nat) (x : Replay) (e : JEntry) : Replay :=
  match e.type with
  | 1 =>
    let t : Txn := { num := e.txn, kind := leField e.body 0 4, part := e.part, inst := e.inst, payload := [], pages := e.addrs 8
                     begun := true }
    Replay.use { x with next := max x.next (e.txn + 1), txns := x.txns ++ [t] } (e.addrs 8)
  | 2 => (x.modTxn e.txn (fun t => { t with pages := t.pages ++ e.addrs 0 })).use (e.addrs 0)
  | 3 => x.modTxn e.txn (fun t => if 2 ≤ t.phase then t else
      { t with phase := 2, journalled := true, onMedium := leField e.body 0 8, sheet := leField e.body 12 4
               index := leField e.body 16 4, status := leField e.body 20 1 })
  | 4 => x.modTxn e.txn (fun t => if t.phase < 2 then { t with phase := 3 } else t)
  | 5 =>
    let n := leField e.body 0 8
    if leField e.body 8 1 = 0 then
      { x with txns := x.txns.map (fun t => if t.part = e.part ∧ t.phase = 2 ∧ t.num ≤ n then { t with phase := 4 } else t) }
    else x.modTxn n (fun t => if t.phase = 2 then { t with phase := 4 } else t)
  | 6 => ((List.range (e.count / 2)).foldl (fun x k => x.move (leField e.body (8 * k) 4) (leField e.body (8 * k + 4) 4)) x).use
      ((List.range (e.count / 2)).map (fun k => leField e.body (8 * k + 4) 4))
  | 7 => { x with blocks := SMap.set {} (blockOf (leField e.body 0 4)) { erases := leField e.body 4 4, reads := 0, st := 0 } x.blocks }
  | 8 => { x with blocks := spareFor all (blockOf (leField e.body 0 4)) x.blocks }
  | _ => x

/-- The 64-byte entries of a journal page that are in use, each with what it holds where it is valid. -/
def Page.entries (p : Page) : List (Option JEntry) :=
  ((List.range (p.payload.length / 64)).map (fun k => (p.payload.drop (64 * k)).take 64)).filterMap (fun bs =>
    if bs.all (· == 0) then none else some (parseEntry bs))

/-- Replay a journal page: invalid entries are skipped and counted. -/
def Replay.page (all : List Nat) (x : Replay) (p : Page) : Replay :=
  p.entries.foldl (fun x e => match e with | some e => x.entry all e | none => { x with invalid := x.invalid + 1 })
    { x with pages := x.pages + 1 }

/-- The journal block that a page's JNEXT names. -/
def Page.jnext (p : Page) : Option Nat :=
  (p.entries.filterMap id).findSome? (fun e => if e.type = 9 then some (blockOf (leField e.body 0 4)) else none)

/-- Replay the journal from page `k` of the first block of a chain, following JNEXT; of the two copies of a page the first
that can be read stands. The replay ends at the first page that can be read in neither. -/
def State.replay (s : State) (bad : List Nat) (seq : Nat) : Nat → List (Nat × Nat × Nat) → Nat → Replay → Replay
  | 0, _, _, x => x
  | _ + 1, [], _, x => x
  | n + 1, (j, b, c) :: rest, k, x =>
    match (match s.mountPage bad 2 (4096 * b + k) with | some p => some p | none => s.mountPage bad 2 (4096 * c + k)) with
    | none => { x with stop := some (4096 * b + k, 4096 * c + k) }
    | some p =>
      let x : Replay := if seq < p.seq then x.page s.allBlocks p else x
      match p.jnext with
      | some q => s.replay bad seq n (rest.dropWhile (fun r => r.1 != q)) 0 (x.use [4096 * b, 4096 * c])
      | none => s.replay bad seq n ((j, b, c) :: rest) (k + 1) (x.use [4096 * b, 4096 * c])

/-- The pages of a payload of `n` bytes, out of a transaction's pages in the order of their indices. -/
def takePages : List (Nat × List Byte) → Nat → List (Nat × List Byte)
  | [], _ => []
  | (a, bs) :: ps, n => if n = 0 then [] else (a, bs) :: takePages ps (n - bs.length)

/-- A committed transaction as the flash holds it: its pages in the order of their indices, and its payload (R314, R320). -/
def State.readBack (s : State) (t : Txn) : Txn :=
  let found := (t.pages ++ t.recPages).filterMap (fun a => (SMap.find s.store.pages a).map (fun p => (p.index, a, p.payload)))
  let ps := takePages ((found.foldl (fun (m : SMap (Nat × List Byte)) q => SMap.put q.1 q.2 m) []).map (·.2)) t.onMedium
  { t with payload := (ps.flatMap (·.2)).take t.onMedium, pages := ps.map (·.1), records := [], recPages := [], placed := 0 }

/-- The entries of a fence list object: kind, unit, cause, transients, uptime and remap (R353). -/
def fenceParse (bs : List Byte) : List (Nat × Nat × Nat × Nat × Nat × Nat) :=
  (List.range (leField bs 0 4)).map (fun n =>
    let o := 16 + 16 * n
    (leField bs o 1, leField bs (o + 2) 2, leField bs (o + 1) 1, leField bs (o + 4) 2, leField bs (o + 8) 4, leField bs (o + 12) 4))

/-- The store's tables as a mount reads them from the flash, with the invalid entries; none where no superblock or no map
can be read. A transaction without COMMIT is discarded (R322). -/
def State.rebuild (s : State) (bad : List Nat) : Option (Store × Nat) :=
  match s.superOf bad with
  | none => none
  | some p =>
    match s.mapOf bad p with
    | none => none
    | some m =>
      let y := s.store
      let seq := leField p.payload 0x24 8
      let chain := y.jchain.dropWhile (fun q => q.1 != blockOf (leField p.payload 0x2C 4))
      let x := s.replay bad seq (y.pages.length + 1) chain 0 { txns := m.txns, blocks := m.blocks, next := m.next }
      let ts := (x.txns.filter (fun t => t.phase == 2)).map s.readBack
      let fence := (ts.filter (fun t => t.isObject 2 && !t.pages.any bad.contains)).getLast?
      let free (q : Nat × Nat) : Bool := decide (q.1 % 4096 < s.geo.pages) && (SMap.find y.pages q.1).isNone
        && (SMap.find y.pages q.2).isNone
      some ({ y with txns := ts, blocks := x.blocks, nextTxn := x.next, jpages := x.pages, mapSeq := seq, jchain := chain
                     seq := y.pages.foldl (fun n q => max n (q.2.seq + 1)) 0
                     generation := leField p.payload 4 4, formatId := BitVec.ofNat 64 (leField p.payload 0x38 8)
                     jopen := match x.stop with | some q => if free q then some q else none | none => none
                     fences := match fence with | some t => fenceParse (t.payload.drop 4) | none => []
                     fenceGen := match fence with | some t => leField t.payload 8 4 | none => 0
                     jbuf := [], opens := [], todo := [], unplaced := [], erasing := [], halving := [], closing := none }, x.invalid)

/-- The mount is done (R322): absent, unformatted, read-only or ready. Invalid entries count in
STO_UE; a mount that replayed more than 64 journal pages writes a new map, and so does one whose journal ended at a page that
cannot be programmed. Host commands of an earlier mount end. -/
def State.mounted (s : State) : State :=
  let bad := s.store.unread
  let s := (s.store.jobs.filter (fun j => j.op == 2 || j.op == 5)).foldl (fun s j => s.stoComplete j.fn j.tag 5 0 j.txn) s
  let s := s.modStore (fun y => { y with jobs := [], initing := false, unread := [] })
  if s.targets.isEmpty then s.modStore (fun y => { y with st := 0 })
  else
    match s.rebuild bad with
    | none => s.modStore (fun y => { y with st := 5 })
    | some (y, invalid) =>
      let s := ((s.setStore y).countBy Reg.STO_UE invalid).wr64 Reg.STO_TXN_LO Reg.STO_TXN_HI y.nextTxn
      let s := s.modStore (fun z => { z with st := if s.countBlocks 3 = 0 then 3 else 2 })
      let s := (List.range 16).foldl (fun s p => s.partUsed p) s
      let s := if s.storeOpen ∧ (64 < s.store.jpages ∨ s.store.jopen.isNone) then s.writeMap else s
      s.storeRegs.event Reg.STO_EVT 0

end Sys2Proof.Machine
end

