-- ==== Sys2Proof/Machine/Store.lean ====
section
/-! DEFINITION. The record store at work: page programs, erases and reads, the background scan, mount, close, the host's
store commands, the hold-up commit, and the device fault (R309, R320 to R331, R334 to R336, R355). -/

namespace Sys2Proof.Machine

/-! ### Closing (R330, R334) -/

/-- A data page of a transaction or of a relocation is still to be programmed. -/
def State.dataLeft (s : State) : Bool := s.store.jobsLeft.any (fun j => j.page.kind == 3)

/-- Whole transactions whose COMMIT is not journalled. -/
def State.uncommitted (s : State) : List Nat := (s.store.txns.filter (fun t => t.phase == 1 && !t.journalled)).map (·.num)

/-- Once every data page is programmed, a closing store journals the COMMITs and CLOSE together. -/
def State.closeStep (s : State) : State :=
  match s.store.closing with
  | none => s
  | some c =>
    if s.dataLeft then s
    else
      let s := s.flushJournal
      let s := s.uncommitted.foldl State.journalCommit s
      let s := s.journal (JEntry.plain 10 0 [BitVec.ofNat 8 c])
      s.flushJournal.modStore (fun y => { y with closing := none })

/-- Close a ready store: open edition transactions become orphans, and everything whole is committed (R330, R334). A
store that is mounting or read-only closes as it is. -/
def State.closeStore (s : State) (cause : Nat) : State :=
  if s.store.st = 3 ∨ s.store.st = 1 then s.modStore (fun y => { y with st := 4 })
  else if s.store.st ≠ 2 then s
  else
    let s := s.modStore (fun y => { y with st := 4, closing := some cause })
    let open_ := s.store.txns.filter (fun t => t.phase == 0)
    let s := open_.foldl (fun s t => (s.modTxn t.num (fun u => { u with status := 1 })).standWhole t.num) s
    s.flushJournal.closeStep

/-! ### Leaving a pair (R366, R371, R374) -/

/-- The pair ends and this device goes to state `st`: comparisons that wait end as solo, and tandem tests are dropped. -/
def State.endPair (s : State) (st : Nat) : State :=
  let ws := s.tdm.waiting
  let s := { s with tdm := { s.tdm with st := st, waiting := [], partner := [], unacked := [], tests := [], verdictMine := []
                                        verdictTheirs := [], faults := [], theirs := [] } }
  let s := ws.foldl (fun s w => s.resolve w.1 .agree) s
  instNums.foldl (fun s i => s.setFld (Reg.TDM_I_STAT i) 31 31 0) s

/-- A paired device leaves: LEAVE with its cause, and state out. -/
def State.leavePair (s : State) (cause : Nat) : State :=
  if s.tdm.st = 2 then ((s.tdmPost [9, BitVec.ofNat 8 cause]).endPair 4).event Reg.TDM_EVT 2 else s

/-! ### The device fault (R6, R355) -/

/-- Every instance is parked at its kickstand. -/
def State.parkAll (s : State) : State := instNums.foldl (fun s i => s.kick i) s

/-- A device fault: logged, every instance parked, the store closed with cause 0; a paired device leaves. -/
def State.deviceFault (s : State) (src code unit : Nat) (detail : Word) : State :=
  let s := (s.report src code 4 none 0 unit detail).parkAll
  ({ s with flt := { s.flt with down := true } }.closeStore 0).leavePair 3

/-! ### The fence list as a system object (R353) -/

def fenceEntry (f : Nat × Nat × Nat × Nat × Nat × Nat) : List Byte :=
  [BitVec.ofNat 8 f.1, BitVec.ofNat 8 f.2.2.1] ++ leBytes 2 f.2.1 ++ leBytes 2 f.2.2.2.1 ++ [0, 0]
    ++ leBytes 4 f.2.2.2.2.1 ++ leBytes 4 f.2.2.2.2.2

/-- The fence list's bytes. -/
def fenceBytes (gen : Nat) (fs : List (Nat × Nat × Nat × Nat × Nat × Nat)) : List Byte :=
  leBytes 4 fs.length ++ leBytes 4 gen ++ List.replicate 8 0 ++ fs.flatMap fenceEntry

/-- Commit a new fence list; a store that takes no transaction leaves it unsaved (R353, R354). -/
def State.saveFences (s : State) : State :=
  if s.storeOpen then
    let g := s.store.fenceGen + 1
    ((s.modStore (fun y => { y with fenceGen := g })).writeSystem 2 (fenceBytes g s.flt.fenced)).2
  else (s.event Reg.FLT_EVT 5).report 0x0D 0x0041 0 none 0 0xFFFF 0

/-! ### Page programs (R320, R325, R328) -/

/-- A transaction's COMMIT stands on the medium: a fence list takes effect, a map gets its superblock, and a WRITE_BOOT
completes (R322, R336, R353). -/
def State.onMedium (s : State) (n : Nat) : State :=
  let s := s.committed n
  match s.txn n with
  | none => s
  | some t =>
    let s := if t.isObject 2 then s.modStore (fun y => { y with fences := fenceParse (t.payload.drop 4) }) else s
    let s := if t.isMap then s.writeSuper n else s
    let js := s.store.jobs.filter (fun j => j.op == 5 && j.txn == n)
    let s := js.foldl (fun s j => s.stoComplete j.fn j.tag 0 j.length n) s
    s.modStore (fun y => { y with jobs := y.jobs.filter (fun j => !(j.op == 5 && j.txn == n)) })

/-- A hold-up commit with nothing left to program is complete (R330 step 5). -/
def State.holdStep (s : State) : State :=
  if s.store.hold = 1 ∧ s.store.closing.isNone ∧ s.store.jobsLeft.isEmpty then
    let us := min ((s.now - s.store.holdFrom) / 1000) 0xFFFF
    (s.modStore (fun y => { y with hold := 2 })).wr Reg.STO_HOLD (BitVec.ofNat 32 (0x40000000 + us))
  else s

/-- A relocated page has its new place, and MOVE says so (R325). -/
def State.movedPage (s : State) (a b : Nat) : State := (s.renamePage a b).flushJournal

/-- May the program of a queued page run: a superblock once its block is erased; a journal page once those before it are
programmed, so that a COMMIT on the medium is one that a replay reaches, and once the relocated pages below it are; a data page once the journal names it
(R316, R320, R322). -/
def State.startable (s : State) (j : PageJob) : Bool :=
  let ahead (n : Nat) : Bool := s.store.todo.any (fun k => k.page.kind == 2 && decide (k.page.seq < n))
  if (s.blk (blockOf j.addr)).st = 2 then false
  else if j.page.kind = 1 then !s.store.erasing.contains (blockOf j.addr)
  else if j.page.kind = 2 then
    !ahead j.page.seq && !s.store.jobs.any (fun k => k.dest.any (fun a => blockOf a == blockOf j.addr && decide (a < j.addr)))
  else !ahead j.after && !s.store.jbuf.any (fun e => e.txn == j.page.txn && j.old.isNone && (e.type == 1 || e.type == 2))

/-- A page program has succeeded: the page stands. The COMMITs of a journal page stand with its second copy (R318). -/
def State.programOk (s : State) (j : PageJob) : State :=
  let s := s.modStore (fun y => { y with todo := y.todo.filter (fun k => k.addr != j.addr), pages := SMap.put j.addr j.page y.pages })
  let s := match j.old with | some a => s.movedPage a j.addr | none => s
  let s := if j.page.kind = 3 ∧ j.old.isNone then
      (s.modTxn j.page.txn (fun t => { t with onMedium := t.onMedium + j.page.payload.length })).tryCommit j.page.txn
    else s
  let s := if j.page.kind = 1 then s.superDone j.page else s
  let s := if s.store.todo.any (fun k => k.page.kind == 2 && k.page.seq == j.page.seq) then s
    else j.commits.foldl State.onMedium s
  let s := if 1024 ≤ s.store.jpages ∧ s.storeOpen then s.writeMap else s
  s.upkeep.closeStep.holdStep

/-- A page program has failed: the block goes bad, its pages in hand are rewritten elsewhere, and the earlier ones are
relocated (R328). -/
def State.programBad (s : State) (j : PageJob) : State :=
  let b := blockOf j.addr
  let s := s.badBlock b 0
  ((s.relocate b).modStore (fun y => { y with erasing := delKey b y.erasing })).evict b |>.upkeep

/-- PAGE_PROGRAM_DONE: the program of page p completes; a block's pages are programmed in ascending order (R315). -/
def execPageProgramDone (p : Nat) (e : ProgramEnd) (s : State) : Res :=
  let s := s.at_ e.t
  match s.store.todo.find? (fun j => j.addr == p) with
  | none => .next s
  | some j =>
    s.onlyIf (s.startable j && s.store.todo.all (fun k => blockOf k.addr != blockOf p || decide (p ≤ k.addr))
        && s.store.hold != 3 && s.store.hold != 4)
      (if e.ok then s.programOk j else s.programBad j)

/-- May block b be erased: nothing live, in hand or still to be read stands in it? A block is to be erased when it has been
relocated or is a full superblock block; the model also lets Lenuk erase a block in use that holds nothing live. DESIGN
CHOICE (log entry 72). -/
def State.eraseable (s : State) (b : Nat) : Bool :=
  let y := s.store
  (y.erasing.contains b || ((s.blk b).st == 1 && !s.superZone b)) && (s.liveIn b).isEmpty
    && !y.todo.any (fun j => j.page.kind != 1 && blockOf j.addr == b) && !y.jobsLeft.any (fun j => j.old.any (fun a => blockOf a == b))
    && !y.jobs.any (fun j => j.pages.any (fun q => blockOf q.1 == b) || j.dest.any (fun a => blockOf a == b))
    && !y.opens.any (fun o => blockOf o.2 == b)
    && !y.jopen.any (fun q => blockOf q.1 == b || blockOf q.2 == b)

/-- BLOCK_ERASE_DONE: the erase of the block of page p completes and is journalled, or marks the block bad (R325, R328). -/
def execBlockEraseDone (p : Nat) (ok : Bool) (s : State) : Res :=
  let b := blockOf p
  if !s.eraseable b then .next s
  else if ok then
    let n := (s.blk b).erases + 1
    let s := s.setBlk b { erases := n, reads := 0, st := if s.superZone b then 1 else 0 }
    let s := s.modStore (fun y => { y with erasing := delKey b y.erasing, halving := delKey b y.halving
                                           pages := y.pages.filter (fun q => blockOf q.1 != b) })
    .next ((s.journal (JEntry.plain 7 0 (leBytes 4 (4096 * b) ++ leBytes 4 n))).upkeep)
  else .next ((s.badBlock b 1).evict b).upkeep

/-! ### Reads (R313, R314, R326, R327, R336) -/

/-- A page as read: whether it is programmed, its decoded bytes, its payload, corrected sectors, largest count of
corrections, uncorrectable sectors, and whether a sector or the page CRC fails. -/
structure ReadPage where
  programmed : Bool
  bytes : List Byte
  payload : List Byte
  corrected : Nat
  most : Nat
  uncorrectable : Nat
  bad : Bool
deriving DecidableEq, Repr

/-- Decode the 16 sectors of a page. -/
def decodePage (raw : List Byte) : ReadPage :=
  let ds := (List.range 16).map (fun j => sectorDecode (slice raw (1137 * j) 1137))
  let bs := ds.flatMap (·.1)
  let ns := ds.filterMap (·.2)
  let used := min (leField bs 0x1C 4) pageCap
  let pay := slice bs 64 used
  let crcOk := (crc32c (bs.take 0x3C ++ pay)).toNat == leField bs 0x3C 4
  { programmed := bs.take 4 == pageMagic, bytes := bs, payload := pay, corrected := (ns.filter (fun n => 0 < n)).length
    most := ns.foldl max 0, uncorrectable := 16 - ns.length
    bad := decide (ns.length < 16) || !crcOk || !(bs.take 4 == pageMagic) }

/-- A block whose reads have reached STO_RD_LIMIT is scanned; when no scan of it is left and it has not been relocated, its
count returns to half the limit (R327). -/
def State.halve (s : State) (b : Nat) : State :=
  if !s.store.halving.contains b ∨ s.store.jobs.any (fun j => j.op == 0x12 && j.pages.any (fun q => blockOf q.1 == b)) then s
  else
    let s := s.modStore (fun y => { y with halving := delKey b y.halving })
    if s.store.erasing.contains b then s else s.setBlk b { s.blk b with reads := (s.rd Reg.STO_RD_LIMIT).toNat / 2 }

/-- A page of a block has been read: its count, and the scan that its limit asks for (R327). -/
def State.countRead (s : State) (p : Nat) : State :=
  let b := blockOf p
  let n := (s.blk b).reads + 1
  let s := s.setBlk b { s.blk b with reads := n }
  if (s.rd Reg.STO_RD_LIMIT).toNat ≤ n ∧ !s.store.halving.contains b then
    (s.liveIn b).foldl (fun s a => s.readPage 0x12 a none) (s.modStore (fun y => { y with halving := insKey b y.halving }))
  else s

/-- What a page's corrections ask for (R326): a block with an uncorrectable sector is relocated and bad, and its transaction
gains the flag uncorrectable; one above the threshold is relocated. A store that takes no transaction leaves the
medium as it is. An unprogrammed page (R314) has nothing to care for. -/
def State.careOf (s : State) (p : Nat) (r : ReadPage) : State :=
  let s := (s.countBy Reg.STO_CE r.corrected).countBy Reg.STO_UE r.uncorrectable
  let b := blockOf p
  if !r.programmed && r.uncorrectable == 0 then s
  else
    let s := if r.bad then s.modStore (fun y => { y with txns := y.txns.map (fun t =>
        if t.pages.contains p || t.recPages.contains p then { t with uncorrectable := true, badPages := insKey p t.badPages } else t) })
      else s
    if !s.storeOpen ∨ (s.blk b).st = 2 then s
    else if r.bad then ((s.relocate b).badBlock b 2).upkeep
    else if s.fld Reg.STO_REFRESH 21 16 < r.most then (s.relocate b).upkeep
    else s

/-- A page read for its relocation takes a new place, with its bytes as decoded (R326); a journal page its own. -/
def State.copyPage (s : State) (p : Nat) (r : ReadPage) (dest : Option Nat) : State :=
  match SMap.find s.store.pages p with
  | none => s
  | some x =>
    let x := { x with payload := slice r.bytes 64 x.payload.length }
    if !s.livePage p then s
    else match dest with
      | some a => s.modStore (fun y => { y with todo := y.todo ++ [{ addr := a, old := some p
                                                                     page := { x with erases := (s.blk (blockOf a)).erases } }] })
      | none => (s.modStore (fun y => { y with unplaced := y.unplaced ++ [{ addr := 0, old := some p, page := x }] })).placeWaiting

/-- A job has all its pages: a READ copies its bytes to the host and completes; a load or a restore takes them. -/
def State.jobDone (s : State) (j : StoJob) : State :=
  if j.op = 2 then
    let s := if s.follows then s else s.wrHost j.addr ((j.got.drop j.offset).take j.length)
    s.stoComplete j.fn j.tag (if j.bad then 1 else 0) j.length j.txn
  else if j.op = 0x10 then
    if (s.inst j.fn).st = .loading then
      s.modInst j.fn (fun x => { x with load := some (if j.bad then none else some (j.got.take j.length)) })
    else s
  else if j.op = 0x11 then s.finishRestore j.fn (j.got.take j.length) j.bad
  else s

/-- The oldest job that reads page p next. -/
def State.readerOf (s : State) (p : Nat) : Option (StoJob × Nat) :=
  s.store.jobs.zipIdx.find? (fun j => match j.1.pages with | q :: _ => q.1 == p | [] => false)

/-- A mount has read page p (R322): corrections and uncorrectable sectors count, and a page that cannot be read is noted. -/
def State.mountRead (s : State) (p : Nat) (r : ReadPage) : State :=
  ((s.countBy Reg.STO_CE r.corrected).countBy Reg.STO_UE r.uncorrectable).modStore (fun y =>
    { y with unread := if r.bad then insKey p y.unread else delKey p y.unread })

/-- PAGE_READ_DONE: page p has been read as `raw` and is decoded: for the oldest job that waits for it, else for the mount in
hand. -/
def execPageReadDone (p : Nat) (raw : List Byte) (s : State) : Res :=
  match s.readerOf p with
  | none => s.onlyIf (s.store.st == 1 && (SMap.find s.store.pages p).isSome) (s.mountRead p (decodePage raw))
  | some (j, n) =>
    let r := decodePage raw
    let j := { j with got := j.got ++ r.payload, bad := j.bad || r.bad, pages := j.pages.drop 1 }
    let rest := s.store.jobs.eraseIdx n
    let s := s.modStore (fun y => { y with jobs := if j.pages.isEmpty then rest else y.jobs.set n j })
    let s := if j.pages.isEmpty then s.jobDone j else s
    let s := if j.op = 0x13 then s.copyPage p r j.dest else s
    .next (((s.countRead p).careOf p r).halve (blockOf p))

/-- BACKGROUND_SCAN: the scan begins to read live page p (R326). -/
def execBackgroundScan (p : Nat) (s : State) : Res :=
  s.onlyIf (s.bit Reg.STO_CTRL 8 && (s.store.st == 2 || s.store.st == 3) && (SMap.find s.store.pages p).isSome && s.livePage p)
    (s.readPage 0x12 p none)

/-! ### Mount (R309, R322) -/

/-- Begin to mount. A store that is mounting or ready stays as it is. -/
def State.startMount (s : State) : State :=
  if s.store.st = 1 ∨ s.store.st = 2 ∨ s.flt.down then s else s.modStore (fun y => { y with st := 1, unread := [] })

/-- TARGET_TIMEOUT: a target that does not acknowledge during initialisation is left out (R309). -/
def execTargetTimeout (ch ce : Nat) (s : State) : Res :=
  s.onlyIf (s.store.initing && decide (ch < 8) && decide (ce < 4))
    (s.modStore (fun y => { y with silent := insKey (4 * ch + ce) y.silent })).arrayUp

/-! ### Store commands (R335, R336) -/

/-- A store command entry. -/
structure StoCmd where
  op : Nat
  part : Nat
  tag : Word
  txn : Nat
  addr : Nat
  offset : Nat
  length : Nat
  index : Nat
deriving DecidableEq, Repr

def stoCmdOf (bs : List Byte) : StoCmd :=
  { op := leField bs 0 1, part := leField bs 1 1, tag := BitVec.ofNat 32 (leField bs 4 4), txn := leField bs 8 8
    addr := leField bs 16 8, offset := leField bs 24 8, length := leField bs 32 4, index := leField bs 36 1 }

/-- The command at the head of function f's command queue, and its device queue. -/
def State.stoHead (s : State) (f : Nat) : Option (Nat × StoCmd) :=
  match s.stoSq f with
  | none => none
  | some q =>
    let x := s.queue q
    if x.qkind ≠ qH2D then none else match x.entries with | e :: _ => some (q, stoCmdOf e.bytes) | [] => none

/-- Take the head command of queue q. -/
def State.stoTake (s : State) (q : Nat) : State := (s.readQueue q).1

/-- May function f name partition p? -/
def State.mayName (s : State) (f p : Nat) : Bool := if f = 0 then decide (p < 16) else s.partOf (f - 1) == some p

/-- Ops of the table of R335. -/
def stoOpListed (n : Nat) : Bool := decide (1 ≤ n) && decide (n ≤ 6)

/-- Take the head command when its op is `op`; an op that the table does not list is not permitted, and completes at
once. -/
def State.stoServe (s : State) (f op : Nat) (g : State → StoCmd → State) : State :=
  match s.stoHead f with
  | none => s
  | some (q, c) =>
    if !stoOpListed c.op then (s.stoTake q).stoComplete f c.tag 2 0 c.txn
    else if c.op ≠ op then s
    else if f ≠ 0 ∧ (op = 5 ∨ op = 6) then (s.stoTake q).stoComplete f c.tag 2 0 c.txn
    else if op ≠ 6 ∧ !s.mayName f c.part then (s.stoTake q).stoComplete f c.tag 2 0 c.txn
    else g (s.stoTake q) c

/-- Does the store serve reads: ready, read-only, or closed (R328, R334)? -/
def State.storeReads (s : State) : Bool := s.store.st == 2 || s.store.st == 3 || s.store.st == 4

/-- The 32-byte descriptor of a transaction (R335): number, kind, sheet, edition, bytes and flags. The manual does not give
their places and widths, nor the bits of flags: the model takes the order of the list, 4 bytes each but 8 for the number and the bytes, and the flags are
open. DESIGN CHOICE (log entry 75). -/
def Txn.descriptor (t : Txn) (flags : Nat) : List Byte :=
  leBytes 8 t.num ++ leBytes 4 t.kind ++ leBytes 4 t.sheet ++ leBytes 4 t.index ++ leBytes 8 t.bytes.length ++ leBytes 4 flags

/-- STO LIST: one descriptor per committed transaction from `txn` on. -/
def execStoList (f : Nat) (s : State) : Res :=
  .next (s.stoServe f 1 (fun s c =>
    if !s.storeReads then s.stoComplete f c.tag 5 0 c.txn
    else
      let ts := s.store.txns.filter (fun t => t.phase == 2 && t.part == c.part && decide (c.txn ≤ t.num))
      let n := min ts.length (c.length / 32)
      let r := (ts.take n).foldl (fun (x : List Byte × State) t =>
        let q := x.2.draw
        (x.1 ++ t.descriptor (q.1.toNat % 2 ^ 32), q.2)) ([], s)
      let s := if r.2.follows then r.2 else r.2.wrHost c.addr r.1
      s.stoComplete f c.tag 0 (32 * n) c.txn))

/-- Pages of a transaction with their payload bytes: those ahead of the records, then those of the records (R320). -/
def State.layout (s : State) (t : Txn) : List (Nat × Nat) :=
  (t.pages ++ t.recPages).map (fun a => (a, match SMap.find s.store.pages a with | some p => p.payload.length | none => 0))

/-- The pages that hold bytes `off .. off + n` of a transaction, and the offset of the first of them. -/
def pagesFor : List (Nat × Nat) → Nat → Nat → Nat → List (Nat × Nat) × Nat
  | [], at_, _, _ => ([], at_)
  | (a, len) :: ps, at_, off, n =>
    if at_ + len ≤ off then pagesFor ps (at_ + len) off n
    else if off + n ≤ at_ then ([], at_)
    else ((a, len) :: (pagesFor ps (at_ + len) off n).1, at_)

/-- STO READ: the pages that hold the range are read; the completion follows the last of them. Uncorrectable data in range
is a page that a scan found so or that now reads so; of a transaction flagged through the commit buffer (R339) the page is not
known, and every range counts. -/
def execStoRead (f : Nat) (s : State) : Res :=
  .next (s.stoServe f 2 (fun s c =>
    if !s.storeReads then s.stoComplete f c.tag 5 0 c.txn
    else
      match s.store.txns.find? (fun t => t.phase == 2 && t.part == c.part && t.num == c.txn) with
      | none => s.stoComplete f c.tag 3 0 c.txn
      | some t =>
        let n := min c.length (t.bytes.length - c.offset)
        let ps := pagesFor (s.layout t) 0 c.offset n
        if n = 0 then s.stoComplete f c.tag 0 0 c.txn
        else s.modStore (fun y => { y with jobs := y.jobs ++ [{
          op := 2, fn := f, tag := c.tag, part := c.part, txn := c.txn, addr := c.addr, offset := c.offset - ps.2, length := n
          got := [], pages := ps.1
          bad := ps.1.any (fun q => t.badPages.contains q.1) || (t.uncorrectable && t.badPages.isEmpty) }] })))

/-- STO TRIM: releases every committed transaction up to a number. -/
def execStoTrim (f : Nat) (s : State) : Res :=
  .next (s.stoServe f 3 (fun s c =>
    if !s.storeOpen then s.stoComplete f c.tag 5 0 c.txn
    else
      let ts := s.store.txns.filter (fun t => t.phase == 2 && t.part == c.part && decide (t.num ≤ c.txn))
      let s := match ts.getLast? with | some t => s.journalRelease t 0 | none => s
      let s := ((ts.foldl State.endTxn s).flushJournal).upkeep
      s.stoComplete f c.tag 0 0 c.txn))

/-- STO SYNC: completes once every whole transaction of the partition is on the medium. -/
def execStoSync (f : Nat) (s : State) : Res :=
  let waits := match s.stoHead f with
    | some (_, c) => c.op == 4 && s.storeOpen && s.store.txns.any (fun t => t.part == c.part && t.phase == 1)
    | none => false
  if waits then .next s
  else
    .next (s.stoServe f 4 (fun s c =>
      if !s.storeOpen then s.stoComplete f c.tag 5 0 c.txn else s.stoComplete f c.tag 0 0 c.txn))

/-- The bytes of a WRITE_BOOT command: host memory, or, on a paired follower, what the lead has forwarded (R370, R377). -/
def State.bootBytes (s : State) (c : StoCmd) : Option (List Byte) :=
  if s.follower then s.dataBytes 4 c.index 0 c.length else s.hostBytes c.addr c.length

/-- Can `n` bytes of a boot image be had within partition 1's quota (R323): they fit, or wrap makes room for them? -/
def State.bootFits (s : State) (n : Nat) : Bool :=
  match s.quota 1 with
  | none => true
  | some q => decide (s.partBytes 1 + n ≤ q) || (s.bit (Reg.STO_P_CFG 1) 23 && decide (n ≤ q))

/-- STO WRITE_BOOT: the boot image at an index; it completes when its COMMIT stands (R324). A buffer that cannot be read
completes with a status the manual does not give; a follower waits for its bytes. -/
def execStoWriteBoot (f : Nat) (s : State) : Res :=
  let waits := s.follower && (match s.stoHead f with | some (_, c) => c.op == 5 && (s.bootBytes c).isNone | none => false)
  if waits then .next s
  else
    .next (s.stoServe f 5 (fun s c =>
      if !s.storeOpen then s.txnLost.stoComplete f c.tag 5 0 c.txn
      else
        match s.bootBytes c with
        | none => let r := s.draw; r.2.stoComplete f c.tag (r.1.toNat % 256) 0 c.txn
        | some bs =>
          let s := (s.forward 4 c.index 0 bs).dropData 4 c.index
          if !s.bootFits bs.length then
            (s.event Reg.STO_EVT 4).stoComplete f c.tag 4 0 c.txn
          else
            let r := s.wholeAndCommit 3 1 0xFF 0 c.index bs
            r.2.modStore (fun y => { y with jobs := y.jobs ++ [{
              op := 5, fn := f, tag := c.tag, part := 1, txn := r.1, addr := c.addr, offset := 0, length := bs.length, got := []
              pages := [], bad := false }] })))

/-- Good blocks of target t after a format: each erased, and the spare pool taken from them, 2 % and at least 8 (R325,
R328). -/
def State.formatTarget (s : State) (t : Nat) : State :=
  let good := (s.targetBlocks t).filter (fun b => (s.blk b).st != 2)
  let n := max 8 (ceilDiv (2 * good.length) 100)
  let pool := ((good.filter (fun b => !s.superZone b)).reverse).take n
  good.foldl (fun s b =>
    let e := (s.blk b).erases + 1
    (s.setBlk b { erases := e, reads := 0, st := if pool.contains b then 3 else 0 }).journal
      (JEntry.plain 7 0 (leBytes 4 (4096 * b) ++ leBytes 4 e))) s

/-- What a format keeps of the store: its tables where they are in hand, else as the flash gives them; none where the old map
cannot be read. -/
def State.oldTables (s : State) : Option Store :=
  if s.store.st = 3 ∨ s.store.st = 4 then some s.store else (s.rebuild []).map (·.1)

/-- Erase the array: every good block is erased, the spare pool is reserved, and a new map and superblock are written. The
bad-block marks and the fence list stay where the old map is readable; else the factory marks are read (R328, R335). -/
def State.format (s : State) : State :=
  let r := s.draw
  let old := s.oldTables
  let y := old.getD { nextTxn := s.store.nextTxn, seq := s.store.seq }
  let s := r.2.setStore { st := 4, nextTxn := y.nextTxn, seq := y.seq, generation := y.generation, formatId := r.1
                          blocks := SMap.mapVals {} (fun _ b => { b with st := if b.st = 2 then 2 else 0 }) y.blocks
                          fences := y.fences, fenceGen := y.fenceGen, rates := s.store.rates, hold := s.store.hold
                          holdFrom := s.store.holdFrom, mainRise := s.store.mainRise }
  let marks := if old.isNone then s.allBlocks.filter Config.nandFactoryBad else []
  let s := marks.foldl (fun s b => (s.setBlk b { s.blk b with st := 2 }).journal
    (JEntry.plain 8 0 (leBytes 4 (4096 * b) ++ [3]))) s
  let s := (s.targets.foldl State.formatTarget s).flushJournal
  let s := if s.store.fences.isEmpty then s else (s.writeSystem 2 (fenceBytes s.store.fenceGen s.store.fences)).2
  s.writeMap.storeRegs

/-- STO FORMAT: the manager's, on a store that is not mounted or read-only (not while it mounts, after a device fault
(R334), or with no target). The array stays closed until the next mount. -/
def execStoFormat (f : Nat) (s : State) : Res :=
  .next (s.stoServe f 6 (fun s c =>
    if s.store.st = 2 then s.stoComplete f c.tag 2 0 c.txn
    else if s.store.st = 1 ∨ s.flt.down ∨ s.targets.isEmpty then s.stoComplete f c.tag 5 0 c.txn
    else s.format.stoComplete f c.tag 0 0 c.txn))

/-- STO_CMD takes a value: mount and close. -/
def State.stoCmd (s : State) (v : Word) : State :=
  let s := if v.getLsbD 1 then s.closeStore 2 else s
  if v.getLsbD 0 then s.startMount else s

/-! ### The hold-up commit (R330, R331) -/

/-- Main power has failed at `t`: the commit runs when HOLD_OK is high. -/
def State.holdUp (s : State) (t : Nat) : State :=
  if s.bit Reg.PWR_STAT 30 then
    ((s.modStore (fun y => { y with hold := 1, holdFrom := t })).closeStore 1).closeStep.holdStep
  else (s.modStore (fun y => { y with hold := 3 })).wr Reg.STO_HOLD 0x80000000

/-- VHOLD has fallen below the floor: the commit domain stops. A COMMIT page of which one copy has been programmed
stands (R318). -/
def State.holdCut (s : State) : State :=
  let us := min ((s.now - s.store.holdFrom) / 1000) 0xFFFF
  let half := s.store.todo.filter (fun j => !j.commits.isEmpty &&
    s.store.pages.any (fun p => p.2.kind == 2 && p.2.seq == j.page.seq))
  let s := half.foldl (fun s j => j.commits.foldl State.onMedium s) s
  (s.modStore (fun y => { y with todo := [], unplaced := [], jbuf := [], closing := none, hold := 4 })).wr Reg.STO_HOLD
    (BitVec.ofNat 32 (0xC0000000 + us))

/-- A cold start: everything but the flash, the host's memory and the model's own counters is as after reset (R331). Of the
store the programmed pages stay, with what they alone hold: the map objects' contents and where the journal's copies lie. -/
def State.coldStart (s : State) : State :=
  let y := s.store
  let s1 : State := { State.reset with
    pending := s.pending, free := s.free, nextOrd := s.nextOrd, hostMem := s.hostMem
    store := { pages := y.pages, maps := y.maps, jchain := y.jchain, mainRise := some 0 } }
  let s1 := (s1.wr Reg.STO_HOLD (s.rd Reg.STO_HOLD)).wr Reg.PWR_STAT (s.rd Reg.PWR_STAT &&& 0xC0000000)
  -- parked for heat: only a cold start that finds Tj below the warning ends it (R396)
  let s1 := if s.bit Reg.PWR_STAT 28 && decide (4 * (s1.fld Reg.PWR_THERM 7 0 : Int) ≤ ((s.rd Reg.PWR_TJ).setWidth 16).toInt) then
      { (s1.setBit Reg.PWR_STAT 28 true).wr Reg.PWR_TJ (s.rd Reg.PWR_TJ) with flt := { s1.flt with down := true } }
    else s1
  if s.fld Reg.STO_HOLD 31 30 = 1 then s1 else s1.event Reg.STO_EVT 6

end Sys2Proof.Machine
end

