-- ==== Sys2Proof/Machine/Faults.lean ====
section
/-! DEFINITION. Self-tests, the fence list, the mapping of units after mount, repair of poisoned pieces, and the log
commands (R46, R47, R343 to R360). -/

namespace Sys2Proof.Machine

/-! ### Error log commands (R359, R360) -/

/-- A ring's clear: the next entry becomes its sticky entry; overflow and LASTDROP are zeroed (R359). -/
def State.clearRing (s : State) (n : Nat) : State :=
  let s := s.setRing n { s.ring n with clear := true }
  if n = 0 then (s.wr Reg.FLT_LOG_OVF 0).wr Reg.FLT_LOG_LASTDROP 0
  else (s.wr (Reg.FLT_I_LOG_OVF (n - 1)) 0).wr (Reg.FLT_I_LOG_LASTDROP (n - 1)) 0

/-- A write of a ring's tail: one that would pass the head is ignored (R360). -/
def State.setTail (s : State) (n v : Nat) : State :=
  let x := s.ring n
  let v := v % ringMod n
  if (v + ringMod n - x.tail) % ringMod n ≤ x.fill n then s.setRing n { x with tail := v } else s

/-! ### Fencing (R352, R353) -/

/-- Fence-list kind and physical unit of a test's unit: a bank of an engine, tile or core stands for its unit. -/
def fenceTarget (kind unit : Nat) : Nat × Nat :=
  match kind with
  | 16 => (0, unit / 16)
  | 17 => (0, unit)
  | 18 => (0, unit)
  | 19 => (1, unit / 128)
  | 20 => (2, unit / 4)
  | 21 => (3, unit)
  | 22 => (4, unit)
  | k => (k, unit)

/-- Is a unit on the fence list of this power cycle? -/
def State.isFenced (s : State) (kind unit : Nat) : Bool := s.flt.fenced.any (fun f => f.1 == kind && f.2.1 == unit)

/-- Transients of a unit so far. -/
def State.transientsOf (s : State) (kind unit : Nat) : Nat :=
  (s.flt.history.filter (fun h => fenceTarget h.1 h.2.1 == (kind, unit))).length

/-- Is spare bank n of a die (384 to 387) free? -/
def State.bankFree (s : State) (die n : Nat) : Bool :=
  !s.isFenced 3 (512 * die + n)
    && !s.flt.remap.any (fun e => e.1 / 512 == die && e.2 == n) && !s.flt.remapping.any (fun e => e.1 == die && e.2.2 == n)
    && !s.flt.remapReady.any (fun e => e.1 / 512 == die && e.2 == n)

/-- The lowest free spare bank of a die (R352). -/
def State.spareBank (s : State) (die : Nat) : Option Nat := ([384, 385, 386, 387] : List Nat).find? (s.bankFree die)

/-- The addressed bank of its die that a physical bulk bank holds: its own, or for a spare bank the one remapped to it. -/
def State.bankServed (s : State) (unit : Nat) : Option Nat :=
  if unit % 512 < 384 then some (unit % 512)
  else (s.flt.remap.find? (fun e => e.1 / 512 == unit / 512 && e.2 == unit % 512)).map (fun e => e.1 % 512)

/-- The spare that takes over a unit being fenced, 0xFFFFFFFF for none. -/
def State.fenceRemap (s : State) (kind unit logical : Nat) : Nat :=
  match kind with
  | 0 => match s.engLogical unit with
    | some _ => s.flt.engFree.headD 0xFFFFFFFF
    | none => if logical < 64 ∧ s.engPhys logical ≠ unit then s.engPhys logical else 0xFFFFFFFF
  | 1 => match s.colLogical unit with
    | some _ => s.flt.colFree.headD 0xFFFFFFFF
    | none => if logical < 64 ∧ s.colPhys logical ≠ unit then s.colPhys logical else 0xFFFFFFFF
  | 3 => if (s.bankServed unit).isSome then (s.spareBank (unit / 512)).getD 0xFFFFFFFF else 0xFFFFFFFF
  | _ => 0xFFFFFFFF

/-- A fenced core stops, and its stage has no repair path (R352). -/
def State.fenceCore (s : State) (k : Nat) : State :=
  let s := (s.modCore k (fun c => { c with st := .fenced, waitTick := none })).setBit (Reg.HIF_CORE_FENCED (k / 32)) (k % 32) true
  match s.coreOwner k with
  | none => s
  | some i =>
    match (s.inst i).stageOfCore k with
    | some d => s.noPath i d.id k 0
    | none => s

/-- A fenced bulk bank moves to a spare bank; with none left its owner takes an instance fault (R352). -/
def State.fenceBulk (s : State) (unit : Nat) : State :=
  let die := unit / 512
  match s.bankServed unit with
  | none => s
  | some bank =>
    match s.spareBank die with
    | some n => s.modFlt (fun f => { f with remapping := f.remapping ++ [(die, bank, n)] })
    | none => s.instFault (s.bulkOwner die (0x40000 * bank)) 0x0D 0x0022 0 unit 0

/-- What fencing a unit does to it (R352). -/
def State.fenceEffect (s : State) (kind unit : Nat) : State :=
  match kind with
  | 0 => match s.engLogical unit with
    | some e => s.repairUnit 0 e true
    | none => s.modFlt (fun f => { f with engFree := delKey unit f.engFree })
  | 1 => match s.colLogical unit with
    | some c => s.repairUnit 1 c true
    | none => s.modFlt (fun f => { f with colFree := delKey unit f.colFree })
  | 2 => s.fenceCore unit
  | 3 => s.fenceBulk unit
  | 5 => s.setBit Reg.INL_LANE_LOCK unit false
  | 7 => { s with tdm := { s.tdm with lanesUp := s.tdm.lanesUp &&& ~~~(BitVec.ofNat 8 (2 ^ unit)) } }
  | _ => s

/-- A unit enters the fence list of this power cycle: FLT_EVT.fenced, and its log entry under the name `u` (R353). -/
def State.listFence (s : State) (kind unit cause remap u : Nat) : State :=
  let e := (kind, unit, cause, s.transientsOf kind unit % 65536, s.now / 1000000000 % 2 ^ 32, remap)
  let s := s.modFlt (fun f => { f with fenced := f.fenced ++ [e] })
  (s.event Reg.FLT_EVT 4).report 0x0D 0x0040 0 none 0 u 0

/-- Fence a unit with a cause, and commit a new fence list; a unit already fenced stays so. -/
def State.fence (s : State) (kind unit cause logical : Nat) : State :=
  if s.isFenced kind unit || decide (1024 ≤ s.flt.fenced.length) then s
  else
    ((s.listFence kind unit cause (s.fenceRemap kind unit logical) (s.unitName kind unit logical)).fenceEffect kind unit).saveFences

/-- A router fault of physical column p, row r (R182): the column is fenced, no spare takes it over since its router
cannot be the proxy, and the fault of the stage that owns it escalates to an instance fault. The mesh stands at the physical
columns 0 to 63, under their own logical numbers; a spare's router carries the traffic of the column that it serves. -/
def State.routerFault (s : State) (p r pc : Nat) : State :=
  let err : Word := BitVec.ofNat 32 (0x50000000 + 0x10000 * r + pc)
  let c := if p < 64 then p else (s.colLogical p).getD 0xFFFF
  let s := if c < 64 then (s.event (Reg.TIL_C_EVT c) 7).wr (Reg.TIL_C_ERR c) err else s
  let s := if s.isFenced 1 p || decide (1024 ≤ s.flt.fenced.length) then s
    else (s.listFence 1 p 2 0xFFFFFFFF c).saveFences
  let o := s.colOwner c
  let sid := match o with
    | some i => ((s.inst i).stageOfCol c).map (·.id) |>.getD 0
    | none => 0
  s.instFault o 0x05 0x0207 sid c err

/-- BANK_REMAP_COPY_DONE: the copy into the spare bank completes, and the remap switches at the next tick (R352). -/
def execBankRemapCopyDone (die bank : Nat) (s : State) : Res :=
  match s.flt.remapping.find? (fun r => r.1 == die && r.2.1 == bank) with
  | none => .next s
  | some r => .next (s.modFlt (fun f =>
      { f with remapping := f.remapping.filter (· != r), remapReady := SMap.put (512 * die + bank) r.2.2 f.remapReady }))

/-! ### Tests (R348 to R351) -/

/-- The test of the unit that FLT_TEST names, with logical numbers for engines and columns; none for a kind that no test
serves. -/
def State.testNamed (s : State) (v : Word) : Option TestJob :=
  let k := bits v 31 28
  let u := bits v 15 0
  let job (kind unit logical : Nat) : Option TestJob :=
    some { kind := kind, unit := unit, cause := 1, logical := logical, spoiled := false }
  match k with
  | 0 => if u < 64 then job 0 (s.engPhys u) u else none
  | 1 => if u < 64 then job 1 (s.colPhys u) u else none
  | 3 => if u / 512 < 4 ∧ u % 512 < 388 then job 21 u 0xFFFF else none
  | 4 => if u < 32 then job 22 u 0xFFFF else none
  | 5 => if u < 32 then job 5 u 0xFFFF else none
  | 6 => if u < 8 then job 6 u 0xFFFF else none
  | 7 => if u < 8 then job 7 u 0xFFFF else none
  | _ => none

/-- FLT_CMD.retest: a fenced unit, by its fence list number, is tested afresh (R354). -/
def State.retestNamed (s : State) (v : Word) : State :=
  let k := bits v 31 28
  let u := bits v 15 0
  if s.isFenced k u then
    s.queueTest { kind := if k = 3 then 21 else if k = 4 then 22 else k, unit := u, cause := 3, logical := 0xFFFF, spoiled := false }
  else s

/-- FLT_CMD takes a value. -/
def State.fltCmd (s : State) (v : Word) : State :=
  let s := if v.getLsbD 0 then s.clearRing 0 else s
  let s := if v.getLsbD 1 then (match s.testNamed (s.rd Reg.FLT_TEST) with | some j => s.queueTest j | none => s) else s
  if v.getLsbD 2 then s.retestNamed (s.rd Reg.FLT_TEST) else s

/-- First byte of a bank under its unit: the memory, physical unit and offset (R340). -/
def State.bankPlace (s : State) (kind unit : Nat) : Option (MemKind × Nat × Nat) :=
  match kind with
  | 16 => some (.weight, unit / 16, 0x10000 * (unit % 16))
  | 17 => some (.staging, unit, 0)
  | 18 => some (.acc, unit, 0)
  | 19 => some (.tile, unit / 128, 0x4000 * (unit / 4 % 32) + unit % 4 * 16)
  | 20 => some (.core, unit / 4, 0x8000 * (unit % 4))
  | 21 => (s.bankServed unit).map (fun b => (.bulk, unit / 512, 0x40000 * b))
  | 22 => some (.commit, 0, 0x40000 * unit)
  | _ => none

/-- A repair write to the bank's owner comes before its march test (R348). -/
def State.repairFirst (s : State) (j : TestJob) : Bool :=
  match s.bankPlace j.kind j.unit with
  | some (k, p, off) => (match (s.placeOf k p off).1 with | some i => !(s.inst i).repairs.isEmpty | none => false)
  | none => false

/-- Is the unit kind of a queued test free (R351)? -/
def State.testFree (s : State) (j : TestJob) : Bool :=
  if 16 ≤ j.kind then !s.repairFirst j
  else if j.kind = 0 ∨ j.kind = 1 then !s.flt.testing.any (fun k => k.kind == j.kind)
  else !s.flt.testing.any (fun k => k.kind == j.kind && k.unit == j.unit)

/-- Logical unit that the engine or column of a test still serves. -/
def State.serves (s : State) (j : TestJob) : Option Nat :=
  if j.kind = 0 then s.engLogical j.unit else if j.kind = 1 then s.colLogical j.unit else none

/-- The replacement of a unit is in hand or waits. -/
def State.replacing (s : State) (kind u : Nat) : Bool :=
  (if kind = 0 then (match s.flt.engRepair with | some (e, _) => e == u | none => false)
   else (match s.flt.takeover with | some k => k.col == u && !k.back | none => false))
  || s.flt.repairWait.any (fun w => w.1 == kind && w.2.1 == u)

/-- A transient of a unit (R349). -/
def State.transient (s : State) (kind unit : Nat) : State :=
  let s := s.modFlt (fun f => { f with history := (kind, unit, s.now) :: f.history })
  (s.count Reg.FLT_TRANSIENTS).event Reg.FLT_EVT 2

/-- Has the unit three transients within 600 s (R349)? -/
def State.thirdTransient (s : State) (kind unit : Nat) : Bool :=
  decide (3 ≤ (s.flt.history.filter (fun h => h.1 == kind && h.2.1 == unit && decide (s.now ≤ h.2.2 + 600000000000))).length)

/-- A unit is lasting: counted, and fenced (R349, R352). -/
def State.lasting (s : State) (j : TestJob) (cause : Nat) : State :=
  let t := fenceTarget j.kind j.unit
  ((s.count Reg.FLT_LASTING).event Reg.FLT_EVT 3).fence t.1 t.2 cause j.logical

/-- A pass, or a test that finds no spare: a transient, and the third within 600 s is lasting. True when lasting. -/
def State.passed (s : State) (j : TestJob) : State × Bool :=
  let s := s.transient j.kind j.unit
  if s.thirdTransient j.kind j.unit then
    ((s.report 0x0D 0x0012 0 none 0 (s.unitName j.kind j.unit j.logical) 0).lasting j 1, true)
  else (s, false)

/-- A test leaves the queue. -/
def State.unqueue (s : State) (j : TestJob) : State :=
  (s.modFlt (fun f => { f with testQ := f.testQ.filter (· != j) })).testStat

/-- The result field of FLT_TEST_STAT. -/
def State.testResult (s : State) (n : Nat) : State := s.setFld Reg.FLT_TEST_STAT 9 8 n

/-- A queued test starts: its lane is taken out of service. -/
def State.beginTest (s : State) (j : TestJob) : State :=
  let s := s.unqueue j
  let s := (s.modFlt (fun f => { f with testing := f.testing ++ [j] })).testStat
  if j.kind = 5 then s.setBit Reg.INL_LANE_LOCK j.unit false
  else if j.kind = 7 then { s with tdm := { s.tdm with lanesUp := s.tdm.lanesUp &&& ~~~(BitVec.ofNat 8 (2 ^ j.unit)) } }
  else s

/-- A tested unit returns (R350), or a fenced one that passes leaves the fence list (R354). -/
def State.returnUnit (s : State) (j : TestJob) : State :=
  let t := fenceTarget j.kind j.unit
  let s := if j.cause = 3 ∧ s.isFenced t.1 t.2 then
      let s := s.modFlt (fun f => { f with fenced := f.fenced.filter (fun e => !(e.1 == t.1 && e.2.1 == t.2)) })
      (if t.1 = 2 then
        (s.modCore t.2 (fun c => { c with st := .idle })).setBit (Reg.HIF_CORE_FENCED (t.2 / 32)) (t.2 % 32) false
       else s).saveFences
    else s
  if j.kind = 0 then s.modFlt (fun f => { f with engFree := insKey j.unit f.engFree })
  else if j.kind = 1 then
    if j.logical < 64 ∧ s.colPhys j.logical ≠ j.unit then s.repairUnit 2 (j.logical + 64 * j.unit) false
    else s.modFlt (fun f => { f with colFree := insKey j.unit f.colFree })
  else s

/-- Both verdicts of instance i are in: the outcomes of R372. -/
def State.judgeVerdicts (s : State) (i : Nat) : State :=
  match SMap.find s.tdm.verdictMine i, SMap.find s.tdm.verdictTheirs i with
  | some v, some n =>
    if v.engLeft || v.colLeft then s
    else
      let s := { s with tdm := { s.tdm with verdictMine := SMap.del i s.tdm.verdictMine
                                            verdictTheirs := SMap.del i s.tdm.verdictTheirs } }
      let s := s.setFld (Reg.TDM_I_STAT i) 31 31 0
      if v.failed ∧ n = 1 then (s.event (Reg.TDM_I_EVT i) 3).event Reg.TDM_EVT 6
      else if v.failed then (s.event (Reg.TDM_I_EVT i) 3).leavePair 1
      else if n = 1 then s
      else (s.count (Reg.TDM_I_TRANSIENT i)).event (Reg.TDM_I_EVT i) 2
  | _, _ => s

/-- The engine or column test of a tandem test has ended. -/
def Verdict.after (v : Verdict) (kind logical : Nat) (bad : Bool) : Verdict :=
  if kind = 0 ∧ v.engLeft ∧ v.engine = logical then { v with engLeft := false, failed := v.failed || bad }
  else if kind = 1 ∧ v.colLeft ∧ v.column = logical then { v with colLeft := false, failed := v.failed || bad }
  else v

/-- When this device's engine and column tests for instance i have ended it sends VERDICT (R372). -/
def State.sendVerdict (s : State) (i : Nat) : State :=
  match SMap.find s.tdm.verdictMine i with
  | some v => if v.engLeft || v.colLeft then s
    else (s.tdmPost [6, BitVec.ofNat 8 i, if v.failed then 1 else 0]).judgeVerdicts i
  | none => s

/-- A test of an engine or column has ended: the tandem tests that name its logical unit take the result. -/
def State.tandemVerdict (s : State) (j : TestJob) (bad : Bool) : State :=
  instNums.foldl (fun s i =>
    match SMap.find s.tdm.verdictMine i with
    | some v =>
      let w := v.after j.kind j.logical bad
      if w = v then s
      else ({ s with tdm := { s.tdm with verdictMine := SMap.put i w s.tdm.verdictMine } }).sendVerdict i
    | none => s) s

/-- An engine or column test that finds no free spare is not run: skipped, and a transient (R351). -/
def State.skipTest (s : State) (j : TestJob) : State :=
  let s := ((s.unqueue j).report 0x0D 0x0013 0 none 0 j.logical 0).testResult 3
  let r := s.passed j
  r.1.tandemVerdict j r.2

/-- TEST_START: the oldest queued test whose unit kind is free; a unit that still serves is replaced first (R348, R351). -/
def execTestStart (t : Nat) (s : State) : Res :=
  let s := s.at_ t
  match s.flt.testQ.find? (fun j => s.testFree j &&
      (match s.serves j with | some u => !s.replacing j.kind u | none => true)) with
  | none => .next s
  | some j =>
    match s.serves j with
    | some u =>
      let spare := if j.kind = 0 then !s.flt.engFree.isEmpty else !s.flt.colFree.isEmpty
      .next (if spare then s.repairUnit j.kind u false else s.skipTest j)
    | none => .next (s.beginTest j)

/-- TEST_COMPLETE: a test ends; a pass with an uncorrectable word found in its bank is a failure (R349, R351). -/
def execTestComplete (kind unit : Nat) (pass : Bool) (t : Nat) (s : State) : Res :=
  let s := s.at_ t
  match s.flt.testing.find? (fun j => j.kind == kind && j.unit == unit) with
  | none => .next s
  | some j =>
    let s := (s.modFlt (fun f => { f with testing := f.testing.filter (· != j) })).testStat
    let u := s.unitName kind unit j.logical
    if pass && !j.spoiled then
      let s := ((s.report 0x0D 0x0010 0 none 0 u 0).testResult 1)
      let r := s.passed j
      .next ((if r.2 then r.1 else r.1.returnUnit j).tandemVerdict j r.2)
    else .next ((((s.report 0x0D 0x0011 0 none 0 u 0).testResult 2).lasting j 0).tandemVerdict j true)

/-! ### The mapping of units (R46, R354) -/

/-- Physical units of a kind that the fuse map and the fence list leave: 0 engines, 1 columns. -/
def State.usable (s : State) (kind p : Nat) : Bool :=
  !(if kind = 0 then engineFused p else columnFused p) && !s.isFenced kind p

/-- Every logical unit takes its own number where usable, else the lowest free spare. The map lists the units that take
another number; the spares left follow. -/
def mapUnits (usable : Nat → Bool) : List Nat → List Nat → SMap Nat → SMap Nat × List Nat
  | [], free, m => (m, free)
  | u :: us, free, m =>
    if usable u then mapUnits usable us free m
    else match free with
      | p :: ps => mapUnits usable us ps (SMap.put u p m)
      | [] => mapUnits usable us [] m

/-- A fence list entry of a bulk bank, in fencing order: the bank goes to its spare, and so does what a fenced spare bank
held. -/
def remapOf (m : SMap Nat) (f : Nat × Nat × Nat × Nat × Nat × Nat) : SMap Nat :=
  let u := f.2.1
  let n := f.2.2.2.2.2
  if f.1 ≠ 3 ∨ 388 ≤ n then m
  else if u % 512 < 384 then SMap.put u n m
  else match m.find? (fun e => e.1 / 512 == u / 512 && e.2 == u % 512) with
    | some e => SMap.put e.1 n m
    | none => m

/-- The fuse map and the newest fence list are applied, and the bulk banks remapped (R354). A store that is not ready
leaves the fencings of this power cycle alone. -/
def State.applyMap (s : State) : State :=
  let fs := if s.store.st = 2 then s.store.fences else s.flt.fenced
  let s := s.modFlt (fun f => { f with fenced := fs })
  let e := mapUnits (s.usable 0) (List.range 64) ((([64, 65, 66, 67] : List Nat)).filter (s.usable 0)) []
  let c := mapUnits (s.usable 1) (List.range 64) ((([64, 65] : List Nat)).filter (s.usable 1)) []
  let s := s.modFlt (fun f => { f with engMap := e.1, engFree := e.2, colMap := c.1, colFree := c.2
                                       proxy := c.1.map (·.1), remap := fs.foldl remapOf [] })
  let s := fs.foldl (fun s f => if f.1 = 2 then
    (s.modCore f.2.1 (fun c => { c with st := .fenced })).setBit (Reg.HIF_CORE_FENCED (f.2.1 / 32)) (f.2.1 % 32) true else s) s
  { s with sig := { s.sig with mapped := true } }.brakeAll

/-- The units are mapped, and loads written before that begin (R354). -/
def State.mapUp (s : State) : State :=
  instNums.foldl (fun s i => if s.bit (Reg.INS_I_CMD i) 0 then s.startLoad i else s) s.applyMap

/-- MOUNT_DONE: the store is mounted, the units are mapped, and loads written before that begin (R322, R354, R423). -/
def execMountDone (s : State) : Res :=
  if s.store.st ≠ 1 ∨ !s.store.jobsLeft.isEmpty then .next s
  else
    let s := s.mounted
    .next (if s.flt.fenced.isEmpty ∨ s.store.st = 2 then s else s.event Reg.FLT_EVT 5).mapUp

/-! ### Repair of poisoned pieces (R345 to R347) -/

/-- Bytes of a piece in the committed boot image: at its position within weights entry ref. -/
def State.bootPiece (s : State) (im : Image) (d : RepairDesc) (n : Nat) : Option (List Byte) :=
  match s.bootById im.imageId with
  | none => none
  | some t =>
    match (parseImage t.payload).weights[d.ref]? with
    | some w => some (slice w.bytes ((d.piece n).1 - w.dest) (d.piece n).2)
    | none => none

/-- The repair in hand of instance i takes a new phase and bytes. -/
def State.setRepair (s : State) (i phase : Nat) (bs : List Byte) : State :=
  s.modInst i (fun x => { x with repairs := match x.repairs with
    | r :: rs => { r with phase := phase, bytes := bs } :: rs
    | [] => [] })

/-- REPAIR_FETCH_DONE: the piece has reached the repair buffer, or cannot be had: uncorrectable flash has no path (R347),
and a partner's poisoned piece falls back to the descriptor's source (R376). -/
def execRepairFetchDone (i : Nat) (ok : Bool) (s : State) : Res :=
  let x := s.inst i
  match x.repairs, x.image with
  | r :: _, some im =>
    match im.repairs[r.desc]? with
    | none => .next s
    | some d =>
      let fail : State := s.noPath i r.stage 0xFFFF (BitVec.ofNat 32 (d.piece r.piece).1)
      if r.phase = 4 then
        if !ok then .next ((s.dropData 3 i).repairSource i)
        else
          match s.dataBytes 3 i (d.pieceOffset r.piece) (d.piece r.piece).2 with
          | some bs => .next ((s.dropData 3 i).setRepair i 3 bs)
          | none => .next s
      else if r.phase ≠ 1 then .next s
      else if d.source = 1 then .next (if ok then s.setRepair i 3 r.bytes else s.setRepair i 2 [])
      else if !ok then .next fail
      else
        match s.bootPiece im d r.piece with
        | some bs => .next (s.setRepair i 3 bs)
        | none => .next fail
  | _, _ => .next s

/-- REPAIR_ENTRY: the host's answer to a source-1 request is taken; one that disagrees, or whose bytes cannot be read, is
discarded (R346). -/
def execRepairEntry (i : Nat) (host : List (Nat × Byte)) (s : State) : Res :=
  let s := s.placeHost host
  let x := s.inst i
  match x.repairs, x.image with
  | r :: _, some im =>
    match im.repairs[r.desc]? with
    | none => .next s
    | some d =>
      if r.phase ≠ 2 ∨ d.source ≠ 1 then .next s
      else
        match s.localQueue i d.ref with
        | none => .next s
        | some q =>
          match (s.queue q).entries with
          | [] => .next s
          | e :: _ =>
            let s := (s.readQueue q).1
            if leField e.bytes 0 2 ≠ r.desc ∨ leField e.bytes 4 4 ≠ d.pieceOffset r.piece then .next s
            else
              match s.hostBytes (leField e.bytes 16 8) (d.piece r.piece).2 with
              | none => .next s
              | some bs => .next ((s.forward 3 i (d.pieceOffset r.piece) bs).setRepair i 1 bs)
  | _, _ => .next s

/-- Is a wait for repair over: a source-1 request open, or a stopped stage without its reload, for repair_wait accepted
ticks (R347)? The stage, none when neither. -/
def State.repairExpired (s : State) (i : Nat) : Option Nat :=
  let x := s.inst i
  let w := s.fld Reg.FLT_CTRL 31 16
  match x.repairs with
  | r :: _ => if r.phase = 2 ∧ r.since + w ≤ x.ticks then some r.stage
    else (x.stages.find? (fun g => match g.stopTick with | some t => decide (t + w ≤ x.ticks) | none => false)).map (·.id)
  | [] => (x.stages.find? (fun g => match g.stopTick with | some t => decide (t + w ≤ x.ticks) | none => false)).map (·.id)

/-- REPAIR_WAIT_EXPIRY: the wait ends without repair, and the fault escalates (R347). -/
def execRepairWaitExpiry (i : Nat) (s : State) : Res :=
  match s.repairExpired i with
  | some sid => .next (s.noPath i sid 0xFFFF 0)
  | none => .next s

/-- Write the fetched piece of instance i before its stage's line start; the next repair begins (R345). -/
def State.writeRepair (s : State) (i : Nat) : State :=
  let x := s.inst i
  match x.repairs, x.image with
  | r :: rs, some im =>
    match im.repairs[r.desc]? with
    | none => s
    | some d =>
      if r.phase ≠ 3 then s
      else
        let s := match s.descBase i d with
          | some b => s.wrBytes (b + d.pieceOffset r.piece) r.bytes
          | none => s
        let s := if d.kind = 3 then s.cfgBytes d.unit r.bytes.length else s
        let s := s.setInst i { x with repairs := rs, stages := x.stages.map (fun g =>
          if d.kind = 2 ∨ g.id = r.stage then { g with repaired := true } else g) }
        let s := ((s.count Reg.FLT_REPAIRS).event (Reg.FLT_I_EVT i) 2).report 0x0D 0x0021 1 (some i) r.stage 0xFFFF
          (BitVec.ofNat 32 (d.piece r.piece).1)
        if rs.isEmpty then s.repairReg i else s.startRepair i
  | _, _ => s

end Sys2Proof.Machine
end

