-- ==== Sys2Proof/Machine/Bundle.lean ====
section
/-! DEFINITION. The T profile: the bundle with its ALU, move and token slots (R153 to R170, R202 to R208). -/

namespace Sys2Proof.Machine

/-! ### Lanes and fields -/

/-- Lane j of a lane register: 16 bits. -/
def lane16 (v : BitVec 128) (j : Nat) : BitVec 16 := v.extractLsb' (16 * j) 16
/-- The lane register of 8 lanes. -/
def ofLanes16 (g : Nat → BitVec 16) : BitVec 128 :=
  (List.range 8).foldl (fun v j => v ||| ((g j).setWidth 128 <<< (16 * j))) 0
/-- Lane j of la: 32 bits. -/
def laneLa (v : BitVec 256) (j : Nat) : Word := v.extractLsb' (32 * j) 32
/-- la of 8 lanes. -/
def ofLanesLa (g : Nat → Word) : BitVec 256 :=
  (List.range 8).foldl (fun v j => v ||| ((g j).setWidth 256 <<< (32 * j))) 0
/-- Bits hi:lo of a bundle slot, as a number. -/
def slotBits (w : DWord) (hi lo : Nat) : Nat := bits64 w hi lo

/-- Saturate to a signed 16-bit lane. -/
def sat16 (x : Int) : BitVec 16 := BitVec.ofInt 16 (max (-32768) (min 32767 x))
/-- Saturate to an unsigned 16-bit lane. -/
def satU16 (x : Int) : BitVec 16 := BitVec.ofInt 16 (max 0 (min 65535 x))

/-- Lane register n of a tile. -/
def Tile.lget (x : Tile) (n : Nat) : BitVec 128 := SMap.get 0 x.l n
/-- Write lane register n. -/
def Tile.lset (x : Tile) (n : Nat) (v : BitVec 128) : Tile := { x with l := SMap.set 0 n v x.l }
/-- Counter n of a tile. -/
def Tile.counter (x : Tile) (n : Nat) : Counter := SMap.get {} x.ctr n
/-- Write counter n. -/
def Tile.setCounter (x : Tile) (n : Nat) (c : Counter) : Tile := { x with ctr := SMap.set {} n c x.ctr }

/-! ### The ALU slot (R156, R203) -/

/-- What the ALU slot writes at the bundle's end. -/
structure AluOut where
  l : Option (Nat × BitVec 128) := none
  la : Option (BitVec 256) := none
  lf : Option Byte := none

/-- A lane of an integer kind: signed for v = 0, else unsigned. -/
def laneInt (v : Nat) (x : BitVec 16) : Int := if v = 0 then x.toInt else x.toNat

/-- Saturate or wrap by v: 0 signed, 1 unsigned, 2 wrapping. -/
def satBy (v : Nat) (x : Int) : BitVec 16 := if v = 0 then sat16 x else if v = 1 then satU16 x else BitVec.ofInt 16 x

/-- SHV: a signed shift by a lane value; a negative one goes right by RTZ (R203). -/
def shiftBy (x : Int) (n : Int) : Int := if 0 ≤ n then x * 2 ^ (min n.toNat 32) else shrRtz x (min (-n).toNat 32)

/-- Format of CVTF and CVTI by v. -/
def cvtFmt (v : Nat) : Nat := match v with | 0 => fmtFP16 | 1 => fmtBF16 | 2 => fmtE4M3 | _ => fmtE5M2

/-- INT16 with binary point b to a float bit pattern. -/
def laneToFloat (c b : Nat) (x : BitVec 16) : BitVec 16 :=
  BitVec.ofNat 16 (encodeElem c 0 (.fin (decide (x.toInt < 0)) x.toInt.natAbs (-(b : Int))) none)

/-- A float bit pattern to INT16 with binary point b. -/
def laneToInt (c b : Nat) (x : BitVec 16) : BitVec 16 :=
  BitVec.ofNat 16 (encodeElem fmtINT16 0 (scaleVal b (decodeElem c 0 (x.toNat % 2 ^ fmtWidth c))) none)

/-- The lane compare of CMPEQ, CMPLT, CMPLE. -/
def laneCmp (op v : Nat) (a b : BitVec 16) : Bool :=
  if op = 0x14 then a == b
  else if op = 0x15 then decide (laneInt v a < laneInt v b)
  else decide (laneInt v a ≤ laneInt v b)

/-- The register results of the ALU slot, lane by lane; none for an operation that writes no lane register. -/
def aluLane (op b v : Nat) (imm : BitVec 16) (la : Word) (lf : Bool) (x y : BitVec 16) : BitVec 16 :=
  match op with
  | 0x01 => satBy v (laneInt v x + laneInt v y)
  | 0x02 => satBy v (laneInt v x - laneInt v y)
  | 0x03 => sat16 (-x.toInt)
  | 0x04 => sat16 x.toInt.natAbs
  | 0x05 => if laneInt v y < laneInt v x then y else x
  | 0x06 => if laneInt v x < laneInt v y then y else x
  | 0x07 => x &&& y
  | 0x08 => x ||| y
  | 0x09 => x ^^^ y
  | 0x0B => satBy v (laneInt v x * 2 ^ b)
  | 0x0C => if v = 0 then BitVec.ofInt 16 (shrRtz x.toInt b) else x >>> b
  | 0x0E => sat16 (shiftBy x.toInt y.toInt)
  | 0x12 => if v = 0 then sat16 (shrRtz la.toInt b) else if v = 1 then la.extractLsb' 0 16 else la.extractLsb' 16 16
  | 0x17 => if lf then x else y
  | 0x19 => laneToFloat (cvtFmt v) b x
  | 0x1A => laneToFloat fmtFP4 b x
  | 0x1B => laneToInt (cvtFmt v) b x
  | 0x1C => laneToInt fmtFP4 b x
  | _ => imm

/-- Operations that write a lane register. -/
def aluWritesL (op : Nat) : Bool :=
  [0x01, 0x02, 0x03, 0x04, 0x05, 0x06, 0x07, 0x08, 0x09, 0x0B, 0x0C, 0x0E, 0x12, 0x17, 0x19, 0x1A, 0x1B, 0x1C, 0x1E].contains op

/-- The operations of R203 with the fields that each requires to be 0 and the v codes that it lists. -/
def aluOk (op d a b v : Nat) : Bool :=
  match op with
  | 0x00 | 0x07 | 0x08 | 0x09 | 0x0E | 0x17 | 0x1E => true
  | 0x01 | 0x02 => decide (v < 3)
  | 0x03 | 0x04 => b == 0
  | 0x05 | 0x06 => decide (v < 2)
  | 0x0B => decide (v < 3) && decide (b < 16)
  | 0x0C => decide (v < 2) && decide (b < 16)
  | 0x10 => decide (v < 2) && d == 0
  | 0x11 => d == 0
  | 0x12 => decide (v < 3)
  | 0x13 => d == 0 && a == 0 && b == 0
  | 0x14 | 0x15 | 0x16 => decide (v < 2) && d == 0
  | 0x19 | 0x1B => decide (b < 16)
  | 0x1A | 0x1C => decide (b < 16) && v == 0
  | _ => false

/-- The ALU slot over the registers `l` as the bundle reads them; `x` supplies la, lf and the old destination. -/
def aluSlot (x : Tile) (l : Nat → BitVec 128) (w : BitVec 24) : AluOut :=
  let n := w.toNat
  let op := n / 0x40000
  let d := n / 0x2000 % 32
  let a := n / 0x100 % 32
  let b := n / 8 % 32
  let pr := n.testBit 2
  let v := n % 4
  let on (j : Nat) : Bool := !pr || x.lf.getLsbD j
  if op = 0x10 ∨ op = 0x11 ∨ op = 0x13 then
    { la := some (ofLanesLa (fun j =>
        let p := laneInt v (lane16 (l a) j) * laneInt v (lane16 (l b) j)
        let q := (lane16 (l a) j).toInt * (lane16 (l b) j).toInt
        if !on j then laneLa x.la j
        else if op = 0x10 then BitVec.ofInt 32 p
        else if op = 0x11 then sat32 ((laneLa x.la j).toInt + q)
        else 0)) }
  else if op = 0x14 ∨ op = 0x15 ∨ op = 0x16 then
    { lf := some ((List.range 8).foldl (fun f j =>
        if (if on j then laneCmp op v (lane16 (l a) j) (lane16 (l b) j) else x.lf.getLsbD j) then f ||| (1#8 <<< j) else f) 0) }
  else if aluWritesL op then
    let imm := (BitVec.ofNat 10 (n / 8)).signExtend 16
    { l := some (d, ofLanes16 (fun j =>
        if on j then aluLane op b v imm (laneLa x.la j) (x.lf.getLsbD j) (lane16 (l a) j) (lane16 (l b) j)
        else lane16 (x.lget d) j)) }
  else {}

/-! ### The move slot (R178, R204, R206) -/

/-- Fields of a send target (R206). -/
def tgtKind (t : DWord) : Nat := bits64 t 63 62
def tgtCol (t : DWord) : Nat := bits64 t 61 56
def tgtRow (t : DWord) : Nat := bits64 t 55 51
def tgtQueue (t : DWord) : Nat := bits64 t 50 48
def tgtWindow (t : DWord) : Nat := bits64 t 47 40
def tgtBase (t : DWord) : Nat := bits64 t 23 0

def Tile.target (x : Tile) (n : Nat) : DWord := SMap.get 0 x.tgt n

/-- Operations of R204 with the fields that they do not use at 0; STGT of kind 3 and PUT to a queue target are illegal. -/
def movOk (x : Tile) (l : Nat → BitVec 128) (op r m : Nat) : Bool :=
  match op with
  | 0x00 | 0x01 | 0x02 | 0x04 => true
  | 0x03 => !m.testBit 6
  | 0x05 => m / 32 % 16 == 0
  | 0x06 => decide (m / 32 < 16)
  | 0x07 | 0x08 => m / 32 == 0
  | 0x09 => m / 8 == 0 && tgtKind ((l r).setWidth 64) != 3
  | 0x0A => m / 64 == 0 && (tgtKind (x.target (m % 8)) == 1 || tgtKind (x.target (m % 8)) == 2)
  | 0x0B | 0x0C => m / 8 == 0
  | 0x0D => r == 0
  | _ => false

/-- The lane register that the move slot writes. -/
def movDest (op r : Nat) : Option Nat := if [0x01, 0x03, 0x05, 0x06, 0x07, 0x0B].contains op then some r else none

/-- SHUF (R204): broadcast, reverse, rotate up. -/
def shuffle (v : BitVec 128) (p : Nat) : BitVec 128 :=
  ofLanes16 (fun j => lane16 v (if p < 8 then p else if p = 8 then 7 - j else (j + 8 - (p - 8)) % 8))

/-- A load by a program of tile (c, r) met poison (R155, R339): TIL_C_EVT.poison_read, and the stage taints its tokens
for the line in hand. -/
def State.tilePoison (s : State) (c r pc : Nat) (poison : Bool) : State :=
  if !poison then s
  else
    let s := s.event (Reg.TIL_C_EVT c) 6
    match s.colOwner c with
    | none => s
    | some i =>
      match (s.inst i).stageOfCol c with
      | some d =>
        (s.report 0x05 0x0206 1 (some i) d.id c (BitVec.ofNat 32 (0x10000 * r + pc))).modInst i
          (fun y => y.modStage d.id (fun g => { g with lineTaint := true }))
      | none => s

/-- Read `n` bytes of the tile's SRAM from `a`; addresses wrap within 16 KiB. The pieces read here do not cross the top. -/
def State.tileRead (s : State) (c r a n : Nat) : State × List Byte × Bool :=
  let p := s.tileAddr c r a
  let q := s.secded .tile p n
  (q.1, q.1.rdBytes p n, q.2)

/-- A store of the tile; addresses wrap within 16 KiB. -/
def State.tileWrite (s : State) (c r a : Nat) (bs : List Byte) : State := s.wrBytes (s.tileAddr c r a) bs

/-- Bytes of a lane register, lane 0 first (R87). -/
def lBytes (v : BitVec 128) : List Byte := leBytes 16 v.toNat

/-- Lane register of 16 bytes. -/
def lOf (bs : List Byte) : BitVec 128 := BitVec.ofNat 128 (leNat bs)

/-- An access of tile (c, r) outside the instance's run or windows is refused (R164, R206): flits counted, route_out,
TIL_C_ERR cause 4, an instance fault. -/
def State.routeDrop (s : State) (c r pc flits : Nat) : State :=
  let err : Word := BitVec.ofNat 32 (0x40000000 + 0x10000 * r + pc)
  let s := ((s.countBy (Reg.TIL_C_ROUTE_DROP c) flits).event (Reg.TIL_C_EVT c) 3).wr (Reg.TIL_C_ERR c) err
  let o := s.colOwner c
  let sid := match o with
    | some i => ((s.inst i).stageOfCol c).map (·.id) |>.getD 0
    | none => 0
  s.instFault o 0x05 0x0203 sid c err

/-- Is column `c2` in the run of the instance that owns column c (R164)? -/
def State.inRun (s : State) (c c2 : Nat) : Bool :=
  match s.colOwner c with
  | some i => s.ownsCol i c2
  | none => false

/-- PUT: 16 bytes to a send target (R204, R206); into no tile whose stage is held or reloading (R172). -/
def State.tilePut (s : State) (c r pc : Nat) (t : DWord) (ctr : BitVec 16) (v : BitVec 128) : State :=
  let u := tgtBase t + ctr.toNat
  if tgtKind t = 1 then
    if !s.inRun c (tgtCol t) then s.routeDrop c r pc 2
    else if s.tileWritable (tgtCol t) then s.tileWrite (tgtCol t) (tgtRow t) (16 * (u % 0x400)) (lBytes v)
    else s
  else
    match s.colOwner c with
    | none => s
    | some i => match s.window i (tgtWindow t) with
      | none => s.routeDrop c r pc 2
      | some w =>
        if w.size < 16 * u + 16 ∨ !w.access.testBit 1 then s.routeDrop c r pc 2
        else s.wrBytes (memAddr .bulk w.die (w.base + 16 * u)) (lBytes v)

/-- The lanes of `new` that lf selects, the others of `old`. -/
def lfLanes (lf : Byte) (new old : BitVec 128) : BitVec 128 :=
  ofLanes16 (fun j => if lf.getLsbD j then lane16 new j else lane16 old j)

/-- NACC (R178): the lanes that name one word are added to it in lane order, every addition saturating, and the word is written
once; a word that an address not a multiple of 4 names takes a free value. -/
def State.nacc (s : State) (c r pc : Nat) (v adr : BitVec 128) : State :=
  let a (j : Nat) : Nat := (lane16 adr j).toNat % 0x4000 / 4 * 4
  let words := ((List.range 8).map a).eraseDups
  words.foldl (fun s w =>
    let lanes := (List.range 8).filter (fun j => a j == w)
    let q := s.tileRead c r w 4
    let s := q.1.tilePoison c r pc q.2.2
    if lanes.any (fun j => (lane16 adr j).toNat % 4 != 0) then
      let f := s.draw
      f.2.tileWrite c r w (leBytes 4 f.1.toNat)
    else
      let sum := lanes.foldl (fun (t : Word) j => sat32 (t.toInt + (lane16 v j).toInt)) (BitVec.ofNat 32 (leNat q.2.1))
      s.tileWrite c r w (leBytes 4 sum.toNat)) s

/-- The move slot's effect on memory and its register result (R204). `l` and `x` are the registers as the bundle reads
them. The result is the state, the lane register written, a counter written by LTOC, and a target written by STGT. -/
def State.movSlot (s : State) (c r : Nat) (x : Tile) (l : Nat → BitVec 128) (op n m : Nat) :
    State × Option (BitVec 128) × Option (Nat × Counter) × Option (Nat × DWord) :=
  let pc := x.pc.toNat
  let load (a : Nat) : State × Option (BitVec 128) × Option (Nat × Counter) × Option (Nat × DWord) :=
    let q := s.tileRead c r (16 * (a % 0x400)) 16
    (q.1.tilePoison c r pc q.2.2, some (lOf q.2.1), none, none)
  let ctr (k : Nat) : Nat := (x.counter k).value.toNat
  match op with
  | 0x01 => load m
  | 0x02 => (s.tileWrite c r (16 * (m % 0x400)) (lBytes (l n)), none, none, none)
  | 0x03 => load (ctr (m / 128) + m % 64)
  | 0x04 =>
    let a := 16 * ((ctr (m / 128) + m % 64) % 0x400)
    if m.testBit 6 then
      ((List.range 8).foldl (fun s j =>
        if x.lf.getLsbD j then s.tileWrite c r (a + 2 * j) (leBytes 2 (lane16 (l n) j).toNat) else s) s, none, none, none)
    else (s.tileWrite c r a (lBytes (l n)), none, none, none)
  | 0x05 =>
    let v := l (m % 32)
    (s, some (if m.testBit 9 then lfLanes x.lf v (x.lget n) else v), none, none)
  | 0x06 => (s, some (shuffle (l (m % 32)) (m / 32)), none, none)
  | 0x07 =>
    let adr := l (m % 32)
    let q := (List.range 8).foldl (fun (q : State × BitVec 128) j =>
      let a := (lane16 adr j).toNat % 0x4000
      if a % 2 = 1 then
        let f := q.1.draw
        (f.2, q.2 ||| ((f.1.setWidth 16).setWidth 128 <<< (16 * j)))
      else
        let z := q.1.tileRead c r a 2
        (z.1.tilePoison c r pc z.2.2, q.2 ||| (BitVec.ofNat 128 (leNat z.2.1) <<< (16 * j)))) (s, 0)
    (q.1, some q.2, none, none)
  | 0x08 => (s.nacc c r pc (l n) (l (m % 32)), none, none, none)
  | 0x09 => (s, none, none, some (m % 8, (l n).setWidth 64))
  | 0x0A => (s.tilePut c r pc (x.target (m % 8)) (x.counter (m / 8)).value (l n), none, none, none)
  | 0x0B => (s, some ((x.counter (m % 8)).value.setWidth 128), none, none)
  | 0x0C =>
    (s, none, some (m % 8, { x.counter (m % 8) with value := lane16 (l n) 0, reload := lane16 (l n) 1 }), none)
  | 0x0D =>
    let s := s.tileWrite c r (16 * m) (leBytes 16 (x.la.setWidth 128).toNat)
    (s.tileWrite c r (16 * ((m + 1) % 0x400)) (leBytes 16 (x.la.extractLsb' 128 128).toNat), none, none, none)
  | _ => (s, none, none, none)

/-! ### The token slot (R165, R166, R205, R207) -/

/-- What the token slot does when the bundle commits. -/
structure TokOut where
  s : State
  waits : Bool := false
  /-- Stop cause 2: a reserved control code (R160). -/
  stop : Bool := false
  l : Option (BitVec 128) := none
  /-- Counters after the slot, and those whose value it changed. -/
  ctr : SMap Counter
  touched : List Nat := []
  /-- BIND: counter and its binding. -/
  bind : Option (Nat × Option Nat) := none
  sel : Option (BitVec 3) := none
  branch : Option Nat := none
  /-- TICKWAIT has returned: the line starts it has taken. -/
  starts : Option Nat := none
  /-- The wait is at a token queue. -/
  token : Bool := false

/-- The operations of R205 with the fields marked 0, the queue numbers and the target kinds. -/
def tokOk (x : Tile) (op n : Nat) : Bool :=
  let q := n / 0x1000 % 8
  match op with
  | 0x00 => true
  | 0x01 | 0x03 => n % 8 == 0 && decide (q < 6)
  | 0x02 => n % 8 == 0 && tgtKind (x.target q) == 0 && decide (tgtQueue (x.target q) < 6)
  | 0x04 => n % 0x8000 == 0
  | 0x05 | 0x06 | 0x07 | 0x08 | 0x09 => n % 2 == 0
  | 0x0A => n % 8 == 0 && q != 6
  | _ => false

/-- A counter takes its reload value. -/
def Counter.reloaded (k : Counter) : Counter := { k with value := k.reload }

/-- A token has been read from tile queue q: every counter bound to it decrements (R165). -/
def countDown (q : Nat) (m : SMap Counter) : SMap Counter × List Nat :=
  (List.range 8).foldl (fun (r : SMap Counter × List Nat) j =>
    let k := SMap.get {} m j
    if k.bound = some q then (SMap.set {} j { k with value := k.value - 1 } r.1, j :: r.2) else r) (m, [])

/-- Flags that Lenuk adds to tokens of the stage that holds column c (R161, R339, R343). -/
def State.tileTaint (s : State) (c : Nat) : Byte :=
  match s.colOwner c with
  | none => 0
  | some i => match (s.inst i).stageOfCol c with
    | none => 0
    | some d => match (s.inst i).stage d.id with
      | some g => flagIf (g.taint || g.lineTaint) flagTainted
      | none => 0

/-- RECV (R169, R205): with f = 1 a COUNT loads counter c and a SELECT the select register. Bit j of `perr`: word j of the
entry fails parity (R226). -/
def State.tokRecv (s : State) (x : Tile) (dev q ci : Nat) (f : Bool) (perr : BitVec 4) : TokOut :=
  let r := ((s.eccHead dev).upsetHead dev perr).readQueue dev
  match r.2 with
  | none => { s := r.1, waits := true, ctr := x.ctr, token := true }
  | some e =>
    if e.kind = kindControl ∧ !codeListed e.code then { s := r.1, stop := true, ctr := x.ctr }
    else
      let k := countDown q x.ctr
      let load := f && e.kind == kindControl && e.code == codeCount
      let k := if load then
          (SMap.set {} ci { SMap.get {} k.1 ci with value := e.value.extractLsb' 0 16 } k.1, ci :: k.2)
        else k
      { s := r.1, l := some (e.w1 ++ e.w0), ctr := k.1, touched := k.2
        sel := if f && e.kind == kindControl && e.code == codeSelect then some (e.value.extractLsb' 0 3) else none }

/-- SEND to a queue target (R166, R206, R207). -/
def State.tokSend (s : State) (x : Tile) (c r : Nat) (t : DWord) (v : BitVec 128) : TokOut :=
  if !s.inRun c (tgtCol t) then { s := s.routeDrop c r x.pc.toNat 1, ctr := x.ctr }
  else
    let e : Entry := { w0 := v.extractLsb' 0 64, w1 := v.extractLsb' 64 64, at_ := s.now }
    match s.pushWait (192 * tgtCol t + 6 * tgtRow t + tgtQueue t) (e.orFlags (s.tileTaint c)) with
    | some s => { s := s, ctr := x.ctr }
    | none => { s := s, waits := true, ctr := x.ctr, token := true }

/-- TICKWAIT: returns at the stage's next line start, at once when it has come (R19, R56, R205). -/
def State.tokTick (s : State) (x : Tile) (c : Nat) : TokOut :=
  let g := match s.colOwner c with
    | some i => match (s.inst i).stageOfCol c with
      | some d => (s.inst i).stage d.id
      | none => none
    | none => none
  match g with
  | some g => if x.starts < g.starts then { s := s, ctr := x.ctr, starts := some g.starts }
    else { s := s, waits := true, ctr := x.ctr }
  | none => { s := s, waits := true, ctr := x.ctr }

/-- The token slot. -/
def State.tokSlot (s : State) (c r : Nat) (x : Tile) (l : Nat → BitVec 128) (op n : Nat) (perr : BitVec 4) :
    TokOut :=
  let q := n / 0x1000 % 8
  let dev := 192 * c + 6 * r + q
  let ci := n / 16 % 8
  let target := n / 2 % 0x800
  let k := x.counter q
  let here : TokOut := { s := s, ctr := x.ctr }
  match op with
  | 0x01 => s.tokRecv x dev q ci (n.testBit 3) perr
  | 0x02 => s.tokSend x c r (x.target q) (l (n / 0x80 % 32))
  | 0x03 =>
    let w := s.waitQueue dev
    { s := w.1, waits := !w.2, ctr := x.ctr, token := true }
  | 0x04 => s.tokTick x c
  | 0x05 => { here with branch := some target }
  | 0x06 => if k.value = 0 then { here with branch := some target, ctr := SMap.set {} q k.reloaded x.ctr, touched := [q] } else here
  | 0x07 =>
    if k.value = 0 then { here with ctr := SMap.set {} q k.reloaded x.ctr, touched := [q] }
    else { here with branch := some target, ctr := SMap.set {} q { k with value := k.value - 1 } x.ctr, touched := [q] }
  | 0x08 => { here with branch := some ((target + x.sel.toNat) % 0x800) }
  | 0x09 => if x.lf != 0 then { here with branch := some target } else here
  | 0x0A => { here with bind := some (ci, if q = 7 then none else some q) }
  | _ => here

/-! ### The bundle -/

/-- A tile's program stops at a bundle (07, the TIL_C_ERR paragraph): every tile of the stage stops, an instance fault;
a poisoned fetch is a stage fault that awaits a reload (R339, R347). -/
def State.tileStop (s : State) (c r cause : Nat) (fetch : Bool) : State :=
  let x := s.tile c r
  let err : Word := BitVec.ofNat 32 (0x10000000 * cause + 0x10000 * r + x.pc.toNat)
  let s := (s.wr (Reg.TIL_C_ERR c) err).setTile c r { x with running := false, stopped := true, waitTick := none, waitKind := 0 }
  let s := s.event (Reg.TIL_C_EVT c) 0
  match s.colOwner c with
  | none => s.report 0x05 0x0200 0 none 0 c err
  | some i =>
    match (s.inst i).stageOfCol c with
    | some d =>
      if fetch then (s.report 0x05 0x0200 2 (some i) d.id c err).stopForReload i d
      else (s.stopTiles d).instFault (some i) 0x05 0x0200 d.id c err
    | none => s.instFault (some i) 0x05 0x0200 0 c err

/-- A bundle commits: the ALU, move and token results land together. LTOC and a token-slot write of one counter in one
bundle leave either value: a free value chooses. -/
def State.bundleCommit (s : State) (c r : Nat) (x : Tile) (a : AluOut) (movReg : Option Nat)
    (ml : Option (BitVec 128)) (mc : Option (Nat × Counter)) (mt : Option (Nat × DWord))
    (tr : Nat) (t : TokOut) : State :=
  let f := s.draw
  let y := match a.l with | some (d, v) => x.lset d v | none => x
  let y := { y with la := a.la.getD y.la, lf := a.lf.getD y.lf }
  let y := match movReg, ml with | some n, some v => y.lset n v | _, _ => y
  let y := match t.l with | some v => y.lset tr v | none => y
  let y := { y with ctr := t.ctr, sel := t.sel.getD y.sel, tgt := match mt with | some (k, v) => SMap.set 0 k v y.tgt | none => y.tgt }
  let clash := match mc with | some (k, _) => t.touched.contains k | none => false
  let y := match mc with
    | some (k, v) => if clash && f.1.getLsbD 0 then y else y.setCounter k v
    | none => y
  let y := match t.bind with | some (k, b) => y.setCounter k { y.counter k with bound := b } | none => y
  let y := { y with waitTick := none, waitKind := 0, starts := t.starts.getD y.starts
                    pc := match t.branch with | some n => BitVec.ofNat 11 n | none => y.pc + 1 }
  let s := if clash then f.2 else s
  let now := s.tile c r
  s.setTile c r { y with running := now.running, stopped := now.stopped }

/-- Tile cycles in which some tile of the column issued a bundle (TIL_C_BUSY): whether this bundle shares its cycle with
another tile's is timing, so a free value says whether the count rises. -/
def State.tileBusy (s : State) (c : Nat) : State :=
  let f := s.draw
  f.2.countBy (Reg.TIL_C_BUSY c) (f.1.toNat % 2)

/-- The columns whose routers a row leg from column c to column d meets, in at most `n` hops: from an express column with 8
or more columns to go it crosses 8 in one hop (R162). -/
def rowLeg : Nat → Nat → Nat → List Nat
  | 0, c, _ => [c]
  | n + 1, c, d =>
    if c = d then [c]
    else if c < d then c :: rowLeg n (if c % 8 = 0 ∧ c + 8 ≤ d then c + 8 else c + 1) d
    else c :: rowLeg n (if c % 8 = 0 ∧ d + 8 ≤ c then c - 8 else c - 1) d

/-- Does the route from tile (c, r) to send target t pass the router of physical column p, row q (R162): along the row,
then along the column; all within the instance's run (R164). A route to a window leaves the fabric in its row. The spares
that serve columns c and that of t carry the traffic at its ends, and a column's express traffic passes its spare (R180). -/
def State.passes (s : State) (c r : Nat) (t : DWord) (p q : Nat) : Bool :=
  let between (a b n : Nat) : Bool := decide (min a b ≤ n) && decide (n ≤ max a b)
  let own := p == s.colPhys c && q == r
  if tgtKind t < 2 then
    let d := tgtCol t
    let leg := rowLeg 64 c d
    let hops := leg.zip leg.tail
    s.inRun c d && (own || (q == r && (leg.contains p || hops.any (fun h => (h.1 + 8 == h.2 || h.2 + 8 == h.1)
        && (p == s.colPhys h.1 || p == s.colPhys h.2)))) || (p == d && between r (tgtRow t) q)
      || (p == s.colPhys d && q == tgtRow t))
  else (own || s.inRun c p) && q == r

/-- The router fault of a bundle that sends to the targets `ts`: physical column and row, where a route passes there. -/
def State.faultyRouter (s : State) (c r : Nat) (ts : List DWord) (router : Option (Nat × Nat)) : Option (Nat × Nat) :=
  router.filter (fun p => ts.any (fun t => s.passes c r t p.1 p.2))

/-- Send targets of a bundle's PUT and SEND. -/
def bundleTargets (x : Tile) (mop mx top tok : Nat) : List DWord :=
  (if mop = 0x0A then [x.target (mx % 8)] else []) ++ (if top = 2 then [x.target (tok / 0x1000 % 8)] else [])

/-- The bundle at the program counter of tile (c, r). -/
def State.bundleAt (s : State) (c r : Nat) : DWord :=
  BitVec.ofNat 64 (leNat (s.rdBytes (s.tileAddr c r (8 * (s.tile c r).pc.toNat)) 8))

/-- BUNDLE: tile (c, r) issues one bundle (R202 to R208), the one at its program counter: a command that carries another word is
no event of this tile and changes nothing (log entry 14). A bundle that needs a result not yet in waits for it (R185), so it
reads every register as the bundles before it wrote it. Nothing happens on a tile that does not run. Whether what a
bundle sends arrives past a router fault is a free value. -/
def execBundle (c r : Nat) (w : DWord) (perr : BitVec 4) (router : Option (Nat × Nat)) (s : State) : Res :=
  if !(s.tile c r).running then .next s
  else
    let f := s.secded .tile (s.tileAddr c r (8 * (s.tile c r).pc.toNat)) 8
    if f.2 then .next (f.1.tileStop c r 1 true)
    else if f.1.bundleAt c r ≠ w then .next s
    else
      let s := f.1
      let x := s.tile c r
      let alu := slotBits w 63 40
      let mop := slotBits w 39 35
      let mr := slotBits w 34 30
      let mx := slotBits w 29 20
      let tok := slotBits w 19 0
      let top := tok / 0x8000
      let tr := tok / 0x80 % 32
      let dests := (if aluWritesL (alu / 0x40000) then [alu / 0x2000 % 32] else [])
        ++ (movDest mop mr).toList ++ (if top = 1 then [tr] else [])
      if !(aluOk (alu / 0x40000) (alu / 0x2000 % 32) (alu / 0x100 % 32) (alu / 8 % 32) (alu % 4)
          && movOk x x.lget mop mr mx && tokOk x top tok && decide (dests.eraseDups.length = dests.length)) then
        .next (s.tileStop c r 1 false)
      else
        let bad := s.faultyRouter c r (bundleTargets x mop mx top tok) router
        let f := if bad.isSome then s.draw else (0, s)
        let lost := f.1.getLsbD 0
        let t : TokOut := if lost && top == 2 then { s := f.2, ctr := x.ctr } else f.2.tokSlot c r x x.lget top tok perr
        if t.stop then .next (t.s.tileStop c r 2 false)
        else if t.waits then
          let i := (t.s.colOwner c).getD 0
          let y := t.s.tile c r
          .next (t.s.setTile c r { y with waitKind := if t.token then 1 else 2
                                          waitTick := if t.token then some (y.waitTick.getD (t.s.inst i).ticks) else none })
        else
          let a := aluSlot x x.lget (BitVec.ofNat 24 alu)
          let m := if lost && mop == 0x0A then (t.s, none, none, none) else t.s.movSlot c r x x.lget mop mr mx
          let s := (m.1.bundleCommit c r x a (movDest mop mr) m.2.1 m.2.2.1 m.2.2.2 tr t).tileBusy c
          .next (match bad with
            | some p => s.routerFault p.1 p.2 x.pc.toNat
            | none => s)

end Sys2Proof.Machine
end

