-- ==== Sys2Proof/Machine/Tandem.lean ====
section
/-! DEFINITION. The tandem pair: the link, pairing, signatures, tests and verdicts, forwarded data, and the loss of the
partner (R365 to R377). -/

namespace Sys2Proof.Machine

/-! ### Messages (R368) -/

/-- HELLO: pair state, role, part, stepping and grade. -/
def State.hello (s : State) : List Byte :=
  message64 [8, BitVec.ofNat 8 s.tdm.st, BitVec.ofNat 8 s.tdm.role, 0, 0x8A, 0, 0xA1, BitVec.ofNat 8 (Config.grade % 2)]

/-- Raw bytes that a DATA message announces after its header. -/
def dataUnits (m : List Byte) : Nat := 64 * leField m 4 4

/-- Is the last message of the inbox a DATA message whose units have not all come? -/
def dataOpen (l : List Byte) : Bool := leField l 0 1 == 4 && decide (l.length < 64 + dataUnits l)

/-- A 64-byte message, or a unit of DATA, joins the inbox. PAD has no effect. -/
def takeMessage (inbox : List (List Byte)) (m : List Byte) : List (List Byte) :=
  match inbox.getLast? with
  | some l => if dataOpen l then inbox.dropLast ++ [l ++ m] else if leField m 0 1 = 0 then inbox else inbox ++ [m]
  | none => if leField m 0 1 = 0 then inbox else inbox ++ [m]

/-- The stream of ticks, writes and data keeps its order (R370). -/
def streamed (code : Nat) : Bool := code == 1 || code == 3 || code == 4

/-- The place of the first message of a code, with nothing of the ordered stream ahead of one that belongs to it. -/
def State.messageAt (s : State) (code : Nat) : Option (List Byte × Nat) :=
  match s.tdm.inbox.zipIdx.find? (fun m => leField m.1 0 1 == code || (streamed code && streamed (leField m.1 0 1))) with
  | some (m, n) => if leField m 0 1 = code ∧ !dataOpen m then some (m, n) else none
  | none => none

/-- The message of a code that is acted on next, and the state without it. -/
def State.takeMsg (s : State) (code : Nat) : Option (List Byte × State) :=
  (s.messageAt code).map (fun m => (m.1, { s with tdm := { s.tdm with inbox := s.tdm.inbox.eraseIdx m.2 } }))

/-- A tick of the lead is still to be delivered: writes and data behind it wait (R370). -/
def State.tickDue (s : State) : Bool := s.cad.due.any (fun d => d.src == 3)

/-! ### Pairing (R365, R366, R377) -/

/-- Is every instance unloaded? -/
def State.allUnloaded (s : State) : Bool := instNums.all (fun i => (s.inst i).st == .unloaded)

/-- TDM_CMD.pair: link training starts, with the link's sequences at their first values. -/
def State.startPair (s : State) (t : Nat) : State :=
  if !s.allUnloaded then s.event Reg.TDM_EVT 1
  else if s.tdm.strap = 0 ∨ s.tdm.strap = 3 ∨ s.tdm.st = 1 ∨ s.tdm.st = 2 then s
  else { s with tdm := { s.tdm with st := 1, prev := s.tdm.st, pairAt := t, txSeq := 1, rxSeq := 0, unacked := [], ahead := []
                                    inbox := [], sent := [], lastRx := t, lastTx := t, lastAck := t, dataIn := [] } }

/-- Pairing fails: back to the state before. -/
def State.pairFail (s : State) : State :=
  { s with tdm := { s.tdm with st := s.tdm.prev } }.event Reg.TDM_EVT 1

/-- PAIR_TIMEOUT: no HELLO within 100 ms. -/
def execPairTimeout (t : Nat) (s : State) : Res :=
  let s := s.at_ t
  s.onlyIf (s.tdm.st == 1 && decide (s.tdm.pairAt + 100000000 ≤ s.now)) s.pairFail

/-- HELLO_SEND: a link that has carried no frame for 250 ns. -/
def execHelloSend (t : Nat) (s : State) : Res :=
  let s := s.at_ t
  s.onlyIf ((s.tdm.st == 1 || s.tdm.st == 2) && decide (s.tdm.lastTx + 250 ≤ s.now)) (s.tdmFrame [s.hello])

/-- Do roles complement each other, and part, stepping and grade agree? -/
def State.helloFits (s : State) (m : List Byte) : Bool :=
  ((s.tdm.role == 1 && leField m 2 1 == 2) || (s.tdm.role == 2 && leField m 2 1 == 1))
    && (m.drop 4).take 4 == (s.hello.drop 4).take 4

/-- At pairing the follower's store is formatted, with fence list and bad-block marks kept, and serves (R377). -/
def State.prepareStore (s : State) : State :=
  if s.tdm.role = 2 ∧ s.store.st ≠ 0 ∧ s.store.st ≠ 1 then s.format.modStore (fun y => { y with st := 2 }) else s

/-- The committed boot images. -/
def State.bootImages (s : State) : List Txn := s.store.txns.filter (fun t => t.kind == 3 && t.phase == 2)

/-- The lead copies its boot partition to the follower as DATA (R377), image n under the id 256 + n. -/
def State.copyBoot (s : State) : State := s.bootImages.foldl (fun s t => s.forward 4 (256 + t.index) 0 t.payload) s

/-- HELLO: in pairing it completes the pair, or fails it (R366). -/
def execHelloMsg (t : Nat) (s : State) : Res :=
  let s := s.at_ t
  match s.takeMsg 8 with
  | none => .next s
  | some (m, s) =>
    if s.tdm.st ≠ 1 then .next s
    else if !s.helloFits m then .next s.pairFail
    else
      let r := s.draw
      let s := (r.2.wr Reg.TDM_LINK_NS (BitVec.ofNat 32 (r.1.toNat % 4096))).prepareStore
      let s := { s with tdm := { s.tdm with st := 2 } }.event Reg.TDM_EVT 0
      .next s.copyBoot

/-! ### The link (R367) -/

/-- Is a frame one of the link: type 0x3 and the fields of the table? -/
def Vlf.linkOk (v : Vlf) : Bool :=
  v.h0.toNat / 2 ^ 32 == 0x13000000 && v.h1.toNat / 2 ^ 32 == 0 && v.pixelOffset == 0 && decide (1 ≤ v.pixelCount)
    && decide (v.pixelCount ≤ 16) && v.payloadWords == 8 * v.pixelCount && bits64 v.h2 15 0 == 0 && bits64 v.trailer 63 32 == 0

/-- The messages of a frame: the payload's octets, in order. -/
def Vlf.messages (v : Vlf) : List (List Byte) :=
  let bs := octets v.payload
  (List.range (bs.length / 64)).map (fun k => slice bs (64 * k) 64)

/-- Frames held ahead of a gap that are now in order join the inbox. -/
def Tandem.advance (y : Tandem) : Nat → Tandem
  | 0 => y
  | n + 1 =>
    match y.ahead.find? (fun f => f.seq == y.rxSeq + 1) with
    | some f => Tandem.advance { y with rxSeq := f.seq, ahead := y.ahead.filter (fun g => g.seq != f.seq)
                                        inbox := f.msgs.foldl takeMessage y.inbox } n
    | none => y

/-- A good frame: in order, ahead of a gap (up to 64 are held), or received twice. -/
def Tandem.receive (y : Tandem) (f : LinkFrame) : Tandem :=
  if f.seq = y.rxSeq ∨ isAfter y.rxSeq f.seq ∨ y.ahead.any (fun g => g.seq == f.seq) then y
  else if f.seq ≠ y.rxSeq + 1 ∧ 64 ≤ y.ahead.length then y
  else Tandem.advance { y with ahead := y.ahead ++ [f] } 65

/-- The partner acknowledges every frame up to `a`. -/
def Tandem.acked (y : Tandem) (a : Word) (now : Nat) : Tandem :=
  let left := y.unacked.filter (fun f => isAfter f.seq a)
  { y with unacked := left, lastAck := if left.length < y.unacked.length then now else y.lastAck }

/-- A frame of tandem lane j is discarded: a notice (R337); the manual gives the log no event bit, so the code's is open. -/
def State.tandemDiscard (s : State) (j : Nat) : State :=
  let r := s.draw
  r.2.report 0x10 (0x0300 + r.1.toNat % 256) 0 none 0 j 0

/-- TANDEM_FRAME: a frame on a tandem lane is received, ordered and acknowledged. A frame that fails R36 or R37 is
discarded. -/
def execTandemFrame (fr : Frame) (t : Nat) (s : State) : Res :=
  let s := s.at_ t
  if 8 ≤ fr.lane ∨ !s.bit Reg.TDM_LANE_EN fr.lane ∨ s.isFenced 7 fr.lane
      ∨ s.flt.testing.any (fun j => j.kind == 7 && j.unit == fr.lane) then .next s
  else
    let s := { s with tdm := { s.tdm with lanesUp := s.tdm.lanesUp ||| BitVec.ofNat 8 (2 ^ fr.lane) } }
    match parseFrame fr with
    | none => .next (s.tandemDiscard fr.lane)
    | some v =>
      if v.crc.toNat ≠ bits64 v.trailer 31 0 ∨ !v.linkOk then .next (s.tandemDiscard fr.lane)
      else if s.tdm.st ≠ 1 ∧ s.tdm.st ≠ 2 then .next s
      else
        let y := (s.tdm.acked v.stamp s.now).receive { seq := v.seq, msgs := v.messages }
        .next { s with tdm := { y with lastRx := s.now } }

/-- REPLAY_TIMEOUT: no acknowledgement has advanced for 500 ns, so every unacknowledged frame goes out again. -/
def execReplayTimeout (t : Nat) (s : State) : Res :=
  let s := s.at_ t
  s.onlyIf ((s.tdm.st == 1 || s.tdm.st == 2) && !s.tdm.unacked.isEmpty && decide (s.tdm.lastAck + 500 ≤ s.now))
    ({ s with tdm := { s.tdm with sent := s.tdm.unacked.reverse ++ s.tdm.sent, lastTx := s.now, lastAck := s.now } }.countBy
      Reg.TDM_REPLAYS s.tdm.unacked.length)

/-! ### Signatures and tests (R371 to R373) -/

/-- SIG: the partner's signature meets the result that waits for it, or waits for the result. -/
def execSigMsg (t : Nat) (s : State) : Res :=
  match (s.at_ t).takeMsg 2 with
  | none => .next (s.at_ t)
  | some (m, s) =>
    let p : Sign := { inst := leField m 1 1, void := leField m 2 1 == 1, line := BitVec.ofNat 32 (leField m 4 4)
                      sig := BitVec.ofNat 32 (leField m 8 4), flags := BitVec.ofNat 8 (leField m 12 1) }
    match s.tdm.waiting.find? (fun w => w.1.inst == p.inst && w.1.line == p.line) with
    | some (g, _) =>
      .next (({ s with tdm := { s.tdm with waiting := s.tdm.waiting.filter (fun w => w.1 != g) } } : State).resolve g (g.classify p))
    | none => .next { s with tdm := { s.tdm with partner := s.tdm.partner ++ [p] } }

/-- CMP_WAIT_EXPIRY: the result of instance i has waited TDM_CMP_WAIT ns: timing while paired, else solo. -/
def execCmpWaitExpiry (i t : Nat) (s : State) : Res :=
  let s := s.at_ t
  match s.tdm.waiting.find? (fun w => w.1.inst == i && decide (w.2 + s.fld Reg.TDM_CTRL 11 0 ≤ s.now)) with
  | none => .next s
  | some (g, _) =>
    .next (({ s with tdm := { s.tdm with waiting := s.tdm.waiting.filter (fun w => w.1 != g) } } : State).resolve g
      (if s.tdm.st = 2 then .timing else .agree))

/-- TEST: the follower schedules the lead's test of an instance (R372). -/
def execTdmTest (t : Nat) (s : State) : Res :=
  match (s.at_ t).takeMsg 5 with
  | none => .next (s.at_ t)
  | some (m, s) =>
    let i := leField m 1 1
    if 8 ≤ i then .next s
    else
      let a := Reg.TDM_I_STAT i
      let s := (s.setFld a 31 31 1).setFld a 13 8 ((s.fld a 13 8 + 1) % 64)
      .next { s with tdm := { s.tdm with tests := s.tdm.tests ++ [(i, leField m 2 1, leField m 3 1, leField m 8 8)] } }

/-- The march tests of every bank of an instance's engines, columns and cores (R372). -/
def State.marchInst (s : State) (i : Nat) : State :=
  let job (s : State) (kind unit : Nat) : State :=
    s.queueTest { kind := kind, unit := unit, cause := 2, logical := 0xFFFF, spoiled := false }
  let s := (maskUnits (s.engMask i) 64).foldl (fun s e =>
    let p := s.engPhys e
    job (job ((List.range 16).foldl (fun s b => job s 16 (16 * p + b)) s) 17 p) 18 p) s
  let s := ((List.range 64).filter (s.ownsCol i)).foldl (fun s c => (List.range 128).foldl (fun s b => job s 19 (128 * s.colPhys c + b)) s) s
  ((List.range 128).filter (s.ownsCore i)).foldl (fun s k => (List.range 4).foldl (fun s b => job s 20 (4 * k + b)) s) s

/-- A test of this unit is queued or runs. -/
def State.testWaits (s : State) (kind unit : Nat) : Bool :=
  (s.flt.testQ ++ s.flt.testing).any (fun j => j.kind == kind && j.unit == unit)

/-- A scheduled tandem test takes effect: the engine and the column are replaced and tested, and the banks are marched. A test
that the full queue has dropped (R351) is not run, and counts as a pass as a skipped one does (R373). -/
def State.runTandemTest (s : State) (i e c : Nat) : State :=
  let s := if e < 64 then s.queueTest { kind := 0, unit := s.engPhys e, cause := 2, logical := e, spoiled := false } else s
  let s := if c < 64 then s.queueTest { kind := 1, unit := s.colPhys c, cause := 2, logical := c, spoiled := false } else s
  let v : Verdict := { engine := e, column := c, engLeft := decide (e < 64) && s.testWaits 0 (s.engPhys e)
                       colLeft := decide (c < 64) && s.testWaits 1 (s.colPhys c), failed := false }
  let s := { s with tdm := { s.tdm with verdictMine := SMap.put i v s.tdm.verdictMine } }
  (s.marchInst i).sendVerdict i

/-- VERDICT: the partner's verdict of an instance's test (R372). -/
def execVerdictMsg (t : Nat) (s : State) : Res :=
  match (s.at_ t).takeMsg 6 with
  | none => .next (s.at_ t)
  | some (m, s) =>
    .next (({ s with tdm := { s.tdm with verdictTheirs := SMap.put (leField m 1 1) (leField m 2 1 % 2) s.tdm.verdictTheirs } } : State).judgeVerdicts
      (leField m 1 1))

/-- MARK: the last line mirrored and the last edition published by the lead (R375). -/
def execMarkMsg (t : Nat) (s : State) : Res :=
  match (s.at_ t).takeMsg 7 with
  | none => .next (s.at_ t)
  | some (m, s) =>
    let i := leField m 1 1
    let s := { s with tdm := { s.tdm with markLine := SMap.put i (BitVec.ofNat 32 (leField m 4 4)) s.tdm.markLine } }
    .next (s.modInst i (fun x => { x with unmarked := x.unmarked.filter (fun d => isAfter (BitVec.ofNat 32 d.num) (BitVec.ofNat 32 (leField m 8 4))) }))

/-! ### Loss of the partner (R374 to R376) -/

/-- The partner is lost: solo; a follower takes over from its next tick, delivered TDM_DELAY after its instant. -/
def State.losePartner (s : State) : State :=
  let follower := s.tdm.role == 2
  let s := (s.endPair 3).event Reg.TDM_EVT 4
  if follower then { s with tdm := { s.tdm with takeover := true, delayed := true } } else s

/-- PARTNER_LOSS: no frame for TDM_LOSS ns, or no lane in block lock. -/
def execPartnerLoss (t : Nat) (s : State) : Res :=
  let s := s.at_ t
  s.onlyIf (s.tdm.st == 2 && (decide (s.tdm.lastRx + s.fld Reg.TDM_LOSS 15 0 ≤ s.now) || s.tdm.lanesUp == 0)) s.losePartner

/-- LEAVE: the partner leaves. -/
def execLeaveMsg (t : Nat) (s : State) : Res :=
  match (s.at_ t).takeMsg 9 with
  | none => .next (s.at_ t)
  | some (_, s) => s.onlyIf (s.tdm.st == 2) s.losePartner

/-- FAULT: the partner reports an instance fault; one that this device has reported too keeps the pair (R376). -/
def execFaultMsg (t : Nat) (s : State) : Res :=
  match (s.at_ t).takeMsg 10 with
  | none => .next (s.at_ t)
  | some (m, s) =>
    let i := leField m 1 1
    if s.tdm.faults.any (fun f => f.1 == i) then
      .next { s with tdm := { s.tdm with faults := s.tdm.faults.filter (fun f => f.1 != i) } }
    else .next { s with tdm := { s.tdm with theirs := s.tdm.theirs ++ [i] } }

/-- FAULT_WAIT_EXPIRY: the partner has not reported instance i's fault within 2 ticks (R376). -/
def execFaultWaitExpiry (i t : Nat) (s : State) : Res :=
  let s := s.at_ t
  s.onlyIf (s.tdm.faults.any (fun f => f.1 == i && decide (f.2 + 2 ≤ s.devTick))) (s.leavePair 2)

/-- TDM_REPAIR: the partner asks for a piece; a piece with a poisoned word is answered without units (R376). -/
def execTdmRepair (t : Nat) (s : State) : Res :=
  match (s.at_ t).takeMsg 11 with
  | none => .next (s.at_ t)
  | some (m, s) =>
    let i := leField m 1 1
    let off := leField m 4 4
    match (s.inst i).image with
    | none => .next s
    | some im =>
      match im.repairs[leField m 2 1]? with
      | none => .next s
      | some d =>
        match s.descBase i d with
        | none => .next s
        | some b =>
          let n := match (List.range (d.length / 4096 + 2)).find? (fun k => d.pieceOffset k == off) with
            | some k => (d.piece k).2
            | none => 0
          if s.poisoned (b + off) n then .next (s.tdmFrame (dataMessage 3 i off []))
          else .next (State.postData 3 i (n / 960 + 1) off (s.rdBytes (b + off) n) s)

/-! ### Forwarded data (R370, R377) -/

/-- Bytes of DATA join those of the same kind and id that they continue; offset 0 begins anew. -/
def addData (l : List DataIn) (d : DataIn) : List DataIn :=
  match l.find? (fun e => e.kind == d.kind && e.id == d.id && e.off + e.bytes.length == d.off) with
  | some e => l.map (fun f => if f = e then { e with bytes := e.bytes ++ d.bytes } else f)
  | none => l.filter (fun e => !(e.kind == d.kind && e.id == d.id)) ++ [d]

/-- An image or patch of a paired follower is taken in once its length has come. -/
def State.dataLanded (s : State) (kind id : Nat) : State :=
  let n := s.fld (Reg.INS_I_LOAD_LEN id) 29 0
  if 8 ≤ id then s
  else
    match s.dataBytes kind id 0 n with
    | none => s
    | some bs =>
      if n = 0 then s
      else if kind = 1 ∧ (s.inst id).st = .loading ∧ (s.inst id).load.isNone ∧ !s.bit (Reg.INS_I_LOAD_SRC id) 31 then
        (s.dropData 1 id).modInst id (fun x => { x with load := some (some bs) })
      else if kind = 2 ∧ s.bit (Reg.INS_I_CMD id) 3 ∧ (s.inst id).reload.isNone then (s.dropData 2 id).copyPatch id (some bs)
      else s

/-- A boot image of the lead is whole once its image_size has come (R69, R377). -/
def State.bootLanded (s : State) (id : Nat) : State :=
  match s.dataBytes 4 id 0 64 with
  | none => s
  | some h =>
    match s.dataBytes 4 id 0 (leField h 8 4) with
    | none => s
    | some bs => if s.storeOpen then ((s.dropData 4 id).wholeAndCommit 3 1 0xFF 0 (id - 256) bs).2 else s

/-- Entries of a host-to-device queue come in (R370). -/
def State.queueLanded (s : State) (q : Nat) (bs : List Byte) : State :=
  if (s.queue q).qkind ≠ qH2D then s
  else (List.range (bs.length / 64)).foldl (fun s k =>
    if (s.queue q).full then s else s.pushEntry q (hostEntry (slice bs (64 * k) 64))) s

/-- DATA: forwarded bytes are taken, once every tick ahead of them has been delivered. -/
def execDataMsg (t : Nat) (s : State) : Res :=
  let s := s.at_ t
  if s.tickDue then .next s
  else
    match s.takeMsg 4 with
    | none => .next s
    | some (m, s) =>
      let k := leField m 1 1
      let id := leField m 2 2
      let bs := (m.drop 64).take (dataUnits m)
      if k = 0 then .next (s.queueLanded id bs)
      else
        let s := { s with tdm := { s.tdm with dataIn := addData s.tdm.dataIn { kind := k, id := id, off := leField m 8 8, bytes := bs } } }
        .next (if k = 4 ∧ 256 ≤ id then s.bootLanded id else if k = 1 ∨ k = 2 then s.dataLanded k id else s)

end Sys2Proof.Machine
end

