-- ==== Sys2Proof/Machine/Clocks.lean ====
section
/-! DEFINITION. Clocks, power and thermal: gating and the derailleur, the reference monitor and its fallback, the brake,
the thermal samples, and the power comparators (R329 to R331, R378 to R396, R423). -/

namespace Sys2Proof.Machine

/-! ### Gating and ramps (R382 to R385) -/

/-- A core that keeps its domain awake: it neither waits in TICKWAIT nor on a queue, nor is it stopped. -/
def Core.busy (c : Core) : Bool := c.st == .running

/-- A tile that keeps its domain awake. -/
def Tile.busy (t : Tile) : Bool := t.running && t.waitKind == 0

/-- Are the units of stage id of instance x being written: by a load, or by a reload of the stage? -/
def Inst.writing (x : Inst) (id : Nat) : Bool :=
  x.st == .loading || (match x.stage id with | some g => g.st == .reloading | none => false)

/-- Is a unit of instance o, of the stage that `d` gives, being written? -/
def State.unitWriting (s : State) (o : Option Nat) (d : Inst → Option StageDesc) : Bool :=
  match o with
  | none => false
  | some i => (match d (s.inst i) with | some d => (s.inst i).writing d.id | none => (s.inst i).st == .loading)

/-- Does engine e move weights or rows over a bulk link? -/
def Engine.onLink (g : Engine) : Bool := !g.fills.isEmpty || g.queue.any (fun d => d.cls == clsLOADW)

/-- Bulk link n is at rest: no task runs on its transfer engines or in an instance with a window on its die, and no engine of such
an instance loads. -/
def State.linkIdle (s : State) (n : Nat) : Bool :=
  let holds (i : Nat) : Bool := (s.domsOf i).contains (88 + n)
  s.tasks.all (fun t => t.eng / 4 != n && !holds t.inst)
    && (List.range 64).all (fun e => !((s.engine e).onLink && (match s.engOwner e with | some i => holds i | none => false)))

/-- Is domain d idle: nothing in hand in its units, no configuration write, and every program waits (R382)? -/
def State.domIdle (s : State) (d : Nat) : Bool :=
  if d < 64 then
    let g := s.engine d
    g.queue.isEmpty && g.epis.isEmpty && g.fills.isEmpty && g.swap != 2
      && !s.unitWriting (s.engOwner d) (fun x => x.stageOfEngine d)
  else if d < 80 then
    (List.range 4).all (fun k => let c := 4 * (d - 64) + k
      tileRows.all (fun r => !(s.tile c r).busy)
      && !(match s.flt.takeover with | some t => t.on && t.col == c | none => false)
      && !s.unitWriting (s.colOwner c) (fun x => x.stageOfCol c))
  else if d < 88 then (List.range 16).all (fun k => let c := 16 * (d - 80) + k
    !(s.core c).busy && !s.unitWriting (s.coreOwner c) (fun x => x.stageOfCore c))
  else s.linkIdle (d - 88)

/-! ### Register domains, and the check of a domain that wakes (R402, R407, R408) -/

/-- Rows of instances: first offset, stride. -/
def instRows : List (Nat × Nat) := [
  (Reg.CAD_I_PMIN 0, 0x40), (Reg.INL_I_SEQ 0, 0x10), (Reg.OUT_I_QUEUES 0, 0x80), (Reg.XFR_I_STAT 0, 0x20),
  (Reg.INS_I_STAT 0, 0x80), (Reg.INS_I_ALLOW 0 0, 0x40), (Reg.ADP_I_CTRL 0, 0x40), (Reg.ADP_I_TRAINED 0, 0x10),
  (Reg.ACT_I_QUEUES 0, 0x40), (Reg.STO_I_BUF 0, 0x20), (Reg.FLT_I_LOG_HEAD 0, 0x40), (Reg.TDM_I_STAT 0, 0x20)]

/-- The instance whose row holds offset a. -/
def instRow (a : Nat) : Option Nat :=
  (instRows.find? (fun r => decide (r.1 ≤ a) && decide (a < r.1 + 8 * r.2))).map (fun r => (a - r.1) / r.2)

/-- The unit whose row holds offset a: kind 0 engine, 1 column, 2 core, and number. -/
def unitRow (a : Nat) : Option (Nat × Nat) :=
  let row (base n kind : Nat) : Option (Nat × Nat) :=
    if base ≤ a ∧ a < base + 0x40 * n then some (kind, (a - base) / 0x40) else none
  (row (Reg.ENG_E_STAT 0) 64 0).orElse (fun _ => (row (Reg.TIL_C_STAT 0) 64 1).orElse (fun _ => row (Reg.SVC_K_STAT 0) 128 2))

/-- Owner of a unit. -/
def State.unitOwner (s : State) (kind u : Nat) : Option Nat :=
  if kind = 0 then s.engOwner u else if kind = 1 then s.colOwner u else s.coreOwner u

/-- The clock domain of the register at offset a (R402). -/
def regDomain (a : Nat) : Nat :=
  if a < 0x10000 then 106
  else match unitRow a with
    | some (0, e) => e
    | some (1, c) => 64 + c / 4
    | some (_, k) => 80 + k / 16
    | none =>
      match a / 0x10000 with
      | 0x16 => 107 | 0x17 => 107 | 0x10 => 109 | 0x1F => 110 | 0x1B => 111 | 0x20 => 113 | 0x1D => 114 | 0x1E => 114
      | _ => 108

/-- The instance that owns the register of a parity key: its row, its unit's row, its queue, or its function's own register. -/
def State.parityOwner (s : State) (key : Nat) : Option Nat :=
  let a := key % 2 ^ 26
  let f := key / 2 ^ 26
  if 16 ≤ f then (let o := (s.queue (f - 16)).owner; if o < 8 then some o else none)
  else if 1 ≤ f then some (f - 1)
  else match instRow a with
    | some i => some i
    | none => match unitRow a with | some (k, u) => s.unitOwner k u | none => none

/-- A mismatch stands in the register of a parity key. -/
def State.parityStands (s : State) (key : Nat) : State :=
  { s with hif := { s.hif with parityBad := insKey key s.hif.parityBad } }

/-- A mismatch is found: counted, recorded, logged, and acted on (R408). -/
def State.parityFault (s : State) (key : Nat) : State :=
  let a := key % 2 ^ 26
  let s := s.parityStands key
  let s := { s with hif := { s.hif with parityReported := insKey key s.hif.parityReported } }
  let s := (s.count Reg.HIF_PAR_COUNT).event Reg.HIF_EVT 0
  let s := if s.bit Reg.HIF_PAR_ADDR 31 then s else s.wr Reg.HIF_PAR_ADDR (BitVec.ofNat 32 (2 ^ 31 + a))
  match s.parityOwner key with
  | some i => s.instFault (some i) 0x11 0 0 0xFFFF (BitVec.ofNat 32 a)
  | none => s.deviceFault 0x11 0 0xFFFF (BitVec.ofNat 32 a)

/-- The mismatches that stand unreported in domain d are found. -/
def State.checkParity (s : State) (d : Nat) : State :=
  (s.hif.parityBad.filter (fun k => !s.hif.parityReported.contains k && regDomain (k % 2 ^ 26) == d)).foldl State.parityFault s

/-- Domain d wakes; one that was gated is checked before any access proceeds (R407). -/
def State.woken (s : State) (d : Nat) : State :=
  let s' := s.wakeDom d
  if (s.dom d).gated && !(s'.dom d).gated then s'.checkParity d else s'

/-- GATE: a domain idle for 32 base cycles and not kept begins its descent. -/
def execGate (dom t : Nat) (s : State) : Res :=
  let s := s.at_ t
  let x := s.dom dom
  s.onlyIf (gateable dom && s.bit Reg.CLK_CTRL 0 && !s.kept dom && s.domIdle dom && !x.gated && x.ramp == 0 && !x.stopped)
    (s.setDom dom { x with ramp := 2 })

/-- WAKE: work, a tick or a register access for a domain that is gated or descending. -/
def execWake (dom t : Nat) (s : State) : Res := .next ((s.at_ t).woken dom)

/-- One ratio on the way from `r` to `target`. -/
def stepRatio (r target : Nat) : Nat := if target < r then r - 1 else if r < target then r + 1 else r

/-- May domain d not gate: it is kept (R67, R383), or CLK_CTRL.gate_en is 0. A device parked for heat overrides both (R396). -/
def State.staysUp (s : State) (d : Nat) : Bool := !s.bit Reg.PWR_STAT 28 && (s.kept d || !s.bit Reg.CLK_CTRL 0)

/-- RAMP_STEP: a hold of 64 base cycles ends, and the ratio moves one step; a descent ends gated, or turns back in a domain that
may not gate. -/
def execRampStep (dom t : Nat) (s : State) : Res :=
  let s := s.at_ t
  let x := s.dom dom
  if !gateable dom || x.ramp == 0 || x.stopped then .next s
  else if x.ramp = 2 then
    if s.staysUp dom then .next (s.wakeDom dom)
    else .next (s.setDom dom (if x.ratio < 3 then { x with ratio := x.ratio + 1 } else { x with ramp := 0, gated := true }))
  else
    let r := stepRatio x.ratio (s.domTarget dom)
    .next (s.setDom dom { x with ratio := r, ramp := if r = s.domTarget dom then 0 else x.ramp })

/-- CLK_D_CFG takes a value: a new divider starts a ramp, or becomes the target of the one in hand; force_on wakes a gated
domain. -/
def State.setDiv (s : State) (d : Nat) (v : Word) : State :=
  let s := s.wr (Reg.CLK_D_CFG d) (if gateable d then v &&& 0x103 else v &&& 0x100)
  let x := s.dom d
  let s := if gateable d && !x.gated && x.ramp == 0 && !x.stopped && x.ratio != s.domTarget d then
      s.setDom d { x with ramp := 3 }
    else s
  if s.bit (Reg.CLK_D_CFG d) 8 then s.woken d else s

/-! ### Reference monitor and fallback (R386, R387) -/

/-- Domains that run on through a loss of the reference: PLL7's, store, NAND, management and monitor, and the host domain
when the recovered reference is the one lost. -/
def survives (recovered : Bool) (d : Nat) : Bool :=
  d == 104 || d == 105 || d == 111 || d == 112 || d == 114 || d == 115 || (recovered && d == 106)

/-- A domain stops, its ramp abandoned and its brake ended. -/
def State.stopDom (s : State) (d : Nat) : State :=
  let x := s.dom d
  let s := { s with cad := { s.cad with braked := SMap.set 0 d (s.brakedNow d) s.cad.braked } }
  s.setDom d { x with stopped := true, ramp := 0, braked := false }

/-- The reference is lost (R387). A loss already in force changes nothing more. -/
def State.loseReference (s : State) : State :=
  if s.clk.onRc then s
  else
    let rec_ := s.bit Reg.CLK_STAT 28
    let s := ((s.setBit Reg.CLK_STAT 30 false).setBit Reg.CLK_STAT 31 true).count Reg.CLK_FALLBACKS
    let s := { s with clk := { s.clk with refLost := true, onRc := true, good := 0 } }
    let s := ((s.event Reg.CLK_EVT 0).report 0x0E 0x0000 5 none 0 0xFFFF 0).nonMaskable.parkAll
    let s := ({ s with flt := { s.flt with down := true }
                       cad := { s.cad with outAt := [], outLevel := false } }.closeStore 0).leavePair 4
    ((List.range 116).filter (fun d => !survives rec_ d)).foldl State.stopDom s

/-- MONITOR_WINDOW: a window of the monitor ends with `n` reference cycles. -/
def execMonitorWindow (n t : Nat) (s : State) : Res :=
  let s := (s.at_ t).wr Reg.CLK_MON (BitVec.ofNat 32 (min n 0xFFFF))
  let ok := decide (s.fld Reg.CLK_MON_LIM 11 0 ≤ n) && decide (n ≤ s.fld Reg.CLK_MON_LIM 27 16)
  if ok then
    let s := { s with clk := { s.clk with good := s.clk.good + 1 } }
    .next (if (if s.clk.refLost then 16 else 4) ≤ s.clk.good then s.setBit Reg.CLK_STAT 30 true else s)
  else
    let s := { s with clk := { s.clk with good := 0 } }.event Reg.CLK_EVT 1
    .next (if s.bit Reg.CLK_STAT 30 then s.loseReference else s)

/-- Output of PLL p in MHz at this grade (R379); one above the field's range is open. -/
def State.pllMhz (s : State) (p : Nat) : Nat × State :=
  if p ≤ 2 then (if Config.grade % 2 = 0 then 2000 else 1600, s)
  else if p ≤ 4 ∨ p = 8 then (2000, s)
  else if p = 9 then (2400, s)
  else let r := s.draw; (r.1.toNat % 4096, r.2)

/-- PLL p locks. -/
def State.lockPll (s : State) (p : Nat) : State :=
  let r := s.pllMhz p
  r.2.wr (Reg.CLK_PLL p) (BitVec.ofNat 32 (0x80000000 + r.1))

/-- PLL_LOCK: the PLLs lock to a present reference, or relock after a loss (R387). -/
def execPllLock (locks : BitVec 10) (t : Nat) (s : State) : Res :=
  let s := s.at_ t
  if !s.bit Reg.CLK_STAT 30 then .next s
  else
    let s := (List.range 10).foldl (fun s p => if locks.getLsbD p then s.lockPll p else s.wr (Reg.CLK_PLL p) 0) s
    let s := s.setFld Reg.CLK_STAT 9 0 locks.toNat
    if s.clk.refLost then .next ({ s with clk := { s.clk with refLost := false } }.event Reg.CLK_EVT 3) else .next s

/-- PLL_UNLOCK: a PLL reports unlock; the reference is lost when that PLL locks to it (R378, R386). -/
def execPllUnlock (p t : Nat) (s : State) : Res :=
  let s := s.at_ t
  if 10 ≤ p ∨ !s.bit Reg.CLK_STAT p then .next s
  else
    let s := ((s.setBit Reg.CLK_STAT p false).wr (Reg.CLK_PLL p) 0).event Reg.CLK_EVT 2
    .next (if p = 7 ∧ s.bit Reg.CLK_STAT 28 then s else s.loseReference)

/-- INTERNAL_RESET_RELEASE: all PLLs are locked and the fuse map is read; the store begins to mount, or with none to mount
the fuse map is applied at once (R309, R354, R423). -/
def execInternalResetRelease (t : Nat) (s : State) : Res :=
  let s := s.at_ t
  s.onlyIf (!s.sig.released && s.fld Reg.CLK_STAT 9 0 == 0x3FF)
    (let s := { s with sig := { s.sig with released := true } }
     let s := s.initStore
     if s.bit Reg.STO_CTRL 0 then s.startMount else s.mapUp)

/-! ### The brake (R388, R389) -/

/-- A reading of sensor n: latest, and lowest since the last clear. -/
def State.readVolt (s : State) (n mv : Nat) : State :=
  let a := Reg.PWR_S_VOLT n
  let low := s.fld a 25 16
  (s.setFld a 9 0 mv).setFld a 25 16 (if low = 0 then mv else min low mv)

/-- BRAKE_ENGAGE: sensor n reads below the threshold, and its domains are braked. -/
def execBrakeEngage (n mv t : Nat) (s : State) : Res :=
  let s := s.at_ t
  if 16 ≤ n ∨ s.fld Reg.PWR_DROOP 9 0 ≤ mv then .next s
  else
    let s := s.readVolt n mv
    if s.clk.braking.getLsbD n then .next s
    else
      let s := { s with clk := { s.clk with braking := s.clk.braking ||| BitVec.ofNat 16 (2 ^ n)
                                            sensorFrom := SMap.put n s.now s.clk.sensorFrom } }
      let s := (s.setBit Reg.PWR_STAT n true).count (Reg.PWR_S_BRAKES n)
      let s := (s.event Reg.PWR_EVT 2).report 0x0F 2 0 none 0 0xFFFF (BitVec.ofNat 32 n)
      .next s.brakeAll

/-- BRAKE_RELEASE: sensor n has read above threshold plus hysteresis for 64 ns; a domain that no other braking sensor covers
is released. -/
def execBrakeRelease (n mv t : Nat) (s : State) : Res :=
  let s := s.at_ t
  if 16 ≤ n ∨ !s.clk.braking.getLsbD n ∨ mv < s.fld Reg.PWR_DROOP 9 0 + s.fld Reg.PWR_DROOP 23 16 then .next s
  else
    let from_ := SMap.get s.now s.clk.sensorFrom n
    let s := s.readVolt n mv
    let s := { s with clk := { s.clk with braking := s.clk.braking &&& ~~~(BitVec.ofNat 16 (2 ^ n))
                                          sensorFrom := SMap.del n s.clk.sensorFrom } }
    let s := (s.setBit Reg.PWR_STAT n false).countBy (Reg.PWR_S_BRAKE_NS n) (s.now - from_)
    .next s.brakeAll

/-- PWR_DROOP takes a value: a field outside its range keeps its old one (R388). -/
def State.setDroop (s : State) (v : Word) : State :=
  let th := bits v 9 0
  let hy := bits v 23 16
  let s := if 650 ≤ th ∧ th ≤ 740 then s.setFld Reg.PWR_DROOP 9 0 th else s
  if 2 ≤ hy ∧ hy ≤ 50 then s.setFld Reg.PWR_DROOP 23 16 hy else s

/-! ### Thermal (R394 to R396) -/

/-- PWR_THERM takes a value: a field outside its range keeps its old one. -/
def State.setTherm (s : State) (v : Word) : State :=
  let w := bits v 7 0
  let p := bits v 23 16
  let s := if 60 ≤ w ∧ w ≤ 105 then s.setFld Reg.PWR_THERM 7 0 w else s
  if 80 ≤ p ∧ p ≤ 110 then s.setFld Reg.PWR_THERM 23 16 p else s

/-- PWR_CMD.clr_max. -/
def State.pwrClear (s : State) : State :=
  let s := s.wr Reg.PWR_TJ_MAX (s.rd Reg.PWR_TJ)
  (List.range 16).foldl (fun s n => s.setFld (Reg.PWR_S_VOLT n) 25 16 (s.fld (Reg.PWR_S_VOLT n) 9 0)) s

/-- A threshold in whole degrees, in units of 0.25 °C. -/
def quarterDegrees (n : Nat) : Int := 4 * (n : Int)

/-- Highest of some readings. -/
def hottest (ts : List (BitVec 16)) : BitVec 16 := ts.foldl (fun m t => if m.toInt < t.toInt then t else m) 0x8000

/-- Park for heat: a device fault, and every gateable domain is gated. -/
def State.thermPark (s : State) : State :=
  let s := ((s.setBit Reg.PWR_STAT 28 true).event Reg.PWR_EVT 4).deviceFault 0x0F 4 0xFFFF (s.rd Reg.PWR_TJ)
  domNums.foldl (fun s d => let x := s.dom d; if x.gated || x.stopped then s else s.setDom d { x with ramp := 2 }) s

/-- THERMAL_SAMPLE: sixteen readings; warning and park are judged on Tj. -/
def execThermalSample (temps : List (BitVec 16)) (t : Nat) (s : State) : Res :=
  let s := s.at_ t
  if temps.length ≠ 16 then .next s
  else
    let s := temps.zipIdx.foldl (fun s x => s.wr (Reg.PWR_S_TEMP x.2) (x.1.setWidth 32)) s
    let tj := hottest temps
    let s := s.wr Reg.PWR_TJ (tj.setWidth 32)
    let s := if ((s.rd Reg.PWR_TJ_MAX).setWidth 16).toInt < tj.toInt then s.wr Reg.PWR_TJ_MAX (tj.setWidth 32) else s
    let warn := s.fld Reg.PWR_THERM 7 0
    let s := if quarterDegrees warn ≤ tj.toInt ∧ !s.bit Reg.PWR_STAT 29 then
        ((s.setBit Reg.PWR_STAT 29 true).event Reg.PWR_EVT 3).report 0x0F 3 0 none 0 0xFFFF (tj.setWidth 32)
      else if tj.toInt < quarterDegrees warn - 20 then s.setBit Reg.PWR_STAT 29 false
      else s
    let hot := decide (quarterDegrees (s.fld Reg.PWR_THERM 23 16) ≤ tj.toInt)
    let s : State := { s with clk := { s.clk with parkCount := if hot then s.clk.parkCount + 1 else 0 } }
    .next (if 2 ≤ s.clk.parkCount ∧ !s.bit Reg.PWR_STAT 28 then s.thermPark else s)

/-! ### Main power and hold-up (R329 to R331, R393) -/

/-- MAIN_OK_FALL: the non-maskable path, every instance parked, and the hold-up commit on VHOLD. A fall while a commit runs
or has run restarts the stability count, and one while VHOLD is below the floor stops the commit that runs. The loss is logged (R6,
R337); PWR has no event for it, so the log names HIF_EVT.nm. DESIGN CHOICE (log entry 77). -/
def execMainOkFall (t : Nat) (s : State) : Res :=
  let s := s.at_ t
  if !s.bit Reg.PWR_STAT 31 then .next s
  else
    let s := (s.setBit Reg.PWR_STAT 31 false).modStore (fun y => { y with mainRise := none })
    if s.store.hold = 1 ∧ !s.bit Reg.PWR_STAT 30 then .next s.holdCut
    else if s.store.hold ≠ 0 then .next s
    else
      let s := ((s.report 0x11 0x0003 5 none 0 0xFFFF 0).nonMaskable.parkAll).leavePair 4
      .next ({ s with flt := { s.flt with down := true } }.holdUp s.now)

/-- MAIN_OK_RISE: main power is good, and the stability count starts. -/
def execMainOkRise (t : Nat) (s : State) : Res :=
  let s := s.at_ t
  if s.bit Reg.PWR_STAT 31 then .next s
  else
    let s := (s.setBit Reg.PWR_STAT 31 true).modStore (fun y => { y with mainRise := some s.now })
    .next (if s.bit Reg.PWR_STAT 30 then s else s.event Reg.PWR_EVT 1)

/-- MAIN_STABLE_EXPIRY: MAIN_OK has stayed high for 10 ms after a hold-up commit that is over: a cold start (R331). -/
def execMainStableExpiry (t : Nat) (s : State) : Res :=
  let s := s.at_ t
  match s.store.mainRise with
  | none => .next s
  | some r => s.onlyIf (s.bit Reg.PWR_STAT 31 && decide (2 ≤ s.store.hold) && decide (r + 10000000 ≤ s.now)) s.coldStart

/-- HOLD_OK_FALL: VHOLD is below the floor: hold_low while main power is good, else the commit domain stops. -/
def execHoldOkFall (t : Nat) (s : State) : Res :=
  let s := s.at_ t
  if !s.bit Reg.PWR_STAT 30 then .next s
  else
    let s := s.setBit Reg.PWR_STAT 30 false
    if s.bit Reg.PWR_STAT 31 then .next (s.event Reg.PWR_EVT 1)
    else .next (if s.store.hold = 1 then s.holdCut else s)

/-- HOLD_OK_RISE: PWR_EVT.hold_back (R393). -/
def execHoldOkRise (t : Nat) (s : State) : Res :=
  let s := s.at_ t
  if s.bit Reg.PWR_STAT 30 then .next s
  else .next ((s.setBit Reg.PWR_STAT 30 true).event Reg.PWR_EVT 0)

end Sys2Proof.Machine
end

