-- ==== Sys2Proof/Machine/Operands.lean ====
section
/-! DEFINITION. The operand forms of the S profile: scalar, vector and predicate registers, immediates, and the broadcast
operand B (R186, R188, R191). -/

namespace Sys2Proof.Machine

/-- Scalar register n; s0 reads 0 (R186). -/
def Core.sget (x : Core) (n : BitVec 5) : Word := if n = 0 then 0 else SMap.get 0 x.s n.toNat

/-- Write scalar register n; a write to s0 is discarded (R186). -/
def Core.sset (x : Core) (n : BitVec 5) (v : Word) : Core :=
  if n = 0 then x else { x with s := SMap.set 0 n.toNat v x.s }

/-- Vector register n. -/
def Core.vget (x : Core) (n : BitVec 4) : BitVec 512 := SMap.get 0 x.v n.toNat

/-- Write vector register n. -/
def Core.vset (x : Core) (n : BitVec 4) (v : BitVec 512) : Core := { x with v := SMap.set 0 n.toNat v x.v }

/-- Predicate register n; p0 reads all ones (R186). -/
def Core.pget (x : Core) (n : BitVec 3) : BitVec 16 := if n = 0 then 0xFFFF else SMap.get 0 x.p n.toNat

/-- Write predicate register n; a write to p0 is discarded (R186). -/
def Core.pset (x : Core) (n : BitVec 3) (v : BitVec 16) : Core :=
  if n = 0 then x else { x with p := SMap.set 0 n.toNat v x.p }

/-- Lane j of a vector; lane 0 holds bits 31:0. -/
def lane (v : BitVec 512) (j : Nat) : Word := v.extractLsb' (32 * j) 32

/-- The vector of 16 lanes. -/
def ofLanes (g : Nat → Word) : BitVec 512 :=
  (List.range 16).foldl (fun v j => v ||| ((g j).setWidth 512 <<< (32 * j))) 0

/-- The lanes of `new` where the predicate has a 1, the lanes of `old` elsewhere (R191). -/
def maskLanes (p : BitVec 16) (new old : BitVec 512) : BitVec 512 :=
  ofLanes (fun j => if p.getLsbD j then lane new j else lane old j)

/-- A predicate from a test of each lane. -/
def ofBits (g : Nat → Bool) : BitVec 16 :=
  (List.range 16).foldl (fun v j => if g j then v ||| (1#16 <<< j) else v) 0

/-- The operand B of format V (R188): with bs = 1 the scalar b in every lane, else vector register b[3:0]. -/
def Core.operandB (x : Core) (b : BitVec 5) (bs : BitVec 1) : BitVec 512 :=
  if bs = 1 then ofLanes (fun _ => x.sget b) else x.vget (b.extractLsb' 0 4)

/-- Sign-extended imm16 (R188). -/
def simm (imm : BitVec 16) : Word := imm.signExtend 32
/-- Zero-extended imm16 (R189). -/
def zimm (imm : BitVec 16) : Word := imm.setWidth 32

/-- The effective address of a load or store (R189). -/
def Core.addr (x : Core) (a : BitVec 5) (imm : BitVec 16) : Nat := (x.sget a + simm imm).toNat

/-- The vector register that a format-I instruction names in d[4:1] (R189). -/
def vOfD (d : BitVec 5) : BitVec 4 := d.extractLsb' 1 4

end Sys2Proof.Machine
end

