-- ==== Sys2Proof/Machine/CoreOps.lean ====
section
/-! DEFINITION. What every core instruction shares: fetch, stopping, retiring, and local SRAM accesses (R186, R187,
R201, R218, R339). -/

namespace Sys2Proof.Machine

/-- A core that executes: running, or at an instruction that waits. -/
def Core.active (x : Core) : Bool := x.st == .running || x.st == .waiting || x.st == .tickwait

/-- Bit of SVC_K_EVT for a stop cause (08, SVC_K_EVT): 1 access, 2 outside, else 0 illegal. -/
def causeBit (c : Nat) : Nat := if c = 3 ∨ c = 4 then 1 else if c = 5 ∨ c = 6 then 2 else 0

/-- Core k stops before its instruction changes any state (R201): the record in SVC_K_ERR, the event, the stop of the
other cores of its stage, the queued engine commands left to run, and the severity of R337: an instance fault on the line path, a stage fault awaiting a
reload for a poisoned fetch, a notice for a core of the adaptation plan. -/
def State.coreStop (s : State) (k cause : Nat) : State :=
  let x := s.core k
  let err : Word := BitVec.ofNat 32 (0x10000000 * cause + x.pc.toNat)
  let s := s.wr (Reg.SVC_K_ERR k) err
  let s := s.setCore k { x with st := .stopped, waitTick := none }
  let s := s.event (Reg.SVC_K_EVT k) (causeBit cause)
  let code := 0x0200 + causeBit cause
  match s.coreOwner k with
  | none => s.report 0x06 code 0 none 0 k err
  | some i =>
    match (s.inst i).stageOfCore k with
    | some d =>
      if cause = 9 then (s.report 0x06 code 2 (some i) d.id k err).stopForReload i d
      else ((s.stopCores i d).instFault (some i) 0x06 code d.id k err).keepCommands s d
    | none =>
      ((s.report 0x06 code 0 (some i) 0 k err).event (Reg.ADP_I_EVT i) 10).modInst i (fun y => { y with adp := { y.adp with stopped := true } })

/-- The word that core k fetches (R186): a store that no FENCE with bit 0 has followed is not seen (R187). -/
def State.fetchWord (s : State) (k : Nat) : BitVec 32 :=
  let a := (s.core k).pc.toNat
  BitVec.ofNat 32 (leNat ((List.range 4).map (fun j => s.coreByte k (a + j))))

/-- One core instruction `i` of core k: nothing happens on a core that does not execute. The core fetches the word at pc: a
poisoned one stops it, and so does one that is no instruction, with cause 1 (R189, R201). A command that names another instruction
than the word spells is no event of this core and changes nothing (log entry 14). Then the checks name a stop cause, or the
instruction runs. -/
def State.coreStep (s : State) (k : Nat) (i : Instr) (cause : State → Core → Option Nat) (run : State → Core → State) : Res :=
  if !(s.core k).active then .next s
  else
    let f := s.secded .core (memAddr .core k (s.core k).pc.toNat) 4
    if f.2 then .next (f.1.coreStop k 9)
    else
      match decodeCore k (f.1.fetchWord k) with
      | none => .next (f.1.coreStop k 1)
      | some j =>
        if j ≠ i then .next s
        else
          match cause f.1 (f.1.core k) with
          | some c => .next (f.1.coreStop k c)
          | none => .next (run f.1 (f.1.core k))

/-- Instructions retired rise by one (SVC_K_RETIRED). -/
def State.retired (s : State) (k : Nat) : State :=
  s.wr64 (Reg.SVC_K_RETIRED_LO k) (Reg.SVC_K_RETIRED_HI k)
    (s.rd64 (Reg.SVC_K_RETIRED_LO k) (Reg.SVC_K_RETIRED_HI k) + 1)

/-- Retire with the next pc; a core that the instruction's own errors have stopped or held stays so. -/
def State.retireTo (s : State) (k : Nat) (x : Core) (pc : BitVec 17) : State :=
  (s.setCore k { x with pc := pc, st := if x.active then .running else x.st, waitTick := none }).retired k

/-- Retire and go on at pc + 4. -/
def State.retire (s : State) (k : Nat) (x : Core) : State := s.retireTo k x (x.pc + 4)

/-- The stop cause for a non-zero reserved field: 2. -/
def reserved (bad : Bool) : Option Nat := if bad then some 2 else none

/-- The first cause that applies. -/
def orCause (a b : Option Nat) : Option Nat := match a with | some c => some c | none => b

/-- Check of an access of `n` bytes at `a` with an alignment (R187): misaligned 3, beyond local SRAM 4. -/
def accessCause (a n align : Nat) : Option Nat :=
  if a % align != 0 then some 3 else if 0x20000 < a + n then some 4 else none

/-- A load read a poisoned word (R218, R339): SVC_K_EVT.poison_read, and the stage taints its tokens for the line in
hand. -/
def State.corePoison (s : State) (k : Nat) (poison : Bool) : State :=
  if !poison then s
  else
    let s := s.event (Reg.SVC_K_EVT k) 5
    match s.coreOwner k with
    | none => s
    | some i =>
      match (s.inst i).stageOfCore k with
      | some d =>
        (s.report 0x06 0x0205 1 (some i) d.id k (BitVec.ofNat 32 (s.core k).pc.toNat)).modInst i
          (fun y => y.modStage d.id (fun g => { g with lineTaint := true }))
      | none => s

/-- Load `n` bytes of core k's SRAM. -/
def State.coreLoad (s : State) (k a n : Nat) : State × List Byte :=
  let r := s.secded .core (memAddr .core k a) n
  (r.1.corePoison k r.2, r.1.rdBytes (memAddr .core k a) n)

/-- Store bytes in core k's SRAM; until a FENCE with bit 0, fetch and transfers see the bytes that stood there (R187, R251). -/
def State.coreStore (s : State) (k a : Nat) (bs : List Byte) : State :=
  let old := (List.range bs.length).map (fun j => (a + j, s.coreByte k (a + j)))
  (s.modCore k (fun x => { x with unseen := old.foldl (fun m b => SMap.put b.1 b.2 m) x.unseen })).wrBytes (memAddr .core k a) bs

end Sys2Proof.Machine
end

