-- ==== Sys2Proof/Machine/CoreSys.lean ====
section
/-! DEFINITION. The queue and system instructions of the S profile (R195 to R199). -/

namespace Sys2Proof.Machine

/-- The instance that core k belongs to; a running core always has one. -/
def State.instOfCore (s : State) (k : Nat) : Nat := (s.coreOwner k).getD 0

/-- The stage of core k: none for a core of the adaptation plan. -/
def State.stageOfCoreK (s : State) (k : Nat) : Option StageDesc := (s.inst (s.instOfCore k)).stageOfCore k

/-- The device queue that core k names by local id (R195). -/
def State.coreQueue (s : State) (k : Nat) (q : BitVec 14) : Option Nat := s.localQueue (s.instOfCore k) q.toNat

/-- A local id that the instance owns; else stop cause 5 (R201). -/
def State.queueCause (s : State) (k : Nat) (q : BitVec 14) : Option Nat :=
  match s.coreQueue k q with | some _ => none | none => some 5

/-- A local id of a queue of one kind; else stop cause 5. -/
def State.kindCause (s : State) (k : Nat) (q : BitVec 14) (kind : Nat) : Option Nat :=
  match s.coreQueue k q with
  | some n => if (s.queue n).qkind = kind then none else some 5
  | none => some 5

/-- The engine that q[5:0] names is one of the core's stage; else stop cause 6 (R201). -/
def State.engineCause (s : State) (k : Nat) (e : Nat) : Option Nat :=
  match s.stageOfCoreK k with
  | some d => if hasBit d.engines e then none else some 6
  | none => some 6

/-- Is queue n an output of core k: a queue that takes work or entries out, the request or result queue, or the queue
of an edge whose producer is the core's stage? Every other queue is an input (R195). -/
def State.isOutput (s : State) (k n : Nat) : Bool :=
  let x := s.queue n
  let i := s.instOfCore k
  if x.qkind != qToken then x.qkind != qH2D
  else
    let l := x.localId.getD 0x10000
    let sid := match s.stageOfCoreK k with | some d => d.id | none => 0x10000
    s.fld (Reg.OUT_I_QUEUES i) 13 0 == l || s.fld (Reg.ACT_I_QUEUES i) 13 0 == l
    || (s.inst i).stageDescs.any (fun d => d.id != sid && d.edges.any (fun e => e.queue == l && e.producer == sid))

/-- Core k blocks at its instruction: pc stays, and the accepted tick at which a wait on a token queue began is kept for
the watchdog (R361). -/
def State.coreWait (s : State) (k : Nat) (x : Core) (token : Bool) : State :=
  let w := if token then some (x.waitTick.getD (s.inst (s.instOfCore k)).ticks) else none
  s.setCore k { x with st := .waiting, waitTick := w }

/-- Lanes 0 to 3 as two words, the lower lane holding the lower half (R195, R209). -/
def laneWord (v : BitVec 512) (j : Nat) : DWord := v.extractLsb' (64 * j) 64

/-- A vector with words 0 and 1 in lanes 0 to 3 and the other lanes kept. -/
def putToken (v : BitVec 512) (e : Entry) : BitVec 512 :=
  (v &&& ~~~ (BitVec.ofNat 512 (2 ^ 128 - 1))) ||| e.w0.setWidth 512 ||| (e.w1.setWidth 512 <<< 64)

/-- The tokens that core k emits carry tainted while its stage is tainted (R161, R339, R343). -/
def State.coreTaint (s : State) (k : Nat) : Byte :=
  match s.stageOfCoreK k with
  | some d => match (s.inst (s.instOfCore k)).stage d.id with
    | some g => flagIf (g.taint || g.lineTaint) flagTainted
    | none => 0
  | none => 0

/-- Bits above an engine number or a mask must be 0. -/
def highBits (q : BitVec 14) (n : Nat) : Bool := q.toNat / 2 ^ n != 0

/-- QWAIT: waits until q holds a token this core can read, or, for an output queue, has a free entry (R195, R196). -/
def execQwait (k : Nat) (x : BitVec 5) (q : BitVec 14) (z : BitVec 2) (s : State) : Res :=
  s.coreStep k (.qwait k x q z) (fun s _ => orCause (reserved (z != 0)) (s.queueCause k q)) (fun s _ =>
    match s.coreQueue k q with
    | none => s
    | some n =>
      if s.isOutput k n then
        if (s.queue n).full then s.coreWait k (s.core k) ((s.queue n).qkind == qToken) else s.retire k (s.core k)
      else
        let r := s.waitQueue n
        if r.2 then r.1.retire k (r.1.core k) else r.1.coreWait k (r.1.core k) ((s.queue n).qkind == qToken))

/-- A reserved control code at the head of an input queue is an illegal encoding to the program that reads it (R160). DESIGN
CHOICE (log entry 69): SVC_K_ERR names no cause for it; it takes 0x1, that of reserved codes. -/
def State.codeCause (s : State) (k : Nat) (q : BitVec 14) : Option Nat :=
  match s.coreQueue k q with
  | some n => if s.reservedHead n then some 1 else none
  | none => none

/-- QPOP: waits as QWAIT, then moves one token into lanes 0 to 3; x[4] must be 0 (R195, R196). The words
of the entry that `perr` names fail parity (R226). -/
def execQpop (k : Nat) (x : BitVec 5) (q : BitVec 14) (z : BitVec 2) (perr : BitVec 4) (s : State) : Res :=
  s.coreStep k (.qpop k x q z 0) (fun s _ => orCause (reserved (z != 0 || x.getLsbD 4)) (orCause (s.queueCause k q)
    (if perr = 0 then s.codeCause k q else none))) (fun s _ =>
    match s.coreQueue k q with
    | none => s
    | some n =>
      let r := ((s.eccHead n).upsetHead n perr).readQueue n
      let c := r.1.core k
      match r.2 with
      | some e => r.1.retire k (c.vset (x.extractLsb' 0 4) (putToken (c.vget (x.extractLsb' 0 4)) e))
      | none => r.1.coreWait k c ((s.queue n).qkind == qToken))

/-- QPUSH: waits for a free entry, then sends lanes 0 to 3 as one token, stamped by R166 (R195); into a 64-byte ring the
token stands in the first 16 bytes. -/
def execQpush (k : Nat) (x : BitVec 5) (q : BitVec 14) (z : BitVec 2) (s : State) : Res :=
  s.coreStep k (.qpush k x q z) (fun s _ => orCause (reserved (z != 0)) (s.queueCause k q)) (fun s c =>
    match s.coreQueue k q with
    | none => s
    | some n =>
      let v := c.vget (x.extractLsb' 0 4)
      let e : Entry := ({ w0 := laneWord v 0, w1 := laneWord v 1, at_ := s.now } : Entry)
      let e := if (s.queue n).qkind = qToken then e.orFlags (s.coreTaint k)
        else { e with bytes := (e.tokenBytes ++ List.replicate 48 0) }
      match s.pushWait n e with
      | some t => t.retire k c
      | none => s.coreWait k c ((s.queue n).qkind == qToken))

/-- QCNT: entries readable, or free for an output queue, without waiting (R195, R225). -/
def execQcnt (k : Nat) (x : BitVec 5) (q : BitVec 14) (z : BitVec 2) (s : State) : Res :=
  s.coreStep k (.qcnt k x q z) (fun s _ => orCause (reserved (z != 0)) (s.queueCause k q)) (fun s c =>
    match s.coreQueue k q with
    | none => s
    | some n =>
      let y := s.queue n
      let v := if s.isOutput k n then y.depth - y.fill
        else (y.entries.filter (fun e => y.qkind != qToken || e.bad || e.kind != kindMarker)).length
      s.retire k (c.sset x (BitVec.ofNat 32 v)))

/-- An issue that finds none of its instance's tags free waits, and XFR_I_EVT.tag_wait is set (R52, R249). -/
def State.tagWait (s : State) (k : Nat) (x : Core) : State :=
  (s.event (Reg.XFR_I_EVT (s.instOfCore k)) 2).coreWait k x false

/-- ENQE: sends lanes 0 to 7 as one descriptor to engine q[5:0]; stalls while that queue is full (R130, R195). -/
def execEnqe (k : Nat) (x : BitVec 5) (q : BitVec 14) (z : BitVec 2) (s : State) : Res :=
  s.coreStep k (.enqe k x q z) (fun s _ => orCause (reserved (z != 0 || highBits q 6)) (s.engineCause k (q.toNat % 64))) (fun s c =>
    let e := q.toNat % 64
    let g := s.engine e
    if g.queue.length ≥ 32 then s.coreWait k c false
    else if !s.tagFree (s.instOfCore k) then s.tagWait k c
    else
      let v := c.vget (x.extractLsb' 0 4)
      let d : Descr := { words := [laneWord v 0, laneWord v 1, laneWord v 2, laneWord v 3], seq := g.entered,
                         core := k, line := c.line }
      (s.setEngine e (g.enter d)).retire k c)

/-- EFILL: requests a staging fill described by lanes 0 to 7 (R129, R195, R216). -/
def execEfill (k : Nat) (x : BitVec 5) (q : BitVec 14) (z : BitVec 2) (s : State) : Res :=
  s.coreStep k (.efill k x q z) (fun s _ => orCause (reserved (z != 0)) (s.engineCause k (q.toNat % 64))) (fun s c =>
    let e := q.toNat % 64
    let g := s.engine e
    if !s.tagFree (s.instOfCore k) then s.tagWait k c
    else
      let v := c.vget (x.extractLsb' 0 4)
      let r : Fill := { words := [laneWord v 0, laneWord v 1, laneWord v 2, laneWord v 3], after := g.entered, core := k }
      (s.setEngine e { g with fills := g.fills ++ [r] }).retire k c)

/-- Where the program with an id lies in core k's SRAM: address programs stand at the top, downward in ascending id
order (09, Transfer tasks); none when the core does not run the id. -/
def State.progAddr (s : State) (k id : Nat) : Option Nat :=
  match (s.inst (s.instOfCore k)).image with
  | none => none
  | some im =>
    let mine := im.addrProgs.filter (fun p => p.core == k)
    if mine.any (fun p => p.id == id) then
      some (0x20000 - 128 * ((mine.filter (fun p => decide (p.id < id))).length + 1))
    else none

/-- XSUB: submits the address program whose id is s_x[15:0], with k = s_x[31:16], to task queue q (R235). An id that the
core does not run aborts the task. -/
def execXsub (k : Nat) (x : BitVec 5) (q : BitVec 14) (z : BitVec 2) (s : State) : Res :=
  s.coreStep k (.xsub k x q z) (fun s _ => orCause (reserved (z != 0)) (s.kindCause k q qTask)) (fun s c =>
    match s.coreQueue k q with
    | none => s
    | some n =>
      let v := c.sget x
      match s.progAddr k (v.toNat % 65536) with
      | none => (s.retire k c).recordAbort (s.instOfCore k) n (v.toNat % 65536) 4 0
      | some a =>
        if (s.queue n).full then s.coreWait k c false
        else if !s.tagFree (s.instOfCore k) then s.tagWait k c
        else
          let r := s.coreLoad k a 128
          let e : Entry := { w0 := BitVec.ofNat 64 (v.toNat % 65536), bytes := (List.range 128).map (fun j => s.coreByte k (a + j)), at_ := s.now, core := k,
                             k := v.extractLsb' 16 16, line := c.line }
          (r.1.pushEntry n e).retire k (r.1.core k))

/-- XLIT: submits the light request in lanes 0 to 3 to light queue q (R241). -/
def execXlit (k : Nat) (x : BitVec 5) (q : BitVec 14) (z : BitVec 2) (s : State) : Res :=
  s.coreStep k (.xlit k x q z) (fun s _ => orCause (reserved (z != 0)) (s.kindCause k q qLight)) (fun s c =>
    match s.coreQueue k q with
    | none => s
    | some n =>
      if (s.queue n).full then s.coreWait k c false
      else if !s.tagFree (s.instOfCore k) then s.tagWait k c
      else
        let v := c.vget (x.extractLsb' 0 4)
        let e : Entry := { w0 := laneWord v 0, w1 := laneWord v 1, at_ := s.now, core := k, line := c.line }
        (s.pushEntry n e).retire k c)

/-- TICKWAIT: for a core of a stage it returns at the stage's next line start, at once when that start has come; for a
core of the adaptation plan at the instance's next accepted tick. It writes the line to s_x; q must be 0 (R195, R197). -/
def execTickwait (k : Nat) (x : BitVec 5) (q : BitVec 14) (z : BitVec 2) (s : State) : Res :=
  s.coreStep k (.tickwait k x q z) (fun _ _ => reserved (z != 0 || q != 0)) (fun s c =>
    let y := s.inst (s.instOfCore k)
    match s.stageOfCoreK k with
    | some d =>
      match y.stage d.id with
      | none => s
      | some g =>
        if c.starts < g.starts then
          s.retire k ({ c with starts := g.starts, line := g.lastLine }.sset x g.lastLine)
        else s.setCore k { c with st := .tickwait, waitTick := none }
    | none =>
      if c.st = .tickwait ∧ c.starts < y.ticks ∧ !(s.markOpen && !y.marked) then
        let l := match y.hist with | h :: _ => h.line | [] => 0
        s.retire k ({ c with starts := y.ticks, line := l }.sset x l)
      else if c.st = .tickwait then s
      else s.setCore k { c with st := .tickwait, starts := y.ticks, waitTick := none })

/-- A transfer that core k submitted is incomplete (R198 bit 2). -/
def State.coreTransfers (s : State) (k : Nat) : Bool :=
  s.tasks.any (fun t => t.core == k)
  || s.queues.any (fun e => (e.2.qkind == qTask || e.2.qkind == qLight) && e.2.entries.any (fun x => x.core == k))

/-- An engine command that core k issued is incomplete, its epilogue included (R198 bit 3). -/
def State.coreCommands (s : State) (k : Nat) : Bool :=
  s.engines.any (fun e => e.2.queue.any (fun d => d.core == k) || e.2.epis.any (fun p => p.d.core == k))

/-- FENCE: waits until every condition named by the mask q[3:0] holds; q[13:4] must be 0 (R198). In the model an issue
has reached its queue when the instruction retires; bit 0 makes the core's stores visible to fetch and transfers. -/
def execFence (k : Nat) (x : BitVec 5) (q : BitVec 14) (z : BitVec 2) (s : State) : Res :=
  s.coreStep k (.fence k x q z) (fun _ _ => reserved (z != 0 || highBits q 4)) (fun s c =>
    if (q.getLsbD 2 && s.coreTransfers k) || (q.getLsbD 3 && s.coreCommands k) then s.coreWait k c false
    else s.retire k (if q.getLsbD 0 then { c with unseen := [] } else c))

/-- A control register that R199 lists: true when it may be written. -/
def ctrlReg (n : Nat) : Option Bool :=
  if n ≤ 8 then some false else if n = 0x010 ∨ n = 0x011 then some true else none

/-- The value of control register n, the core after the read, and the state after a free value is drawn (R199). The
cycle count is not given by the manual's rules on results: a free value. -/
def State.ctrlRead (s : State) (k : Nat) (c : Core) (n : Nat) : Word × Core × State :=
  let i := s.instOfCore k
  let y := s.inst i
  match n with
  | 0 => (BitVec.ofNat 32 k, c, s)
  | 1 => (BitVec.ofNat 32 i, c, s)
  | 2 => (BitVec.ofNat 32 ((s.stageOfCoreK k).map (·.id) |>.getD 0), c, s)
  | 3 =>
    let e : BitVec 2 := match s.stageOfCoreK k with
      | some d => match y.stage d.id with | some g => g.epoch | none => 0
      | none => 0
    (e.setWidth 32, c, s)
  | 4 => (c.line, c, s)
  | 5 => (BitVec.ofNat 32 y.ticks, { c with tickHi := BitVec.ofNat 32 (y.ticks / 2 ^ 32) }, s)
  | 6 => (c.tickHi, c, s)
  | 7 =>
    let r := s.draw
    (r.1.extractLsb' 0 32, { c with cycHi := r.1.extractLsb' 32 32 }, r.2)
  | 8 => (c.cycHi, c, s)
  | 0x10 => (c.lfsr, c, s)
  | _ => (c.zp.setWidth 32, c, s)

/-- CRD: reads control register q[11:0] into s_x; an index not listed is cause 7 (R199). -/
def execCrd (k : Nat) (x : BitVec 5) (q : BitVec 14) (z : BitVec 2) (s : State) : Res :=
  s.coreStep k (.crd k x q z)
    (fun _ _ => orCause (reserved (z != 0)) (match ctrlReg (q.toNat % 4096) with | some _ => none | none => some 7))
    (fun s c =>
      let r := s.ctrlRead k c (q.toNat % 4096)
      r.2.2.retire k (r.2.1.sset x r.1))

/-- CWR: writes s_x to control register q[11:0]; an index not listed is cause 7, a read-only one cause 8 (R199). -/
def execCwr (k : Nat) (x : BitVec 5) (q : BitVec 14) (z : BitVec 2) (s : State) : Res :=
  s.coreStep k (.cwr k x q z)
    (fun _ _ => orCause (reserved (z != 0))
      (match ctrlReg (q.toNat % 4096) with | some true => none | some false => some 8 | none => some 7))
    (fun s c =>
      if q.toNat % 4096 = 0x010 then s.retire k { c with lfsr := lfsrStore (c.sget x) }
      else s.retire k { c with zp := (c.sget x).extractLsb' 0 8 })

end Sys2Proof.Machine
end

