-- ==== Sys2Proof/Machine/Scrub.lean ====
section
/-! DEFINITION. The scrubbers of weight SRAM, tile SRAM, service-core SRAM, bulk SRAM and the commit buffer (R150, R183,
R218, R341 to R343). -/

namespace Sys2Proof.Machine

/-- A report that a write of the whole word has overtaken: the word is not poisoned, and a notice says so (R342). -/
def State.overtaken (s : State) (k : MemKind) (w : Nat) : State :=
  let u := unitOf w
  let pl := s.placeOf k u.1 u.2
  { s with upsets := SMap.del w s.upsets }.report 0x0D 0x0003 0 pl.1 pl.2.1 pl.2.2 (BitVec.ofNat 32 u.2)

/-- The scrubber reads one word: a single-bit error is corrected in place and counted, a double-bit error poisons the
word (R343), unless the word is one of `rewritten`, written whole in the same cycle (R342). -/
def State.scrubWord (k : MemKind) (rewritten : List Nat) (s : State) (w n : Nat) : State :=
  let u := unitOf w
  if n ≤ 1 then { s with upsets := SMap.del w s.upsets }.corrected k u.1 u.2
  else if rewritten.contains w then s.overtaken k w
  else s.discover k u.1 u.2

/-- The scrubber reads `n` bytes from linear address `a`. -/
def State.scrubRange (s : State) (k : MemKind) (rewritten : List Nat) (a n : Nat) : State :=
  (SMap.inRange a (a + n) s.upsets).foldl (fun s e => s.scrubWord k rewritten e.1 e.2) s

/-- Upsets that have occurred: (byte offset, two or more bits), `at_` giving the linear address of an offset. A second
single-bit upset of a word makes it a double one. -/
def State.strike (s : State) (at_ : Nat → Nat) (hits : List (Nat × Bool)) : State :=
  { s with upsets := hits.foldl (fun m h =>
      let a := at_ h.1 / 8 * 8
      if s.poison.contains a then m else SMap.put a (min 2 (SMap.get 0 m a + (if h.2 then 2 else 1))) m) s.upsets }

/-- One tick's work of a scrubber over the memory of `size` bytes at `lo`: `n` bytes in ascending order from where it
stands, wrapping at the top. -/
def State.scrubTick (s : State) (k : MemKind) (rewritten : List Nat) (lo size n : Nat) : State :=
  let pos := SMap.get 0 s.flt.scrubAt lo % size
  let n := min n size
  let s := s.scrubRange k rewritten (lo + pos) (min n (size - pos))
  let s := s.scrubRange k rewritten lo (n - (size - pos))
  { s with flt := { s.flt with scrubAt := SMap.set 0 lo ((pos + n) % size) s.flt.scrubAt } }

/-- Strike, then scrub when the scrubber is enabled. `rewritten`: byte offsets of the words that are written whole in the cycle in
which the scrubber reads them. -/
def State.scrubber (s : State) (k : MemKind) (lo size n : Nat) (on : Bool) (hits : List (Nat × Bool)) (rewritten : List Nat) : State :=
  let s := s.strike (fun o => lo + o % size) hits
  if on then s.scrubTick k (rewritten.map (fun o => (lo + o % size) / 8 * 8)) lo size n else s

/-- The linear address of an offset into the memories of physical engine u: weight SRAM, then staging, then the accumulator
file (R126). -/
def engineByte (u o : Nat) : Nat :=
  let o := o % 0x160000
  if o < 0x100000 then memAddr .weight u o
  else if o < 0x120000 then memAddr .staging u (o - 0x100000)
  else memAddr .acc u (o - 0x120000)

/-- ENGINE_SCRUB: upsets occur in the memories of physical engine u (R126); then ENG_SCRUB_RATE lines of 256 bytes of its
weight SRAM are read (R150). -/
def execEngineScrub (u : Nat) (hits : Upsets) (s : State) : Res :=
  .next (if u < 68 then
    (s.strike (engineByte u) hits.hits).scrubber .weight (memAddr .weight u 0) 0x100000 (256 * s.fld Reg.ENG_SCRUB_RATE 11 0)
      (s.bit Reg.ENG_CTRL 0) [] hits.rewritten
  else s)

/-- TILE_SCRUB: TIL_SCRUB_RATE units of 16 bytes of one tile of physical column c (R183). -/
def execTileScrub (c r : Nat) (hits : Upsets) (s : State) : Res :=
  .next (if c < 66 ∧ r < 32 then
    s.scrubber .tile (memAddr .tile c (0x4000 * r)) 0x4000 (16 * s.fld Reg.TIL_SCRUB_RATE 9 0) (s.bit Reg.TIL_CTRL 0) hits.hits hits.rewritten
  else s)

/-- CORE_SCRUB: SVC_SCRUB_RATE units of 64 bytes of core u's SRAM (R218). -/
def execCoreScrub (u : Nat) (hits : Upsets) (s : State) : Res :=
  .next (if u < 128 then
    s.scrubber .core (memAddr .core u 0) 0x20000 (64 * s.fld Reg.SVC_SCRUB_RATE 9 0) (s.bit Reg.SVC_CTRL 0) hits.hits hits.rewritten
  else s)

/-- BULK_SCRUB: FLT_BULK_SCRUB lines of 64 bytes of bulk die u, or of the commit buffer, u = 4 (R341). -/
def execBulkScrub (u : Nat) (hits : Upsets) (s : State) : Res :=
  let n := 64 * s.fld Reg.FLT_BULK_SCRUB 11 0
  .next (if u < 4 then s.scrubber .bulk (memAddr .bulk u 0) 0x6000000 n (s.bit Reg.FLT_CTRL 0) hits.hits hits.rewritten
    else if u = 4 then s.scrubber .commit (memAddr .commit 0 0) 0x800000 n (s.bit Reg.FLT_CTRL 0) hits.hits hits.rewritten
    else s)

end Sys2Proof.Machine
end

