-- ==== Sys2Proof/Machine/Engine.lean ====
section
/-! DEFINITION. The matrix engine's commands: loading, computing, chaining, codebooks, scrubbing, the epilogue and
staging fills (R128 to R152, R215, R216). -/

namespace Sys2Proof.Machine

/-! ### Taking the command at the head of the queue (R129, R130) -/

/-- May engine e start a command: it has an owner, is not stopped (R152) and is not being swapped (R305)? -/
def State.engReady (s : State) (e : Nat) : Bool :=
  !(s.engine e).stopped && (s.engine e).swap == 0 && (s.engOwner e).isSome

/-- A class code that R209 lists. -/
def Descr.classOk (d : Descr) : Bool := decide (1 ≤ d.cls) && decide (d.cls ≤ 8)

/-- The command at the head of engine e's queue, when its class is `cls`, meets `run`; a reserved class stops the engine
(R209). Nothing happens while another class or a forwarded body is at the head, or while the engine cannot start. -/
def State.engHead (s : State) (e cls : Nat) (run : Descr → State) : Res :=
  match (s.engine e).queue with
  | [] => .next s
  | d :: _ =>
    if !s.engReady e || d.chain.isSome then .next s
    else if !d.classOk then .next (s.engStop e d 0 4)
    else if d.cls ≠ cls then .next s
    else .next (run d)

/-- The command at the head leaves the queue. -/
def State.engPop (s : State) (e : Nat) : State :=
  s.modEngine e (fun g => { g with queue := g.queue.tail, waitTick := none })

/-- The command at the head waits: the accepted tick at which the wait began is kept for the watchdog (R129, R361). -/
def State.engWait (s : State) (e : Nat) : State :=
  let t := match s.engOwner e with | some i => (s.inst i).ticks | none => 0
  s.modEngine e (fun g => { g with waitTick := some (g.waitTick.getD t) })

/-- The engine stops at its head command (R152). -/
def State.engFail (s : State) (e : Nat) (d : Descr) (detail : Nat) : State := s.engStop e d (detailBit detail) detail

/-- A fill requested before command d entered the queue targets one of the tags `ts` (R129). -/
def Engine.fillAhead (g : Engine) (d : Descr) (ts : List Nat) : Bool :=
  g.fills.any (fun f => decide (f.after ≤ d.seq) && ts.contains (bits64 (f.words.getD 2 0) 63 59))

/-- An earlier epilogue still reads a slot of command d (R130). -/
def Engine.slotsBusy (g : Engine) (d : Descr) : Bool :=
  g.epis.any (fun x => decide (d.accBase < x.d.accBase + x.d.outCount) && decide (x.d.accBase < d.accBase + d.outCount))

/-- Must command d wait for its tags `ts` or its slots (R129, R130)? -/
def Engine.mustWait (g : Engine) (d : Descr) (ts : List Nat) : Bool :=
  ts.any (fun t => !(SMap.get {} g.tags t).valid) || g.fillAhead d ts || g.slotsBusy d

/-- After the last step: an epilogue is queued, or the command completes (R131, R145). -/
def State.engAfter (s : State) (e : Nat) (d : Descr) (flags : Byte) (eBase : Int) (poison : Bool) : State :=
  if d.epi = 1 then
    s.modEngine e (fun g => { g with epis := g.epis ++ [{ d := d, eBase := eBase, tainted := poison, flags := flags }] })
  else s.engDone e d d.notify d.notifyQ

/-- A computing command outside a chain (R127, R129, R144, R152). -/
def State.engCompute (s : State) (e : Nat) (d : Descr) : State :=
  let g := s.engine e
  if g.mustWait d d.tags then s.engWait e
  else
    match s.engCause (s.engPhys e) g d false with
    | some c => s.engFail e d c
    | none =>
      let r := (s.engPop e).engSteps e d
      r.1.engAfter e d (g.operandFlags d) r.2.1 r.2.2

/-- TAPSUM (R136 to R138). -/
def execTapsum (e : Nat) (s : State) : Res := s.engHead e clsTAPSUM (fun d => s.engCompute e d)

/-- MATMUL (R140). -/
def execMatmul (e : Nat) (s : State) : Res := s.engHead e clsMATMUL (fun d => s.engCompute e d)

/-- DWDIAG (R142). -/
def execDwdiag (e : Nat) (s : State) : Res := s.engHead e clsDWDIAG (fun d => s.engCompute e d)

/-- BWD (R147). -/
def execBwd (e : Nat) (s : State) : Res := s.engHead e clsBWD (fun d => s.engCompute e d)

/-! ### LOADW, LUTCOL, SCRUBW (R130, R143, R146, R150, R215) -/

/-- Word 0 of LOADW, LUTCOL, SCRUBW and CHAIN holds class, notify and notify_q only. -/
def Descr.word0Bare (d : Descr) : Bool := bits64 (d.w 0) 44 0 == 0

/-- The commands that exclude computing start when every earlier epilogue has completed (R130); `ok` is the field check. -/
def State.engAlone (s : State) (e : Nat) (d : Descr) (ok : Bool) (run : State → State) : State :=
  if !(s.engine e).epis.isEmpty then s.engWait e
  else if !(d.word0Bare && ok) then s.engFail e d 4
  else run s

/-- The copy of a LOADW: bytes with their poison marks; good check bits elsewhere. -/
def State.loadwCopy (s : State) (i e src dst n : Nat) : State :=
  let s := (s.secded .bulk src n).1
  let k := s.poisonIn src n
  let s := s.copyMem src dst n
  let s := { s with upsets := SMap.dropRange dst (dst + n) s.upsets }.carried i k
  s.wr64 (Reg.ENG_E_LOAD_LO e) (Reg.ENG_E_LOAD_HI e) (s.rd64 (Reg.ENG_E_LOAD_LO e) (Reg.ENG_E_LOAD_HI e) + n)

/-- An aborted LOADW completes with a VOID where it was to notify (R239, R244). -/
def State.loadwAbort (s : State) (i e q cause : Nat) (d : Descr) : State :=
  let s := if d.notify then s.postToken i d.notifyQ (voidToken 0 0 d.line s.now) else s
  (s.engPop e).recordAbort i q 0xFFFF cause 0

/-- LOADW: copies bytes of a bulk window into weight SRAM as one task of the transfer queue it names (R146, R244). -/
def execLoadw (e : Nat) (s : State) : Res :=
  s.engHead e clsLOADW (fun d =>
    let w := bits64 (d.w 1) 63 58
    let off := bits64 (d.w 1) 57 31
    let dst := bits64 (d.w 2) 63 44
    let n := 64 * (bits64 (d.w 2) 43 30 + 1)
    let i := (s.engOwner e).getD 0
    let ok := bits64 (d.w 1) 16 0 == 0 && bits64 (d.w 2) 29 0 == 0 && d.w 3 == 0 && off % 64 == 0 && dst % 64 == 0
      && decide (dst + n ≤ 0x100000)
    s.engAlone e d ok (fun s =>
      match s.localQueue i (bits64 (d.w 1) 30 17) with
      | none => s.engFail e d 4
      | some q =>
        if (s.queue q).maxb.toNat < n then s.loadwAbort i e q 3 d
        else if !s.mayStart q then s.engWait e
        else
          match s.window i w with
          | none => s.loadwAbort i e q 1 d
          | some x =>
            if x.size < off + n ∨ !x.access.testBit 0 then s.loadwAbort i e q 1 d
            else
              let g := s.pickEngine (bits (s.queue q).cap 17 16)
              let p := g.2.engPhys e
              let t := (g.2.loadwCopy i e (memAddr .bulk x.die (x.base + off)) (memAddr .weight p dst) n).countBeats g.1 (n / 64)
              if t.regionsOk e dst n then (t.engPop e).engDone e d d.notify d.notifyQ
              else (t.engPop e).engStop e d 2 6))

/-- LUTCOL: writes the 16 entries of codebook n of the scale region at scale_slot (R143). -/
def execLutcol (e : Nat) (s : State) : Res :=
  s.engHead e clsLUTCOL (fun d =>
    s.engAlone e d (bits64 (d.w 1) 52 0 == 0) (fun s =>
      let a := 4096 * bits64 (d.w 1) 63 56 + 0x400 + 16 * bits64 (d.w 1) 55 53
      let s := s.wrBytes (memAddr .weight (s.engPhys e) a) (leBytes 8 (d.w 2).toNat ++ leBytes 8 (d.w 3).toNat)
      (s.engPop e).engDone e d d.notify d.notifyQ))

/-- SCRUBW: reads a weight SRAM range, corrects single-bit errors in place and poisons words with double-bit errors
(R150). -/
def execScrubw (e : Nat) (s : State) : Res :=
  s.engHead e clsSCRUBW (fun d =>
    let a := bits64 (d.w 1) 63 44
    let n := 256 * (bits64 (d.w 1) 43 32 + 1)
    s.engAlone e d (bits64 (d.w 1) 31 0 == 0 && d.w 2 == 0 && d.w 3 == 0 && a % 256 == 0 && decide (a + n ≤ 0x100000))
      (fun s =>
        let s := s.scrubRange .weight [] (memAddr .weight (s.engPhys e) a) n
        (s.engPop e).engDone e d d.notify d.notifyQ))

/-! ### The epilogue (R115, R131, R145) -/

/-- The scale row of a finished command: its slots and its column records are read, and errors met. -/
def State.epiRead (s : State) (e : Nat) (d : Descr) : State × Bool :=
  let p := s.engPhys e
  let a := s.secded .acc (slotAddrAcc p d.accBase) (256 * d.outCount)
  let b := a.1.secded .weight (memAddr .weight p (4096 * d.scaleSlot)) 0x400
  (b.1, a.2 || b.2)

/-- EPILOGUE: the oldest epilogue of engine e writes its row, sends its token to out_queue and completes; it stalls while
that queue is full (R145, R224). In an instance that has gone to its kickstand the command completes and its queue emits nothing
(R201, R296). -/
def execEpilogue (e : Nat) (s : State) : Res :=
  let g := s.engine e
  match g.epis, s.engOwner e with
  | x :: xs, some i =>
    let q := s.localQueue i x.d.outQueue
    if (match q with | some q => (s.queue q).full && (s.stoppedReader q).isNone | none => false) then .next s
    else
      let r := s.epiRead e x.d
      let s := r.1.engPoison e r.2
      let row := s.epiRow (s.engPhys e) x.d x.eBase
      let s := s.modEngine e (fun g => { g with epis := xs })
      let s := match q with
        | none => s
        | some q =>
          let pl := s.placePayload i e x.d.outQueue row.2
          let f := pl.1.engFlags e x.d.line x.flags (x.tainted || r.2)
          let t := dataToken 0 (BitVec.ofNat 5 x.d.outFmt) (BitVec.ofNat 8 row.1) f false 64 x.d.line x.d.outFirst
            x.d.outCount pl.2.1 pl.2.2 s.now
          if (pl.1.inst i).live then
            match pl.1.pushWait q t with
            | some u => u
            | none => pl.1
          else pl.1
      .next (s.engDone e x.d x.d.notify x.d.notifyQ)
  | _, _ => .next s

/-! ### CHAIN (R148, R149) -/

/-- The members of a chain: the engines of the same stage in ascending order from e. -/
def State.chainMembers (s : State) (e n : Nat) : List Nat :=
  match s.engOwner e with
  | none => []
  | some i => match (s.inst i).stageOfEngine e with
    | none => []
    | some d => (((List.range 64).filter (fun x => decide (e ≤ x) && hasBit d.engines x)).take n)

/-- Body m of n is in order: its class, no notify, and hand-overs that fit its neighbours (R148, R149, R215). -/
def bodyOk (bodies : List Descr) (m : Nat) : Bool :=
  match bodies[m]? with
  | none => false
  | some d =>
    (d.cls == clsTAPSUM || d.cls == clsMATMUL || d.cls == clsDWDIAG) && !d.notify
    && (match bodies[m + 1]? with
        | none => d.epi != 2
        | some b => (d.epi != 2 || b.cls == clsMATMUL) && (b.accInit != 2 || d.epi == 0))

/-- Does body m take its operand row from member m − 1? -/
def handedOver (bodies : List Descr) (m : Nat) : Bool :=
  decide (0 < m) && (match bodies[m - 1]? with | some d => d.epi == 2 | none => false)

/-- Tags that body m waits for: all it names, but the one that the hand-over sets. -/
def chainTags (bodies : List Descr) (m : Nat) (d : Descr) : List Nat :=
  if handedOver bodies m then d.tags.filter (· != d.rowBase) else d.tags

/-- Is body `m` of chain `c` of engine e at the head of its member's queue, on a member that can start it? -/
def State.bodyAt (s : State) (e : Nat) (c : Descr) (m x : Nat) : Bool :=
  s.engReady x && (m == 0 || (match (s.engine x).queue with | d :: _ => d.chain == some (e, c.seq) | [] => false))

/-- A member cannot start its body yet (R129, R130, R148). -/
def State.chainWaits (s : State) (e : Nat) (c : Descr) (bodies : List (Descr × Nat)) : Bool :=
  bodies.zipIdx.any (fun x => !s.bodyAt e c x.2 x.1.2 ||
    (s.engine x.1.2).mustWait x.1.1 (chainTags (bodies.map (·.1)) x.2 x.1.1))

/-- Bodies still to come for the CHAIN that ends a queue; `n` are due before the first descriptor of the list. -/
def bodiesDue : Nat → List Descr → Nat
  | n, [] => n
  | 0, d :: ds => bodiesDue (if d.cls = clsCHAIN ∧ !d.sent then bits64 (d.w 1) 63 62 + 1 else 0) ds
  | n + 1, _ :: ds => bodiesDue n ds

/-- Can a forwarded body enter the queue: it has room, and does not end between a CHAIN and its bodies (R130, R148)? -/
def Engine.takesBody (g : Engine) : Bool := decide (g.queue.length < 32) && bodiesDue 0 g.queue == 0

/-- Forward body `d` of chain `c` of engine e to the queue of member x, with its number there (R148). -/
def State.forwardBody (s : State) (e : Nat) (c : Descr) (x : Nat) (d : Descr) : State :=
  s.modEngine x (fun g => g.enter { d with seq := g.entered, chain := some (e, c.seq) })

/-- Sum hand-over: the slots of the member before pass to the same-numbered slots, with e_base (R144, R149). -/
def State.sumOver (s : State) (a b : Nat) (d : Descr) : State :=
  let n := 256 * d.outCount
  let s := (s.secded .acc (slotAddrAcc (s.engPhys a) d.accBase) n).1
  let s := s.copyMem (slotAddrAcc (s.engPhys a) d.accBase) (slotAddrAcc (s.engPhys b) d.accBase) n
  let m := (s.engine a).slotBase
  s.modEngine b (fun g => { g with slotBase := (List.range d.outCount).foldl (fun t k =>
    SMap.set none (d.accBase + k) (SMap.get none m (d.accBase + k)) t) g.slotBase })

/-- Activation hand-over: the scale row of member a goes into the operand row that the next body names, at the base its
tag holds, pixels close packed, and the tag becomes valid (R149). -/
def State.rowOver (s : State) (a b : Nat) (d next : Descr) (eBase : Int) (flags : Byte) : State :=
  let r := s.epiRow (s.engPhys a) d eBase
  let t := SMap.get {} (s.engine b).tags next.rowBase
  let s := s.wrBytes (memAddr .staging (s.engPhys b) t.base) (r.2.take (0x20000 - t.base))
  let s := s.wrBytes (memAddr .staging (s.engPhys b) 0) (r.2.drop (0x20000 - t.base))
  let tag : RowTag := { base := t.base, firstPx := d.outFirst, px := d.outCount, chans := 64,
                        pitch := fmtStored d.outFmt * 64 / 8, fmt := BitVec.ofNat 5 d.outFmt, r := BitVec.ofNat 8 r.1,
                        valid := true, flags := flags }
  s.modEngine b (fun g => { g with tags := SMap.set {} next.rowBase tag g.tags })

/-- Run body m on its member, then the bodies after it. `chain` is the CHAIN descriptor, whose notify goes with the last
body. A failing body stops its member before its slots change (R152). -/
def State.chainRun (s : State) (chain : Descr) (bodies : List Descr) :
    List (Descr × Nat) → Nat → Nat → Byte → State
  | [], _, _, _ => s
  | (d, e) :: rest, m, prev, inFlags =>
    match if m = 0 ∧ d.accInit = 2 then some 8
        else if !bodyOk bodies m then some 4 else s.engCause (s.engPhys e) (s.engine e) d true with
    | some c => s.engFail e d c
    | none =>
      let s := if 0 < m ∧ d.accInit = 2 then s.sumOver prev e d else s
      let g := s.engine e
      let r := s.engSteps e d
      let flags := g.operandFlags d ||| (if d.accInit = 2 then inFlags else 0)
      let flags := flags ||| flagIf r.2.2 flagTainted
      match rest with
      | [] =>
        let d := { d with words := ((d.w 0 &&& 0xF0001FFFFFFFFFFF) ||| (chain.w 0 &&& 0x0FFFE00000000000)) :: d.words.tail }
        r.1.engAfter e d flags r.2.1 r.2.2
      | (b, f) :: _ =>
        if d.epi = 2 then ((r.1.rowOver e f d b r.2.1 flags).engDone e d false 0).chainRun chain bodies rest (m + 1) e flags
        else (r.1.engAfter e d flags r.2.1 r.2.2).chainRun chain bodies rest (m + 1) e flags

/-- The bodies of CHAIN `c` of engine e, each with its member, once they have been forwarded: body 0 stands behind the
CHAIN, the others are those that the members hold. -/
def State.sentBodies (s : State) (e : Nat) (c : Descr) (members : List Nat) : List (Descr × Nat) :=
  members.zipIdx.filterMap (fun x =>
    (if x.2 = 0 then ((s.engine e).queue.tail).head? else (s.engine x.1).queue.find? (fun d => d.chain == some (e, c.seq))).map
      (fun d => (d, x.1)))

/-- The first engine keeps body 0 and forwards body m to member m (R148). -/
def State.sendBodies (s : State) (e : Nat) (c : Descr) (bodies : List Descr) (members : List Nat) : State :=
  let s := s.modEngine e (fun g => { g with queue := { c with sent := true } :: (bodies.take 1 ++ g.queue.tail.drop bodies.length) })
  ((bodies.zip members).drop 1).foldl (fun s x => s.forwardBody e c x.2 x.1) s

/-- CHAIN: 2 to 4 body commands over consecutive engines of the stage, as one command of engine e (R148, R149). The bodies
enter their members' queues first, behind what waits there (R130); the chain runs when each is at the head. -/
def execChain (e : Nat) (s : State) : Res :=
  s.engHead e clsCHAIN (fun c =>
    let n := bits64 (c.w 1) 63 62 + 1
    let members := s.chainMembers e n
    let bodies := ((s.engine e).queue.tail).take n
    if !(c.word0Bare && bits64 (c.w 1) 61 0 == 0 && c.w 2 == 0 && c.w 3 == 0 && decide (2 ≤ n)
        && members.length == n) then s.engFail e c 4
    else if !c.sent ∧ (bodies.length < n ∨ (members.drop 1).any (fun x => !(s.engine x).takesBody)) then s.engWait e
    else
      let s := if c.sent then s else s.sendBodies e c bodies members
      let ds := s.sentBodies e c members
      if ds.length < n ∨ s.chainWaits e c ds then s.engWait e
      else
        let s := ds.zipIdx.foldl (fun s x => s.modEngine x.1.2 (fun g =>
          { g with queue := g.queue.drop (if x.2 = 0 then 2 else 1), waitTick := none })) s
        s.chainRun c (ds.map (·.1)) ds 0 e 0)

/-! ### Staging fills (R128, R129, R175, R216) -/

def Fill.token (f : Fill) : Entry := { w0 := f.words.getD 0 0, w1 := f.words.getD 1 0 }
def Fill.tag (f : Fill) : Nat := bits64 (f.words.getD 2 0) 63 59
def Fill.base (f : Fill) : Nat := bits64 (f.words.getD 2 0) 58 42
def Fill.pitch (f : Fill) : Nat := bits64 (f.words.getD 2 0) 41 32
def Fill.firstPx (f : Fill) : Nat := bits64 (f.words.getD 2 0) 31 16
def Fill.pxCount (f : Fill) : Nat := bits64 (f.words.getD 2 0) 15 0
def Fill.queue (f : Fill) : Nat := bits64 (f.words.getD 3 0) 13 0
/-- Bits of one pixel of the source. -/
def Fill.pxBits (f : Fill) : Nat := f.token.chans * fmtStored f.token.fmt.toNat
/-- Bytes of one pixel in staging. -/
def Fill.pxBytes (f : Fill) : Nat := ceilDiv f.pxBits 8

/-- The request is in order (R216): a data token, the pixels inside it, every field in its range, and zc only for the
formats of R175. -/
def Fill.ok (f : Fill) : Bool :=
  let t := f.token
  t.kind == kindData && fmtListed t.fmt.toNat
  && decide (1 ≤ f.pxCount) && decide (f.pxCount ≤ 32768) && decide (1 ≤ f.pitch) && f.base % 16 == 0
  && decide (t.firstPx ≤ f.firstPx) && decide (f.firstPx + f.pxCount ≤ t.firstPx + t.pxCount)
  && bits64 (f.words.getD 3 0) 63 14 == 0
  && (!t.zc || [fmtINT8, fmtU8Z, fmtE4M3, fmtE5M2, fmtINT16].contains t.fmt.toNat)

/-- A fill waits for an earlier command that names its tag (R129). -/
def Engine.fillHeld (g : Engine) (f : Fill) : Bool :=
  (ownCmds 0 0 g.queue).any (fun d => decide (d.seq < f.after) && d.computes && d.tags.contains f.tag)

/-- Expand a zero-compressed payload of `n` elements (R175): the elements' bytes, `w` bytes each, and how many compressed
bytes were used. `z` is the format's zero. -/
def expandZc (w per : Nat) (z : Nat) : Nat → Nat → List Byte → List Byte × Nat
  | 0, _, _ => ([], 0)
  | _ + 1, 0, _ => ([], 0)
  | fuel + 1, n + 1, bs =>
    let m := leNat (bs.take 2)
    let k := min per (n + 1)
    let body := bs.drop 2
    let r := (List.range k).foldl (fun (a : List Byte × Nat) j =>
      if m.testBit j then (a.1 ++ (body.drop a.2 ++ List.replicate w 0).take w, a.2 + w)
      else (a.1 ++ leBytes w z, a.2)) ([], 0)
    let t := expandZc w per z fuel (n + 1 - k) (body.drop r.2)
    (r.1 ++ t.1, 2 + r.2 + t.2)

/-- Bits `o .. o + n` of bytes, as n/8 bytes (rounded up). -/
def bitSlice (bs : List Byte) (o n : Nat) : List Byte :=
  leBytes (ceilDiv n 8) (leNat ((bs.drop (o / 8)).take (ceilDiv (o % 8 + n) 8)) / 2 ^ (o % 8) % 2 ^ n)

/-- Longest payload that a fill reads: compressed blocks are at most 1/8 longer than their elements. -/
def Fill.maxBytes (f : Fill) : Nat :=
  let n := ceilDiv (f.token.pxCount * f.pxBits) 8
  if f.token.zc then n + 2 * ceilDiv (f.token.pxCount * f.token.chans) 8 + 16 else n

/-- The payload bytes from the token's first pixel on, whether each is poisoned, and the state after the read, in which
errors are met (R155, R338); none for an access outside the instance's windows, or for tile SRAM of a stage without tiles.
`d` is the stage whose tile SRAM the token's window 0xFF names (R158). -/
def State.fillSource (s : State) (i : Nat) (d : Option StageDesc) (f : Fill) : Option (List Byte × List Bool × State) :=
  let t := f.token
  let last := if t.zc then 1 else ceilDiv ((f.firstPx + f.pxCount - t.firstPx) * f.pxBits) 8
  let access := t.window == 0xFF || (match s.window i t.window with | some w => w.access.testBit 0 | none => false)
  let room := if t.window = 0xFF then f.maxBytes else s.windowSize i t.window - 64 * t.offset
  let n := min f.maxBytes room
  if !access ∨ n < last then none
  else
    (s.rowBytes i d t.window t.offset n).map (fun as =>
      let k : MemKind := if t.window = 0xFF then .tile else .bulk
      let s := s.meetWords k (if t.zc then as else as.take last)
      (as.map s.rdByte, as.map (fun a => s.poison.contains (a / 8 * 8)), s))

/-- Store one staging byte; addresses wrap within 128 KiB (R129). -/
def State.stagingByte (s : State) (p a : Nat) (b : Byte) : State := s.wrByte (memAddr .staging p (a % 0x20000)) b

/-- Write the pixels of a fill into staging, carrying poison marks. -/
def State.fillWrite (s : State) (p : Nat) (f : Fill) (bs : List Byte) (bad : Nat → Bool) : State :=
  let r := (List.range f.pxCount).foldl (fun (r : State × List (Nat × Bool)) x =>
    let o := (f.firstPx + x - f.token.firstPx) * f.pxBits
    ((bitSlice bs o f.pxBits).zipIdx.foldl (fun (r : State × List (Nat × Bool)) b =>
      let a := f.base + x * f.pitch + b.2
      (r.1.stagingByte p a b.1,
        (memAddr .staging p (a % 0x20000), bad (o / 8 + b.2) || bad ((o + 7) / 8 + b.2)) :: r.2)) r)) (s, [])
  r.1.markWords r.2

/-- The bytes of the source with its zero compression expanded (R175). The fill does not say which zero point a U8Z row
has: a free value. -/
def Fill.expand (f : Fill) (s : State) (bs : List Byte) (bad : List Bool) : State × List Byte × (Nat → Bool) :=
  let t := f.token
  if !t.zc then (s, bs, fun n => bad.getD n false)
  else
    let r := s.draw
    let z := if t.fmt.toNat = fmtU8Z then r.1.toNat % 256 else 0
    let s := if t.fmt.toNat = fmtU8Z then r.2 else s
    let n := t.pxCount * t.chans
    let w := if t.fmt.toNat = fmtINT16 then 2 else 1
    let x := expandZc w (if w = 2 then 8 else 16) z (n + 1) n bs
    let p := (bad.take x.2).any (· == true)
    (s, x.1, fun _ => p)

/-- The tag of a fill becomes invalid when the fill starts (R129). -/
def Engine.fillStart (g : Engine) (f : Fill) : Engine :=
  { g with tags := SMap.set {} f.tag { SMap.get {} g.tags f.tag with valid := false } g.tags }

/-- A fill that has started aborts (R239, R244): the request is discarded and its tag stays invalid. -/
def State.fillAbort (s : State) (i e q cause : Nat) (f : Fill) : State :=
  (s.modEngine e (fun g => g.fillStart f)).recordAbort i q 0xFFFF cause 0

/-- Remove the first fill equal to `f`. -/
def Engine.dropFill (g : Engine) (f : Fill) : Engine := { g with fills := g.fills.erase f }

/-- The data of a fill arrives: staging, then the tag (R128). -/
def State.fillRun (s : State) (i e q : Nat) (f : Fill) : State :=
  match s.fillSource i ((s.inst i).stageOfEngine e) f with
  | none => s.fillAbort i e q 1 f
  | some (bs, bad, s) =>
    let x := f.expand s bs bad
    let s := x.1.fillWrite (x.1.engPhys e) f x.2.1 x.2.2
    let t := f.token
    let s := s.carried i (ceilDiv ((bad.filter (· == true)).length) 8)
    let tag : RowTag := { base := f.base, firstPx := f.firstPx, px := f.pxCount, chans := t.chans, pitch := f.pitch,
                          fmt := t.fmt, r := t.r, valid := true, flags := t.flags }
    s.modEngine e (fun g => { g with tags := SMap.set {} f.tag tag g.tags })

/-- FILL_DONE: the oldest fill of engine e that no earlier command holds back completes and sets its tag (R128, R129,
R216, R244). -/
def execFillDone (e : Nat) (s : State) : Res :=
  let g := s.engine e
  match g.fills.find? (fun f => !g.fillHeld f), s.engOwner e with
  | some f, some i =>
    if g.stopped ∨ g.swap ≠ 0 then .next s
    else
      let d : Descr := { words := [], seq := f.after, core := f.core, line := f.token.tokLine }
      let drop (t : State) : State := t.modEngine e (fun g => g.dropFill f)
      if !f.ok then .next ((drop s).engFail e d 4)
      else if f.token.window = 0xFF then .next ((drop s).fillRun i e 0 f)
      else
        match s.localQueue i f.queue with
        | none => .next ((drop s).engFail e d 4)
        | some q =>
          if (s.queue q).maxb.toNat < ceilDiv (f.pxCount * f.pxBits) 8 then .next ((drop s).fillAbort i e q 3 f)
          else if !s.mayStart q then .next s
          else
            let x := s.pickEngine (bits (s.queue q).cap 17 16)
            .next (((drop x.2).countBeats x.1 (ceilDiv (f.pxCount * f.pxBits) 512)).fillRun i e q f)
  | _, _ => .next s

end Sys2Proof.Machine
end

