-- ==== Sys2Proof/Machine/Signals.lean ====
section
/-! DEFINITION. Straps, PERST#, the flash boot, the reset of the manager function, GPIO, probes, boundary scan and the debug
memory window (R355, R415, R419, R422 to R430). -/

namespace Sys2Proof.Machine

/-! ### Straps (R365, R378, R422) -/

/-- STRAP_SAMPLE: the eight straps, once per cold start. -/
def execStrapSample (straps : BitVec 8) (t : Nat) (s : State) : Res :=
  let s := s.at_ t
  let b (n : Nat) : Nat := straps.toNat / 2 ^ n % 2
  let tandem := b 3 + 2 * b 4
  let s' := s.wr Reg.HIF_STRAPS (BitVec.ofNat 32 (b 0 + 2 * b 1 + 16 * b 2 + 256 * tandem + 4096 * b 5))
  let s' := s'.setBit Reg.CLK_STAT 28 (b 2 == 1)
  s.onlyIf s.sig.straps.isNone
    { s' with sig := { s'.sig with straps := some straps }
              tdm := { s'.tdm with strap := tandem, role := if tandem = 1 then 1 else if tandem = 2 then 2 else 0 } }

/-! ### The reset of the physical function (R355, R415) -/

/-- Registers that show a strap, a PLL, a sensor, a comparator or the fenced cores: a function-level reset leaves them. -/
def shownRegs : List Nat :=
  [Reg.HIF_STRAPS, Reg.CLK_STAT, Reg.PWR_STAT, Reg.PWR_TJ, Reg.STO_HOLD] ++ (List.range 10).map Reg.CLK_PLL
    ++ (List.range 16).map Reg.PWR_S_TEMP ++ (List.range 4).map Reg.HIF_CORE_FENCED

/-- Tj is below the warning. -/
def State.cool (s : State) (warn : Nat) : Bool := decide (((s.rd Reg.PWR_TJ).setWidth 16).toInt < quarterDegrees warn)

/-- Does the device stay at its kickstand: parked and still hot, or without its reference (R387, R396)? -/
def State.staysDown (s : State) : Bool := s.flt.down && ((s.bit Reg.PWR_STAT 28 && !s.cool (s.fld Reg.PWR_THERM 7 0)) || s.clk.refLost)

/-- Domains after the reset: one that had stopped starts gated when it is gateable; a divider of 1 is the new target. -/
def resetDom (d : Nat) (x : Domain) : Domain :=
  if x.stopped then (if gateable d then { gated := true, ratio := 3 } else {})
  else if gateable d ∧ !x.gated ∧ x.ramp = 0 ∧ x.ratio ≠ 0 then { x with ramp := 3 }
  else x

/-- Every instance is reset, every register returns to its reset value, and the store is remounted. -/
def State.managerReset (s : State) : State :=
  if s.store.hold ≠ 0 then s
  else
    let s := instNums.foldl (fun s i => if (s.inst i).st == .unloaded then s else (s.resetInst i).resetEnd i) s
    let s := s.closeStore 0
    let down := s.staysDown
    let r := shownRegs.map (fun a => (a, s.rd a))
    let y := s.sig
    let s : State := { s with
      regs := [], queues := [], engines := [], tiles := [], insts := [], tasks := [], outSegs := [], mapLive := [], actLive := []
      cores := s.cores.filter (fun c => c.2.st == .fenced)
      cad := { braked := s.cad.braked, brakedAt := s.brakedAll, genStart := s.now, silentFrom := s.now }
      flt := { s.flt with rings := [], testQ := [], testing := [], takeover := none, engRepair := none, repairWait := [], down := down }
      clk := { s.clk with doms := if s.clk.refLost then s.clk.doms else SMap.mapVals {} resetDom s.clk.doms
                          onRc := s.clk.refLost }
      hif := { vfEnabled := s.hif.vfEnabled, vfWritten := s.hif.vfWritten, fnMask := s.hif.fnMask
               vecOpen := s.hif.vecOpen.filter (256 ≤ ·), pba := s.hif.pba.filter (256 ≤ ·), msgs := s.hif.msgs, lastRead := s.hif.lastRead }
      sig := { straps := y.straps, perst := y.perst, released := y.released, anyReleased := y.anyReleased, ir := y.ir
               scan := y.scan, dr := y.dr, smbPtr := y.smbPtr, alert := y.alert, boot := y.boot, bootAgain := y.bootAgain } }
    let s := r.foldl (fun s p => s.wr p.1 p.2) s
    let s := ((s.setBit Reg.CLK_STAT 31 s.clk.refLost).setBit Reg.PWR_STAT 28 (s.bit Reg.PWR_STAT 28 && down)).brakeAll
    if s.sig.released then s.initStore.startMount else s

/-- MANAGER_FUNCTION_LEVEL_RESET (R355). -/
def execManagerFunctionLevelReset (t : Nat) (s : State) : Res := .next (s.at_ t).managerReset

/-- PERST_FALL: PERST# falls after it has been high: the reset of the manager function, and every configuration space (R423). -/
def execPerstFall (t : Nat) (s : State) : Res :=
  let s := s.at_ t
  let s' := s.managerReset
  s.onlyIf s.sig.perst
    { s' with hif := { s'.hif with vfEnabled := 0, vfWritten := false, fnMask := 0, vecOpen := [], pba := [] }
              sig := { s'.sig with perst := false, bootAgain := true } }

/-- PERST_RISE: link training may start, and a flash boot may be repeated (R423). -/
def execPerstRise (t : Nat) (s : State) : Res :=
  let s := s.at_ t
  .next { s with sig := { s.sig with perst := true } }

/-- The boot strap selects flash A or flash B. -/
def State.flashStrap (s : State) : Bool := s.fld Reg.HIF_STRAPS 1 0 == 1 || s.fld Reg.HIF_STRAPS 1 0 == 2

/-- FLASH_BOOT: once the mapping is complete, or again once PERST# has risen (R423, R424). -/
def execFlashBoot (s : State) : Res :=
  let again := s.sig.bootAgain && s.sig.perst
  s.onlyIf (s.sig.mapped && s.flashStrap && !s.flt.down && (s.inst 0).st == .unloaded && (s.sig.boot == 0 || again))
    { s with sig := { s.sig with bootAgain := false } }.bootFirst

/-! ### GPIO (R427, R428) -/

/-- GPIO_PULSE_END: the width has passed since the newest alarm. -/
def execGpioPulseEnd (k t : Nat) (s : State) : Res :=
  let s := s.at_ t
  match SMap.find s.sig.gpioEnd k with
  | none => .next s
  | some e =>
    s.onlyIf (decide (e ≤ s.now))
      { s with sig := { s.sig with gpioEnd := SMap.del k s.sig.gpioEnd
                                   gpioLevel := s.sig.gpioLevel &&& ~~~(BitVec.ofNat 8 (2 ^ k)) } }

/-- The level of GPIO k at the ball: high impedance reads 0 by the pull-down. -/
def State.gpioBall (s : State) (k : Nat) : Bool :=
  let g := s.rd (Reg.DBG_GPIO k)
  let o := bits g 27 24
  if !s.sig.released || s.flt.down || !s.bit Reg.PWR_STAT 31 then false
  else if bits g 31 30 = 1 ∧ o = 8 then g.getLsbD 29
  else if bits g 31 30 = 2 ∧ o < 8 ∧ !s.follows ∧ ((s.inst o).live ∨ ((s.inst o).st = .held ∧ 1 ≤ (s.inst o).relStep)) then
    s.sig.gpioLevel.getLsbD k
  else false

/-! ### Probes (R429) -/

/-- The level of a numbered signal. One that lasts a cycle (a delivered tick, a result committed) shows 0 between commands. DESIGN
CHOICE (log entry 78): an outlet lane has no receiver, and its block lock shows 0. -/
def State.signal (s : State) (n : Nat) : Bool :=
  if n = 1 then true
  else if n = 4 then s.clk.braking != 0
  else if n = 5 then s.clk.onRc
  else if 0x10 ≤ n ∧ n < 0x90 then
    let x := s.inst ((n - 0x10) / 16)
    if n % 16 = 1 then x.st == .freewheel
    else if n % 16 = 4 then (match x.sheets.getLast? with | some h => h.storm | none => false)
    else n % 16 == 7 && x.st == .kickstand
  else if 0x100 ≤ n ∧ n < 0x200 then
    let g := s.engine ((n - 0x100) / 4)
    if n % 4 = 1 then !g.fills.isEmpty else if n % 4 = 2 then !g.epis.isEmpty else n % 4 == 3 && g.waitTick.isSome
  else if 0x200 ≤ n ∧ n < 0x300 then
    let c := (n - 0x200) / 4
    if n % 4 = 1 then tileRows.any (fun r => (s.tile c r).waitKind == 1)
    else if n % 4 = 2 then (match s.colOwner c with
      | some i => (match (s.inst i).stageOfCol c with
        | some d => (match (s.inst i).stage d.id with | some g => g.st == .reloading | none => false)
        | none => false)
      | none => false)
    else n % 4 == 3 && s.flt.proxy.contains c
  else if 0x300 ≤ n ∧ n < 0x400 then
    let c := s.core ((n - 0x300) / 2)
    if n % 2 = 0 then c.st == .running else c.st == .waiting || c.st == .tickwait
  else if 0x400 ≤ n ∧ n < 0x420 then s.bit Reg.INL_LANE_LOCK (n - 0x400)
  else if 0x428 ≤ n ∧ n < 0x430 then s.tdm.lanesUp.getLsbD (n - 0x428)
  else if 0x800 ≤ n ∧ n < 0x800 + 184 then
    let x := s.dom ((n - 0x800) / 2)
    if n % 2 = 0 then x.gated else x.braked
  else false

/-- The level of PROBE k: low until the internal reset is released, and while the device is at its kickstand (R427). -/
def State.probePin (s : State) (k : Nat) : Bool :=
  let v := s.rd (Reg.DBG_P_SEL k)
  s.sig.released && !s.flt.down && s.signal (if s.sig.probeB.getLsbD k then bits v 27 16 else bits v 11 0)

/-- A window of probe k after a delivered tick, `once` for mode 2. -/
def State.openWindow (s : State) (k : Nat) (once : Bool) : State :=
  let v := s.rd (Reg.DBG_P_TRIG k)
  let a := s.now + 4 * bits v 29 16
  { s with sig := { s.sig with windows := s.sig.windows ++ [(k, a, a + 4 * bits v 11 0, once)] } }

/-- What a delivered tick does to probe k. -/
def State.probeTick (s : State) (k : Nat) : State :=
  let v := s.rd (Reg.DBG_P_TRIG k)
  let left := s.fld (Reg.DBG_P_STAT k) 15 0
  if bits v 31 30 = 1 then (if bits v 11 0 = 0 then s else s.openWindow k false)
  else if bits v 31 30 = 2 ∧ s.sig.probeArmed.getLsbD k ∧ 0 < left then
    let s := s.setFld (Reg.DBG_P_STAT k) 15 0 (left - 1)
    if left = 1 then { s with sig := { s.sig with probeArmed := s.sig.probeArmed &&& ~~~(BitVec.ofNat 4 (2 ^ k)) } }.openWindow k true
    else s
  else s

/-- A write of DBG_P_CNT arms the mode-2 window. -/
def State.armProbe (s : State) (k : Nat) (v : Word) : State :=
  let s := (s.wr (Reg.DBG_P_CNT k) (v &&& 0xFFFF)).wr (Reg.DBG_P_STAT k) (v &&& 0xFFFF)
  { s with sig := { s.sig with probeArmed := s.sig.probeArmed ||| BitVec.ofNat 4 (2 ^ k) } }

/-- PROBE_WINDOW_EDGE: the pin follows the windows at this instant; a mode-2 window that has passed fires. -/
def execProbeWindowEdge (k t : Nat) (s : State) : Res :=
  let s := s.at_ t
  if 4 ≤ k then .next s
  else
    let past := s.sig.windows.filter (fun w => w.1 == k && decide (w.2.2.1 ≤ s.now))
    let ws := s.sig.windows.filter (fun w => !(w.1 == k && decide (w.2.2.1 ≤ s.now)))
    let inside := ws.any (fun w => w.1 == k && decide (w.2.1 ≤ s.now))
    let m := BitVec.ofNat 4 (2 ^ k)
    let s := { s with sig := { s.sig with windows := ws, probeB := if inside then s.sig.probeB ||| m else s.sig.probeB &&& ~~~m } }
    .next (if past.any (fun w => w.2.2.2) then (s.setBit (Reg.DBG_P_STAT k) 31 true).event Reg.DBG_EVT 1 else s)

/-! ### Alert and boundary scan (R419, R426) -/

/-- ALERT_RESPONSE: a successful response releases SMBALERT#. -/
def execAlertResponse (s : State) : Res := .next { s with sig := { s.sig with alert := false } }

/-- The identity register. -/
def idcode : BitVec 72 := BitVec.ofNat 72 (0x10000001 + 0x008A * 4096 + 2 * Config.jtagManufacturer.toNat)

/-- An instruction takes hold: the instruction register, the effect in force, and what its data register captures. -/
def State.jtag (s : State) (ir scan : Byte) (dr : BitVec 72) : State := { s with sig := { s.sig with ir := ir, scan := scan, dr := dr } }

/-- EXTEST, HIGHZ and CLAMP take effect only while every instance is unloaded and the store is absent, closed or
unformatted; else they act as BYPASS. -/
def State.scanIns (s : State) (ir : Byte) : State :=
  if s.allUnloaded && (s.store.st == 0 || s.store.st == 4 || s.store.st == 5) then s.jtag ir ir 0
  else (s.jtag ir 0xFF 0).event Reg.DBG_EVT 0

/-- EXTEST. -/
def execExtest (s : State) : Res := .next (s.scanIns 0x00)
/-- HIGHZ. -/
def execHighz (s : State) : Res := .next (s.scanIns 0x03)
/-- CLAMP. -/
def execClamp (s : State) : Res := .next (s.scanIns 0x04)
/-- SAMPLE/PRELOAD: the boundary-scan chain is selected, and the pins go on as they are. -/
def execSamplePreload (s : State) : Res := .next (s.jtag 0x02 0xFF 0)
/-- IDCODE. -/
def execIdcode (s : State) : Res := .next (s.jtag 0x01 0xFF idcode)
/-- BYPASS. -/
def execBypass (s : State) : Res := .next (s.jtag 0xFF 0xFF 0)
/-- TEST_LOGIC_RESET: IDCODE is selected, and boundary scan ends. -/
def execTestLogicReset (s : State) : Res := .next (s.jtag 0x01 0xFF idcode)

/-! ### The debug memory window (R430) -/

/-- The memory of a number. -/
def memOf : Nat → Option MemKind
  | 0 => some .weight | 1 => some .staging | 2 => some .acc | 3 => some .tile | 4 => some .core | 5 => some .bulk | 6 => some .commit
  | _ => none

/-- The word that DBG_MEM_ADDR names: memory, unit and byte offset in the unit; none beyond the memory or unit. -/
def State.debugWord (s : State) : Option (Nat × Nat × Nat) :=
  let hi := s.rd Reg.DBG_MEM_ADDR_HI
  let off := 8 * s.fld Reg.DBG_MEM_ADDR_LO 26 3
  let m := bits hi 31 28
  let u := bits hi 22 16
  match memOf m with
  | none => none
  | some k =>
    if k.units ≤ u then none
    else if k = .tile then (if off < 0x4000 then some (m, u, 0x4000 * bits hi 12 8 + off) else none)
    else if off < k.size then some (m, u, off) else none

/-- DBG_MEM_CMD takes a value. -/
def State.memCmd (s : State) (v : Word) : State :=
  let rd := v.getLsbD 0
  let wr := v.getLsbD 1
  if s.sig.memOp.isSome || (!rd && !wr) then s
  else
    match (if rd && wr then none else s.debugWord) with
    | none => (s.setBit Reg.DBG_MEM_STAT 1 true).event Reg.DBG_EVT 2
    | some (m, u, off) =>
      let w : DWord := (s.rd Reg.DBG_MEM_DATA_HI) ++ (s.rd Reg.DBG_MEM_DATA_LO)
      { s.wr Reg.DBG_MEM_STAT 0x80000000 with
        sig := { s.sig with memOp := some { memory := m, unit := u, off := off, word := if wr then some w else none } } }

/-- MEM_ACCESS_DONE: the word is read, corrected, with its poison reported, or stored whole with good check bits. -/
def execMemAccessDone (s : State) : Res :=
  match s.sig.memOp with
  | none => .next s
  | some o =>
    let s := { s with sig := { s.sig with memOp := none } }.wr Reg.DBG_MEM_STAT 0
    match memOf o.memory with
    | none => .next s
    | some k =>
      let a := memAddr k o.unit o.off
      match o.word with
      | some w => .next ((s.wrBytes a (leBytes 8 w.toNat)).event Reg.DBG_EVT 3)
      | none =>
        let r := s.secded k a 8
        let s := (r.1.wr64 Reg.DBG_MEM_DATA_LO Reg.DBG_MEM_DATA_HI (leNat (r.1.rdBytes a 8))).healIf
          (fun a => a == Reg.DBG_MEM_DATA_LO || a == Reg.DBG_MEM_DATA_HI)
        .next ((s.setBit Reg.DBG_MEM_STAT 2 r.2).event Reg.DBG_EVT 3)

end Sys2Proof.Machine
end

