-- ==== Sys2Proof/Machine/Tick.lean ====
section
/-! DEFINITION. The cadence: pulses, sources, and what a delivered tick does to every instance: early ticks, the closing
of a line, sheets, freewheel, the slots of the stages, drops, and the watch on waits (R8 to R27, R56, R57, R361, R369, R375,
R431, R433). -/

namespace Sys2Proof.Machine

def State.modCad (s : State) (g : Cadence → Cadence) : State := { s with cad := g s.cad }

/-- The cadence domain is clocked. -/
def State.cadenceRuns (s : State) : Bool := !(s.dom 109).stopped

/-! ### The line that an accepted tick closes -/

/-- The open sheet of an instance: the last, unless it has ended. -/
def Inst.openSheet? (x : Inst) : Option Sheet :=
  match x.sheets.getLast? with
  | some h => if h.ended.isNone then some h else none
  | none => none

/-- What the frames of a line say on the tick stream: whether one carries SOS, and the sheet number of the first. -/
def State.streamSheet (s : State) (x : Inst) (l : Word) : Bool × Option (BitVec 24) :=
  let ts := s.fld Reg.INL_CTRL 7 4
  let fs := ((x.lineSegs l).filter (fun g => g.stream == ts)).map (fun g => (g.sos, g.sheet))
    ++ (x.marks.filter (fun m => m.1 == l)).map (fun m => (m.2.1, m.2.2))
  (fs.any (·.1), (fs.head?).map (·.2))

/-- How the line's sheet number stands to the open sheet's (R16): does it count as a mark, and does it move backwards? -/
def sheetMoves (sos : Bool) (num : Option (BitVec 24)) (old : Option Sheet) : Bool × Bool × Bool :=
  match num, old with
  | some n, some h =>
    let d := (n - h.num).toNat
    let fwd := decide (1 ≤ d) && decide (d < 2 ^ 23)
    (sos || fwd, fwd && !sos, decide (2 ^ 23 ≤ d))
  | _, _ => (sos, false, false)

/-- A mark that an instance sees at an accepted tick: from a pulse or an early tick, or from the host. -/
structure Seen where
  mark : Bool
  host : Bool
deriving DecidableEq, Repr

/-- Lines whose result the last output stage owes: those of its phase. -/
def Inst.owesResult (x : Inst) (l : Word) : Bool :=
  match x.lastOutput with
  | some d => decide (d.rate ≤ 1) || l.toNat % d.rate == d.phase
  | none => false

/-- Instance i enters freewheel at this accepted tick (R24, R27, R43). -/
def State.enterFreewheel (s : State) (i : Nat) (mark : Bool) : State :=
  let x := s.inst i
  let gone (l : LineSlot) : Bool := l.admitted && !l.done && !l.lost && !l.voided
  let s := { s with tdm := { s.tdm with waiting := s.tdm.waiting.filter (fun w => w.1.inst != i) } }
  let n := (x.hist.filter (fun l => gone l && x.owesResult l.line)).length
  let lines := x.segs.map (·.line)
  let y := { x with
    st := .freewheel, curLine := none
    hist := x.hist.map (fun l => if gone l then { l with lost := true } else l)
    stages := x.stages.map (fun g => { g with waiting := [] })
    window := lines.foldl (fun (w : Option Word) l => match w with | some v => if isAfter v l then some l else some v | none => some l) none }
  let s := ((s.setInst i y).countBy (Reg.CAD_I_FW_LOST i) n).count (Reg.CAD_I_FW_TICKS i)
  (if mark then s.count (Reg.CAD_I_FW_SHEETS i) else s).event (Reg.CAD_I_EVT i) 4

/-- Instance i leaves freewheel: the first line of the window becomes the current line (R26). -/
def State.leaveFreewheel (s : State) (i : Nat) : State :=
  let x := s.inst i
  let m := match x.image with | some im => im.m | none => 0
  let s := s.setInst i { x with st := .running, curLine := x.window, window := none, warmupLeft := m, warmLines := m, fwExit := x.ticks }
  (s.wr (Reg.INL_I_EMPTY i) 0).event (Reg.CAD_I_EVT i) 5

/-- The number of the sheet that this tick opens (R14, R16): CAD_SHEET_NUM, or with sheet_src 1 what the line carries, else
the open sheet's. -/
def State.newNumber (s : State) (i : Nat) (num : Option (BitVec 24)) : BitVec 24 :=
  if s.cad.sheetSrc ≠ 1 then (s.rd Reg.CAD_SHEET_NUM).setWidth 24
  else num.getD ((s.rd (Reg.INL_I_SHEET i)).setWidth 24)

/-- The sheet boundary of a tick that closes line l: the first sheet opens, or the open one ends and the next opens, with
the plan's decision (R26, R264, R282). -/
def State.boundary (s : State) (i : Nat) (l : Word) (num : BitVec 24) (bound byR26 : Bool) : State :=
  match (s.inst i).openSheet? with
  | none => s.openSheet i num l
  | some _ => if bound then ((s.endSheet i byR26).openSheet i num l).adpBoundary i num else s

/-- The flags that the inlet puts on a line: short, gap, warm-up. -/
def Inst.inletFlags (x : Inst) (short : Bool) : Byte :=
  flagIf short flagShort ||| flagIf x.gapNext flagGap ||| flagIf (decide (0 < x.warmLines)) flagWarmup

/-- The closed line is admitted: its tokens, ahead of the first data token of a sheet its SHEET token. -/
def State.takeIn (s : State) (i : Nat) (l : Word) (gs : List Seg) (short : Bool) : State :=
  let x := s.inst i
  let first := match x.openSheet? with | some h => h.firstAdmitted.isNone | none => false
  let num := match x.openSheet? with | some h => h.num | none => 0
  let s := s.admitLine i l (x.inletFlags short) gs (if first then some num else none)
  let s := s.modInst i (fun x =>
    { x with lastAdmitted := some l, gapNext := false, warmLines := x.warmLines - 1
             sheets := x.sheets.map (fun h => if h.ended.isNone ∧ h.firstAdmitted.isNone then { h with firstAdmitted := some l } else h) })
  if short then (s.count (Reg.CAD_I_SHORT i)).event (Reg.CAD_I_EVT i) 3 else s

/-- The slot of the closed line goes into the history, which keeps the newest 8,192, and the next line is the current one. -/
def State.pushSlot (s : State) (i : Nat) (l : Word) (dropped : Bool) (flags : Byte) : State :=
  let x := s.inst i
  let h := match x.openSheet? with | some h => (h.num, h.ord) | none => (0, 0)
  let slot : LineSlot := { tick := x.ticks, line := l, admitted := !dropped, dropped := dropped, flags := flags, sheet := h.1
                           ord := h.2, adp := s.rd (Reg.ADP_I_EDITION i) }
  let n := l + 1
  let segs := x.segs.filter (fun g => isAfter g.line l)
  let s := (s.setInst i { x with hist := (slot :: x.hist).take 8192, curLine := some n, segs := segs
                                 marks := x.marks.filter (fun m => isAfter m.1 l) }).wr (Reg.INL_I_SEQ i) n
  if segs.any (fun g => g.line == n) then s.wr (Reg.INL_I_EMPTY i) 0 else s

/-! ### Slots and line starts (R19, R20, R56, R433) -/

/-- The position that reaches a stage of offset `off` at this tick: its slot, or one of no line, whose number is open. -/
def State.slotFor (s : State) (i off : Nat) : LineSlot × State :=
  let x := s.inst i
  match x.hist.find? (fun l => l.tick + off == x.ticks) with
  | some l => (l, s)
  | none =>
    let r := s.draw
    ({ tick := x.ticks - off, line := r.1.setWidth 32, admitted := false, dropped := false, flags := 0, sheet := 0 }, r.2)

/-- A stage that a poisoned fetch has stopped sends a VOID for each line it would start (R433). -/
def State.voidLines (s : State) (i sid : Nat) (ls : List LineSlot) : State :=
  ls.foldl (fun s l =>
    let f := match (s.inst i).stage sid with | some g => g.discFlags | none => 0
    (s.sendVoids i sid l.line f).modInst i (fun x => x.modStage sid (fun g => { g with discFlags := 0 }))) s

/-- Is the stage stopped by a poisoned fetch (R433)? -/
def Stage.awaitsReload (g : Stage) : Bool := g.st == .fencedRepairing && g.stopTick.isSome

/-- The slot of a dropped line reaches stage `sid`. It is no part of the slip (R19): a stage that is free works on its buffers
as they stand (R57), one that is behind passes over it, and a stopped one sends its VOID (R433). -/
def State.passDropped (s : State) (i sid : Nat) (l : LineSlot) : State :=
  match (s.inst i).stage sid with
  | some g =>
    if g.awaitsReload then s.voidLines i sid [l]
    else if g.working.isNone && g.waiting.isEmpty && s.mayWork i sid then
      s.modInst i (fun x => x.modStage sid (fun g => { g with waiting := [l] }.start))
    else s
  | none => s

/-- The slot of this tick reaches stage d (R56, R57). -/
def State.scheduleStage (s : State) (i : Nat) (d : StageDesc) : State :=
  let r := s.slotFor i d.offset
  let s := r.2
  let l := r.1
  if 1 < d.rate ∧ l.line.toNat % d.rate ≠ d.phase then s
  else if l.dropped then s.passDropped i d.id l
  else
    let s := s.modInst i (fun x => x.modStage d.id (fun g => { g with waiting := g.waiting ++ [l] }))
    match (s.inst i).stage d.id with
    | some g =>
      if g.awaitsReload then
        (s.modInst i (fun x => x.modStage d.id (fun g => { g with waiting := [] }))).voidLines i d.id g.waiting
      else s.startNext i d.id
    | none => s

/-- Every stage whose offset `on` names takes its slot. -/
def State.schedule (s : State) (i : Nat) (on : Nat → Bool) : State :=
  ((s.inst i).stageDescs.filter (fun d => on d.offset)).foldl (fun s d => s.scheduleStage i d) s

/-- Lines dropped at the inlet whose slot has not yet reached a stage of offset `off`. -/
def Inst.pendingDrops (x : Inst) (off : Nat) : Nat := (x.hist.filter (fun l => l.dropped && decide (x.ticks < l.tick + off))).length

/-- Does the inlet drop the line it closes (R20)? -/
def Inst.mustDrop (x : Inst) : Bool :=
  x.stageDescs.any (fun d => match x.stage d.id with
    | some g => decide (d.depth + x.pendingDrops d.offset < g.waiting.length)
    | none => false)

/-! ### Accepted ticks -/

/-- The running instance closes its current line l. `exit`: it has just left freewheel. -/
def State.closeLine (s : State) (i : Nat) (l : Word) (m : Seen) (exit : Bool) : State :=
  let s0 := s
  let x := s.inst i
  let gs := x.lineSegs l
  let framed := decide (s.cad.sheetSrc = 1)
  let f := if framed then s.streamSheet x l else (false, none)
  let mv := if framed then sheetMoves f.1 f.2 x.openSheet? else (false, false, false)
  let num := if framed ∧ (exit ∨ x.openSheet?.isNone) ∧ f.2.isNone then (gs.head?).map (·.sheet) else f.2
  let new := s.newNumber i num
  let other := match x.openSheet? with | some h => h.num != new | none => false
  let r26 := exit && other && !m.mark && !m.host && !f.1
  let bound := m.mark || m.host || mv.1 || r26
  let s := s.schedule i (fun off => decide (1 ≤ off))
  let drop := (s.inst i).mustDrop
  let empty := gs.isEmpty
  let e := s.fld (Reg.INL_I_EMPTY i) 15 0 + 1
  let signs (s : State) : State :=
    let s := if mv.2.1 then s.inlEvent 8 (s.fld Reg.INL_CTRL 7 4) else s
    if mv.2.2 then s.inlEvent 9 (s.fld Reg.INL_CTRL 7 4) else s
  if empty ∧ !drop ∧ s.fld (Reg.CAD_I_EMPTY_LIMIT i) 15 0 ≤ e then
    ((signs s0).wr (Reg.INL_I_EMPTY i) (BitVec.ofNat 32 (min e 65535))).enterFreewheel i bound
  else
    let s := (signs s).boundary i l new bound r26
    if drop then
      let s := (((s.count (Reg.CAD_I_DROP i)).event (Reg.CAD_I_EVT i) 1).report 0x01 0x0101 0 (some i) 0 0xFFFF 0).modInst i (fun x => { x with gapNext := true })
      (s.pushSlot i l true 0).schedule i (fun off => off == 0)
    else
      let short := !s.lineFull i gs
      let s := if empty then s.wr (Reg.INL_I_EMPTY i) (BitVec.ofNat 32 (min e 65535)) else s
      let flags := (s.inst i).inletFlags short
      ((s.takeIn i l gs short).pushSlot i l false flags).schedule i (fun off => off == 0)

/-- The inlet and the stages at an accepted tick. An instance makes at most one cadence transition (R26). -/
def State.lineTick (s : State) (i : Nat) (m : Seen) : State :=
  let x := s.inst i
  if x.st = .freewheel then
    match x.window with
    | some l => (s.leaveFreewheel i).closeLine i l m true
    | none =>
      let s := s.count (Reg.CAD_I_FW_TICKS i)
      if m.mark || m.host then s.count (Reg.CAD_I_FW_SHEETS i) else s
  else
    match x.curLine with
    | some l => s.closeLine i l m false
    | none => s.enterFreewheel i (m.mark || m.host)

/-- Slack: the time from each stage's finish to this tick (R17). -/
def State.measureSlack (s : State) (i : Nat) : State :=
  let x := s.inst i
  let s := x.stages.foldl (fun s g =>
    match g.finish with
    | some f =>
      let n := min (s.now - f) 0x3FFFFF
      if n < s.fld (Reg.CAD_I_SLACK_MIN i) 21 0 then
        s.wr (Reg.CAD_I_SLACK_MIN i) (BitVec.ofNat 32 (0x1000000 * (g.id % 256) + n))
      else s
    | none => s) s
  s.modInst i (fun x => { x with stages := x.stages.map (fun g => { g with finish := none }) })

/-- A wait that began at accepted tick w has outlasted the watch (R361). -/
def Inst.deadlocked (x : Inst) (w : Option Nat) : Bool :=
  let d := x.stageDescs.foldl (fun n e => max n e.depth) 0
  match w with
  | some k => decide (max k x.fwExit + d + 1 < x.ticks)
  | none => false

/-- The unit of instance i that the watch finds deadlocked: stage and unit. -/
def State.findDeadlock (s : State) (i : Nat) : Option (Nat × Nat) :=
  let x := s.inst i
  let sid (o : Option StageDesc) : Nat := match o with | some d => d.id | none => 0
  match (List.range 64).find? (fun e => hasBit (s.engMask i) e && x.deadlocked (s.engine e).waitTick) with
  | some e => some (sid (x.stageOfEngine e), e)
  | none =>
    match (List.range 64).find? (fun c => s.ownsCol i c && tileRows.any (fun r => x.deadlocked (s.tile c r).waitTick)) with
    | some c => some (sid (x.stageOfCol c), c)
    | none => ((List.range 128).find? (fun k => s.ownsCore i k && x.deadlocked (s.core k).waitTick)).map
        (fun k => (sid (x.stageOfCore k), k))

/-- The watch on waits at an accepted tick of a running instance (R361). -/
def State.watchWaits (s : State) (i : Nat) : State :=
  if (s.inst i).st ≠ .running then s
  else match s.findDeadlock i with
    | some (sid, u) => s.instFault (some i) 0x0D 0x0030 sid u 0
    | none => s

/-- Brake accounting of instance i over its tick (R17). -/
def State.judgeBrake (s : State) (i : Nat) : State :=
  let old := (s.inst i).brakeAt
  let b := s.fld (Reg.CAD_I_BRAKE i) 15 0
  let above := (s.domsOf i).any (fun d => decide (b < s.lostSince old d))
  let s := s.modInst i (fun x => { x with brakeAt := s.brakedAll })
  if above then s.event (Reg.CAD_I_EVT i) 6 else s

/-- Tandem tests whose tick has come (R372). -/
def State.dueTests (s : State) (i : Nat) : State :=
  let due := s.tdm.tests.filter (fun t => t.1 == i && t.2.2.2 == (s.inst i).ticks)
  let s := { s with tdm := { s.tdm with tests := s.tdm.tests.filter (fun t => !due.contains t) } }
  due.foldl (fun s t => s.runTandemTest i t.2.1 t.2.2.1) s

/-- Instance i accepts the tick. -/
def State.acceptTick (s : State) (i : Nat) (mark : Bool) : State :=
  let x := s.inst i
  let m : Seen := { mark := mark || x.pendMark, host := x.hostMark }
  let s := s.setInst i { x with lastAccepted := some s.now, ticks := x.ticks + 1, pendMark := false, hostMark := false
                                marked := m.mark || m.host, adp := { x.adp with cmdAt := s.rd (Reg.ADP_I_CMD i) } }
  let s := (s.judgeBrake i).measureSlack i
  let s := (s.inst i).stages.foldl (fun s g => s.takeArmed i g) (s.repairTick i)
  let s := ((s.writeRepair i).dueTests i).lineTick i m
  let s := if (s.inst i).st = .running then s.injectMarks i else s
  s.watchWaits i

/-- Is a tick now early for instance i (R18)? -/
def State.earlyFor (s : State) (i : Nat) : Bool :=
  match (s.inst i).lastAccepted with
  | some a => decide (s.now < a + s.fld (Reg.CAD_I_PMIN i) 21 0)
  | none => false

/-- The tick reaches instance i: early for it, or accepted. -/
def State.tickInst (s : State) (i : Nat) (mark : Bool) : State :=
  if !(s.inst i).live then s
  else if s.earlyFor i then
    ((s.count (Reg.CAD_I_EARLY i)).event (Reg.CAD_I_EVT i) 0).modInst i (fun x => { x with pendMark := x.pendMark || mark })
  else s.acceptTick i mark

/-- With sheet_src 1, a tick now closes a line of instance i whose frames show a mark (R13, R16). -/
def State.framedMark (s : State) (i : Nat) : Bool :=
  let x := s.inst i
  match (if x.st = .freewheel then x.window else x.curLine) with
  | some l =>
    let f := s.streamSheet x l
    x.live && !s.earlyFor i && s.cad.sheetSrc == 1 && (sheetMoves f.1 f.2 x.openSheet?).1
  | none => false

/-! ### Delivery (R8 to R17) -/

/-- The registers of the stream map or of the action table, as the next delivered tick takes them (R41, R276). -/
def State.copyTables (s : State) : State :=
  { s with mapLive := SMap.inRange (Reg.INL_MAP_MATCH 0) (Reg.INL_MAP_MATCH 32) s.regs
           actLive := SMap.inRange (Reg.ACT_E_MATCH 0) (Reg.ACT_E_MATCH 256) s.regs }

/-- Bulk banks whose copy is done are served from their spares (R352). -/
def State.switchBanks (s : State) : State :=
  s.modFlt (fun f => { f with remap := f.remapReady.foldl (fun m e => SMap.put e.1 e.2 m) f.remap, remapReady := [] })

/-- The source switch takes effect (R11). -/
def State.switchSource (s : State) : State :=
  let ts := BitVec.ofNat 2 (s.fld Reg.CAD_CTRL 5 4)
  let ss := BitVec.ofNat 2 (s.fld Reg.CAD_CTRL 7 6)
  let new := ts != s.cad.tickSrc
  s.modCad (fun c => { c with
    tickSrc := ts, sheetSrc := ss, switching := false
    from_ := if new then some s.now else c.from_
    stampRef := if new && ts == 2 then none else c.stampRef
    genStart := if new then s.now else c.genStart
    genPeriod := if new then s.fld Reg.CAD_PERIOD 21 0 else c.genPeriod
    due := c.due.filter (fun d => d.src == 3 || !new)
    pulseMark := c.pulseMark && ss == 0 })

/-- The last device takes over: lead from this tick on (R375). -/
def State.takeOver (s : State) : State :=
  if !s.tdm.takeover then s
  else
    let s := { s with tdm := { s.tdm with takeover := false, role := 1 } }
    let s := (s.count Reg.TDM_TAKEOVERS).event Reg.TDM_EVT 3
    instNums.foldl (fun s i =>
      let x := s.inst i
      let after (l : Word) : Bool := match SMap.find s.tdm.markLine i with | some m => isAfter l m | none => true
      let ls := ((x.hist.filter (fun l => l.done && after l.line)).take (s.slotCount i)).reverse
      let s := ls.foldl (fun s l => s.mirrorResult i l.line) s
      let s := x.unmarked.foldl (fun s d => (s.sendEdition i d).mirrorEdition i d) s
      s.modInst i (fun x => { x with unmarked := [] })) s

/-- Count, interval, braked time and sheet number of a delivered tick (R9, R16, R17). -/
def State.tickRegs (s : State) (mark : Bool) : State :=
  let s : State := s.wr64 Reg.CAD_TICK_LO Reg.CAD_TICK_HI (s.devTick + 1)
  let s : State := match s.cad.from_ with
    | some f => s.wr Reg.CAD_INTERVAL (BitVec.ofNat 32 (min (s.now - f) 0x7FFFFF))
    | none => s
  let lost : Nat := min (domNums.foldl (fun n d => max n (s.lostSince s.cad.brakedAt d)) 0) 0xFFFF
  let s : State := s.wr Reg.CAD_BRAKE_LAST (BitVec.ofNat 32 lost)
  let s : State := if s.fld Reg.CAD_BRAKE_MAX 15 0 < lost then s.wr Reg.CAD_BRAKE_MAX (BitVec.ofNat 32 lost) else s
  let s : State := if mark && s.cad.sheetSrc != 1 then
      s.wr Reg.CAD_SHEET_NUM (BitVec.ofNat 32 ((s.fld Reg.CAD_SHEET_NUM 23 0 + 1) % 0x1000000))
    else s
  s.modCad (fun c => { c with from_ := some s.now, lastTick := some s.now, silentFrom := s.now, silentLogged := false
                              hostMark := false, pulseMark := false, tickMarked := mark, brakedAt := s.brakedAll })

/-- CADENCE_OUT repeats the tick (R427, R431). -/
def State.repeatTick (s : State) (marked : Bool) : State :=
  if s.bit Reg.CAD_CTRL 1 && !s.flt.down then
    s.modCad (fun c => { c with outAt := c.outAt ++ [(s.now + s.fld Reg.CAD_OUT_CTRL 11 0, marked)] })
  else s

/-- A tick is delivered now to every stage of every instance; `edge` is the active edge of CADENCE_IN that it belongs to. -/
def State.deliver (s : State) (mark : Bool) (edge : Option Nat) : State :=
  let pulse := (mark || s.cad.pulseMark) && s.cad.sheetSrc == 0
  let any := pulse || s.cad.hostMark
  let framed := instNums.any s.framedMark
  let s := ((s.takeOver.tickRegs any).modCad (fun c => { c with tickEdge := edge })).switchBanks
  let s := (List.range 4).foldl (fun s k => s.probeTick k) s
  let s := instNums.foldl (fun s i => s.tickInst i pulse) s
  let s := (s.repeatTick (any || framed)).copyTables
  if s.cad.switching then s.switchSource else s

/-! ### A mark that is judged after its tick (R13) -/

/-- The tokens of a line that the inlet has put last into a queue and that are still unread: the queue without them, and
them. -/
def Queue.takeBack (x : Queue) (l : Word) : Queue × List Entry :=
  let mine (e : Entry) : Bool := !e.bad && e.tokLine == l
    && (e.kind == kindData || (e.kind == kindControl && e.code == codeSheet))
  let back := (x.entries.reverse.takeWhile mine).reverse
  let n := back.length
  ({ x with entries := x.entries.take (x.entries.length - n), wr := (x.wr + x.ptrMod - n) % x.ptrMod }, back)

/-- The tokens that the inlet sent with line l are taken back from the inlet edges of instance i, each with its queue. -/
def State.takeTokens (s : State) (i : Nat) (l : Word) : State × List (Nat × List Entry) :=
  ((s.inst i).inletEdges.filterMap (fun e => s.localQueue i e.queue)).foldl (fun (a : State × List (Nat × List Entry)) q =>
    let r := (a.1.queue q).takeBack l
    (a.1.setQueue q r.1, a.2 ++ [(q, r.2)])) (s, [])

/-- They go out again behind the SHEET token of the new sheet, with the epoch that the queue now has. -/
def State.sendAgain (s : State) (l : Word) (num : BitVec 24) (ts : List (Nat × List Entry)) : State :=
  ts.foldl (fun s t =>
    let s := s.pushDrop t.1 (controlToken 0 0 l codeSheet (num.setWidth 32) s.now)
    (t.2.filter (fun e => e.kind == kindData)).foldl (fun s e => s.pushDrop t.1 e) s) s

/-- The sheet that this tick has opened without a mark takes the number that the mark gives it: the two are one boundary. -/
def State.renumber (s : State) (i : Nat) (h : Sheet) (num : BitVec 24) : State :=
  let x := s.inst i
  let both := x.sheets.any (fun g => g.ended == some x.ticks)
  let s := s.setInst i { x with
    sheets := x.sheets.map (fun g => if g.ord = h.ord then { g with num := num }
      else if g.ended = some x.ticks then { g with byR26 := false } else g)
    adp := { x.adp with evalSheet := if both ∧ x.adp.evalSheet = h.num then num else x.adp.evalSheet } }
  let s := s.wr (Reg.INL_I_SHEET i) (num.setWidth 32)
  match s.planWindow i with
  | some w => if both then s.writeWindow w 0x40 (leBytes 4 num.toNat) else s
  | none => s

/-- The line that the tick closed becomes the first line of the sheet now open. -/
def Inst.lineMoves (x : Inst) (l : LineSlot) (num : BitVec 24) (adp : Word) : Inst :=
  let o := match x.openSheet? with | some h => h.ord | none => 0
  { x with
    hist := x.hist.map (fun g => if g.tick = l.tick then { g with sheet := num, ord := o, adp := adp } else g)
    sheets := x.sheets.map (fun h =>
      if h.ord = o then (if l.admitted then { h with firstAdmitted := some l.line } else h)
      else if l.admitted ∧ h.ord = l.ord ∧ h.firstAdmitted = some l.line then { h with firstAdmitted := none } else h) }

/-- The mark reaches instance i, which accepted the tick without one: the boundary of that tick is made up for. -/
def State.lateBoundary (s : State) (i : Nat) : State :=
  let x := s.inst i
  let num : BitVec 24 := (s.rd Reg.CAD_SHEET_NUM).setWidth 24
  match x.hist, x.openSheet? with
  | l :: _, some h =>
    let r := if l.admitted then s.takeTokens i l.line else (s, [])
    let s := if h.opened = x.ticks then r.1.renumber i h num else r.1.boundary i l.line num true false
    let s := s.modInst i (fun x => { x.lineMoves l num (s.rd (Reg.ADP_I_EDITION i)) with marked := true })
    s.sendAgain l.line num r.2
  | _, _ => s

/-- A CADENCE_IN mark that is judged after its tick has been delivered (R13): it belongs to that tick. An instance for which
the tick was early takes it with its next accepted tick, and one to which the tick brought another mark makes one boundary
of the two (R14). -/
def State.lateMark (s : State) : State :=
  let s := if s.cad.tickMarked then s
    else s.wr Reg.CAD_SHEET_NUM (BitVec.ofNat 32 ((s.fld Reg.CAD_SHEET_NUM 23 0 + 1) % 0x1000000))
  let s := s.modCad (fun c => { c with
    tickMarked := true
    outAt := c.outAt.map (fun o => if some o.1 = c.lastTick.map (· + s.fld Reg.CAD_OUT_CTRL 11 0) then (o.1, true) else o) })
  instNums.foldl (fun s i =>
    let x := s.inst i
    if !x.live then s
    else if x.lastAccepted ≠ s.cad.lastTick then s.modInst i (fun x => { x with pendMark := true })
    else if x.marked then s
    else if x.st = .freewheel then (s.modInst i (fun x => { x with marked := true })).count (Reg.CAD_I_FW_SHEETS i)
    else s.lateBoundary i) s

/-! ### CADENCE_IN (R431, R13) -/

/-- Is an edge of the ball the active one: rising with in_pol 0, falling with 1 (R8, R431)? -/
def State.activeEdge (s : State) (rise : Bool) : Bool := rise != s.bit Reg.CAD_CTRL 2

/-- CADENCE_IN_EDGE: an active edge starts a pulse; with tick_src 0 its tick falls due 40 ns later. -/
def execCadenceInEdge (e : PinEdge) (s : State) : Res :=
  let s := s.at_ e.t
  let d : DueTick := { at_ := s.now + 40, src := 0, mark := false, edge := some s.now }
  s.onlyIf (s.cadenceRuns && s.activeEdge e.rise)
    (s.modCad (fun c => { c with pulse := some s.now, lastEdge := some s.now, wide := false, due := if c.tickSrc = 0 then c.due ++ [d] else c.due }))

/-- The pulse that began at e has been active for CAD_SHEET_WIDTH: with sheet_src 0 it marks its own tick, or with another
tick source the next one delivered. -/
def State.widthReached (s : State) (e : Nat) : State :=
  if s.cad.wide || s.cad.sheetSrc != 0 || decide (s.now < e + s.fld Reg.CAD_SHEET_WIDTH 15 0) then s
  else
    let s := s.modCad (fun c => { c with wide := true })
    if s.cad.tickSrc ≠ 0 then s.modCad (fun c => { c with pulseMark := true })
    else
      let s := s.modCad (fun c => { c with due := c.due.map (fun d => if d.edge = some e then { d with mark := true } else d) })
      if s.cad.tickEdge = some e then s.lateMark else s

/-- SHEET_WIDTH_EXPIRY. -/
def execSheetWidthExpiry (t : Nat) (s : State) : Res :=
  let s := s.at_ t
  match s.cad.pulse with
  | some e => s.onlyIf s.cadenceRuns (s.widthReached e)
  | none => .next s

/-- CADENCE_IN_PULSE_END: the inactive edge; a pulse narrower than 10 ns is a glitch and delivers no tick. -/
def execCadenceInPulseEnd (e : PinEdge) (s : State) : Res :=
  let s := s.at_ e.t
  match s.cad.pulse with
  | none => .next s
  | some a =>
    let s' := if s.now < a + 10 then
        (s.modCad (fun c => { c with due := c.due.filter (fun d => d.edge != some a) })).event Reg.CAD_EVT 3
      else s.widthReached a
    s.onlyIf (s.cadenceRuns && !s.activeEdge e.rise) (s'.modCad (fun c => { c with pulse := none }))

/-! ### Ticks from their source -/

/-- The tick is taken off: a generator starts its next interval with the period as it stands (R10). -/
def State.takeDue (s : State) (d : DueTick) : State :=
  if d.src = 1 then s.modCad (fun c => { c with genStart := d.at_, genPeriod := s.fld Reg.CAD_PERIOD 21 0 })
  else s.modCad (fun c => { c with due := c.due.erase d })

/-- A tick of this device's own source at its instant: a paired lead sends TICK and delivers it TDM_DELAY later, a follower
ignores it, and a device that has taken over delays it (R369, R375). -/
def State.ownTick (s : State) (d : DueTick) : State :=
  let later (s : State) : State :=
    s.modCad (fun c => { c with due := c.due ++ [{ d with at_ := d.at_ + s.fld Reg.TDM_DELAY 11 0, src := 3 }] })
  if s.follower then s
  else if s.leads then
    later (s.tdmPost ([0x01, 0, 0, 0, 0, 0, 0, 0] ++ leBytes 8 (s.devTick + 1)
      ++ [BitVec.ofNat 8 ((if d.mark then 1 else 0) + (if s.cad.hostMark then 2 else 0))]))
  else if s.tdm.delayed then later s
  else s.deliver d.mark d.edge

/-- The due tick is taken: none is delivered while CAD_CTRL.enable is 0 or from a source that is not selected (R8, R9). The
frames that arrived after it are taken behind it (R40). -/
def State.takeTick (s : State) : State :=
  match s.cad.dueNow s.now with
  | none => s
  | some d =>
    let s := s.takeDue d
    let s := if !s.bit Reg.CAD_CTRL 0 then s
      else if d.src = 3 then s.deliver d.mark d.edge
      else if d.src = s.cad.tickSrc.toNat then s.ownTick d
      else s
    s.takeHeldFrames s.cad.frames.length

/-- TICK_TIMEOUT (R12): once for each silent interval. -/
def execTickTimeout (t : Nat) (s : State) : Res :=
  let s := s.at_ t
  let us := s.fld Reg.CAD_TIMEOUT 22 0
  s.onlyIf (s.cadenceRuns && decide (us ≠ 0) && !s.cad.silentLogged && decide (s.cad.silentFrom + 1000 * us ≤ s.now))
    (((s.modCad (fun c => { c with silentLogged := true })).event Reg.CAD_EVT 0).report 0x01 0x0000 0 none 0 0xFFFF 0)

/-- CADENCE_OUT_PULSE: an edge of CADENCE_OUT is due, its rise or its end (R431). -/
def execCadenceOutPulse (t : Nat) (s : State) : Res :=
  let s := s.at_ t
  if s.flt.down then .next (s.modCad (fun c => { c with outAt := [], outLevel := false }))
  else
    let s := if s.cad.outLevel && decide (s.cad.outEnd ≤ s.now) then s.modCad (fun c => { c with outLevel := false }) else s
    match s.cad.outAt with
    | (a, marked) :: rest =>
      if a ≤ s.now then
        let w := if marked && s.bit Reg.CAD_OUT_CTRL 12 then s.fld Reg.CAD_SHEET_WIDTH 15 0 + 100 else 50
        .next (s.modCad (fun c => { c with outAt := rest, outLevel := decide (s.now < a + w), outEnd := a + w }))
      else .next s
    | [] => .next s

/-- The level of CADENCE_OUT: low while it is not enabled or the device is at its kickstand (R427). -/
def State.cadenceOut (s : State) : Bool := s.cad.outLevel && s.bit Reg.CAD_CTRL 1 && !s.flt.down

/-- TDM_TICK: the follower delivers the lead's tick TDM_DELAY after its instant, which it reckons from the arrival; one that
comes too late is delivered at once (R369). -/
def execTdmTick (t : Nat) (s : State) : Res :=
  match (s.at_ t).takeMsg 1 with
  | none => .next (s.at_ t)
  | some (m, s) =>
    let own := s.cad.tickSrc == 0 && s.cad.sheetSrc == 0
    let mark := leField m 16 1 % 2 == 1 || (own && s.cad.wide)
    let edge := if own then s.cad.lastEdge else none
    let at_ := s.now + s.fld Reg.TDM_DELAY 11 0 - s.fld Reg.TDM_LINK_NS 11 0
    if !s.follower then .next s
    else if at_ < s.now then .next (((s.count Reg.TDM_LATE_TICKS).event Reg.TDM_EVT 5).deliver mark edge)
    else .next (s.modCad (fun c => { c with due := c.due ++ [{ at_ := at_, src := 3, mark := mark, edge := edge }] }))

end Sys2Proof.Machine
end

