-- ==== Sys2Proof/Machine/Views.lean ====
section
/-! DEFINITION. What the registers read as: those that show another part of the state, the queue registers behind QUE_SEL,
what each function may see, and the read shadows (R3, R222, R356, R360, R399 to R404, R410). -/

namespace Sys2Proof.Machine

/-! ### Status words of the units -/

def InstState.code : InstState → Nat
  | .unloaded => 0 | .loading => 1 | .held => 2 | .running => 3 | .freewheel => 4 | .kickstand => 5 | .resetting => 6

def CoreState.code : CoreState → Nat
  | .idle => 0 | .running => 1 | .waiting => 2 | .tickwait => 3 | .held => 4 | .stopped => 5 | .fenced => 6

/-- State of a column as TIL_C_STAT shows that of its stage. -/
def Stage.colCode (g : Stage) : Nat :=
  if g.stopTick.isSome then 5
  else match g.st with
    | .running => 1 | .draining => 2 | .reloading => 3 | .held => 3 | .fencedRepairing => 4

/-- One bit at a place. -/
def bitAt (b : Bool) (n : Nat) : Nat := if b then 2 ^ n else 0

def wd (n : Nat) : Word := BitVec.ofNat 32 n

/-- INS_I_STAT. -/
def State.instStat (s : State) (i : Nat) : Word :=
  let x := s.inst i
  wd (2 ^ 28 * x.st.code + bitAt x.resetDone 24 + 2 ^ 16 * x.loadCode.toNat)

/-- The stage with the largest slip, the first in image order among equals: id and slip (R19). -/
def Inst.largestSlip (x : Inst) : Nat × Nat :=
  x.stages.foldl (fun (b : Nat × Nat) g => if b.2 < g.waiting.length then (g.id, g.waiting.length) else b) (0, 0)

/-- CAD_I_STAT. -/
def State.cadStat (s : State) (i : Nat) : Word :=
  let x := s.inst i
  let m := x.largestSlip
  wd (2 ^ 20 * (x.warmupLeft % 4096) + bitAt (x.st == .freewheel) 16 + 256 * (m.1 % 256) + min m.2 15)

/-- Owner and stage fields of a unit: owner code at bit 27, stage id at bit `n`. -/
def ownerStage (o : Option Nat) (sid n : Nat) : Nat := 2 ^ 24 * o.getD 15 + sid % 256 * 2 ^ n

/-- ENG_E_STAT: the running command is the head of the queue, or the one in its epilogue. -/
def State.engStat (s : State) (e : Nat) : Word :=
  let g := s.engine e
  let o := s.engOwner e
  let sid := match o with
    | some i => (match (s.inst i).stageOfEngine e with | some d => d.id | none => 0)
    | none => 0
  let busy := !g.queue.isEmpty || !g.epis.isEmpty
  let cls := match g.queue, g.epis with
    | d :: _, _ => d.cls
    | [], p :: _ => p.d.cls
    | [], [] => 0
  let st := if g.stopped then 5 else if g.swap = 2 then 6 else if !g.queue.isEmpty then 1 else if !g.epis.isEmpty then 4 else 0
  wd (2 ^ 28 * st + 2 ^ 16 * (g.queue.length % 64) + ownerStage o (if busy then sid else 0) 8 + cls)

/-- TIL_C_STAT. -/
def State.tilStat (s : State) (c : Nat) : Word :=
  let o := s.colOwner c
  let p := match o with
    | some i => (match (s.inst i).stageOfCol c with
      | some d => (match (s.inst i).stage d.id with | some g => (g.colCode, d.id, g.epoch.toNat) | none => (0, d.id, 0))
      | none => (0, 0, 0))
    | none => (0, 0, 0)
  wd (2 ^ 28 * p.1 + ownerStage o p.2.1 16 + 256 * p.2.2 + bitAt (s.flt.proxy.contains c) 0)

/-- SVC_K_STAT. -/
def State.svcStat (s : State) (k : Nat) : Word :=
  let o := s.coreOwner k
  let sid := match o with
    | some i => (match (s.inst i).stageOfCore k with | some d => d.id | none => 0)
    | none => 0
  wd (2 ^ 28 * (s.core k).st.code + ownerStage o sid 16)

/-- Bits of the rows `lo .. lo + n` of an event register that hold an event. -/
def State.evtSum (s : State) (row : Nat → Nat) (lo n : Nat) : Word :=
  wd ((List.range n).foldl (fun m k => m + bitAt (s.rd (row (lo + k)) != 0) k) 0)

/-- ADP_I_STAT: 0b11 in the slot fields while no image is bound; 0 for an image without a plan. -/
def State.adpStat (s : State) (i : Nat) : Word :=
  let x := s.inst i
  let a := x.adp
  if x.image.isNone then 0x003F0000
  else if x.plan.isNone then 0
  else wd (2 ^ 28 * (if a.stopped then 2 else 1) + 2 ^ 24 * (a.state % 4) + 2 ^ 20 * (a.live % 4) + 2 ^ 18 * (a.cand % 4)
    + 2 ^ 16 * (a.rollback % 4) + 256 * (a.awaiting % 8) + bitAt a.ckptBusy 0)

/-- CLK_D_STAT. -/
def State.domStat (s : State) (d : Nat) : Word :=
  let x := s.dom d
  wd (bitAt x.gated 31 + bitAt (x.ramp != 0) 30 + bitAt x.braked 29 + bitAt (gateable d && s.kept d) 28
    + s.domTarget d * 16 + x.ratio)

/-- Bits of domains 32n to 32n + 31 that have a property. -/
def domBits (p : Nat → Bool) (n : Nat) : Word := wd ((List.range 32).foldl (fun m k => m + bitAt (p (32 * n + k)) k) 0)

/-- TDM_STAT. -/
def State.tdmStat (s : State) : Word :=
  wd (2 ^ 28 * s.tdm.st + 2 ^ 24 * s.tdm.role + 2 ^ 20 * s.tdm.strap + s.tdm.lanesUp.toNat)

/-- HIF_F_PEND of function f. -/
def State.pendWord (s : State) (f : Nat) : Word := wd ((List.range 19).foldl (fun m k => m + bitAt (s.pendNow f k) k) 0)

/-! ### Unit maps and counts (R46, R47, R353) -/

/-- State of a physical unit: fused off, fenced, serving a logical unit, or a free spare. What a unit under test or already
replaced but not yet fenced reads is open: `free` stands for it. -/
def unitCode (fused fenced serves spare : Bool) (free : Nat) : Nat :=
  if fused then 0 else if fenced then 3 else if serves then 1 else if spare then 2 else free

def State.engCode (s : State) (p : Nat) : Nat :=
  if 68 ≤ p then 0
  else unitCode (engineFused p) (s.isFenced 0 p) (s.engLogical p).isSome (s.flt.engFree.contains p)
    ((Config.freeValue s.free).toNat % 4)

def State.colCode (s : State) (p : Nat) : Nat :=
  if 66 ≤ p then 0
  else unitCode (columnFused p) (s.isFenced 1 p) (s.colLogical p).isSome (s.flt.colFree.contains p)
    ((Config.freeValue s.free).toNat % 4)

/-- Sixteen 2-bit codes. -/
def pmap (code : Nat → Nat) (n : Nat) : Word := wd ((List.range 16).foldl (fun m k => m + code (16 * n + k) * 4 ^ k) 0)

/-- Engines that the factory test has left beyond 64. -/
def fusedSpares : Nat := ((List.range 68).filter (fun p => !engineFused p)).length - 64

/-- Spares free now. Until the fuse map is applied (R354) the count of engines is that of the fuses, and TIL_SPARE.left has
its reset value. -/
def State.engLeft (s : State) : Nat := if s.sig.mapped then s.flt.engFree.length else fusedSpares
def State.colLeft (s : State) : Nat := if s.sig.mapped then s.flt.colFree.length else 2

/-- HIF_UNITS. -/
def State.unitsWord (s : State) : Word :=
  wd (2 ^ 28 * fusedSpares + 2 ^ 24 * (s.engLeft % 8) + 2 ^ 20 * (s.colLeft % 4))

/-- TIL_SPARE. -/
def State.spareWord (s : State) : Word :=
  wd (2 ^ 24 * (s.colLogical 65).getD 0xFF + 2 ^ 16 * (s.colLogical 64).getD 0xFF + s.colLeft % 4)

/-- Fenced units of a kind, saturating at 255. -/
def State.fencedCount (s : State) (p : Nat → Bool) : Nat := min 255 (s.flt.fenced.filter (fun f => p f.1)).length

/-- FLT_FENCED: engines, columns, cores, banks. -/
def State.fencedWord (s : State) : Word :=
  wd (2 ^ 24 * s.fencedCount (· == 0) + 2 ^ 16 * s.fencedCount (· == 1) + 256 * s.fencedCount (· == 2)
    + s.fencedCount (fun k => k == 3 || k == 4))

/-- FLT_SPARE_BANKS. -/
def State.spareBanksWord (s : State) : Word :=
  wd ((List.range 4).foldl (fun m d => m + (([384, 385, 386, 387] : List Nat).filter (s.bankFree d)).length * 16 ^ d) 0)

/-! ### Error log entries (R356, R360) -/

/-- The 32 bytes of a log entry. -/
def LogEntry.bytes (e : LogEntry) : List Byte :=
  leBytes 8 e.tick ++ leBytes 8 e.imageId ++ leBytes 2 e.source ++ leBytes 2 e.code
    ++ leBytes 1 e.severity ++ leBytes 1 e.inst ++ leBytes 1 e.stage ++ leBytes 1 e.flags
    ++ leBytes 2 e.count ++ leBytes 2 e.unit ++ leBytes 4 e.detail.toNat

/-- A per-function register of function f: the manager's own copy stands in `regs`. -/
def State.fnReg (s : State) (f a : Nat) : Word :=
  if f = 0 then s.rd a else SMap.get 0 s.hif.fnRegs (2 ^ 26 * f + a)
def State.setFnReg (s : State) (f a : Nat) (v : Word) : State :=
  if f = 0 then s.wr a v
  else { s with hif := { s.hif with fnRegs := SMap.set 0 (2 ^ 26 * f + a) v s.hif.fnRegs } }

/-- FLT_RD_SEL as function f reads it: the ring of a virtual function is its own. -/
def State.rdSel (s : State) (f : Nat) : Word :=
  let v := s.fnReg f Reg.FLT_RD_SEL
  if f = 0 then v else setBits v 19 16 f

/-- FLT_RD_DATA word n for function f. -/
def State.rdData (s : State) (f n : Nat) : Word :=
  let v := s.rdSel f
  let r := bits v 19 16
  if 9 ≤ r then 0
  else
    let x := s.ring r
    let e := if v.getLsbD 31 then x.sticky else SMap.find x.entries (bits v 10 0 % ringSize r)
    match e with
    | some e => wd (leField e.bytes (4 * n) 4)
    | none => 0

/-! ### Queue registers (R219 to R228) -/

/-- Is function f denied queue q (QUE_SEL.denied)? The manager never is. -/
def State.queDenied (s : State) (f q : Nat) : Bool := f != 0 && (s.queue q).owner != f - 1

/-- The queue that function f has selected. -/
def State.queSel (s : State) (f : Nat) : Nat := bits (s.fnReg f Reg.QUE_SEL) 13 0

/-- QUE_Q_STAT. -/
def Queue.stat (x : Queue) : Word :=
  wd (2 ^ 28 * x.epoch.toNat + 2 ^ 24 * x.owner + bitAt (x.entries.any (·.bad)) 18 + bitAt x.empty 17
    + bitAt (x.full && x.depth != 0) 16 + x.fill % 65536)

/-- A register of the Q group, by its offset, of a queue. -/
def Queue.reg (x : Queue) (a : Nat) : Word :=
  if a = Reg.QUE_Q_CFG then x.cfg
  else if a = Reg.QUE_Q_BASE_LO then x.base.setWidth 32
  else if a = Reg.QUE_Q_BASE_HI then x.base.extractLsb' 32 32
  else if a = Reg.QUE_Q_PTR then wd (65536 * (x.rd % 65536) + x.wr % 65536)
  else if a = Reg.QUE_Q_STAT then x.stat
  else if a = Reg.QUE_Q_EVT then x.evt.setWidth 32
  else if a = Reg.QUE_Q_EVT_EN then x.evtEn.setWidth 32
  else if a = Reg.QUE_Q_THRESH then x.thresh.setWidth 32
  else if a = Reg.QUE_Q_DROP then x.drop
  else if a = Reg.QUE_Q_UNDER then x.under
  else if a = Reg.QUE_Q_PERR then x.perr
  else if a = Reg.QUE_Q_ASSIGN then x.assign
  else if a = Reg.QUE_Q_CAP then x.cap
  else if a = Reg.QUE_Q_MAXB then x.maxb
  else 0

/-- The registers of the Q group: those at QUE_Q_CFG to QUE_Q_MAXB, QUE_CMD apart. -/
def queReg (a : Nat) : Bool := decide (Reg.QUE_Q_CFG ≤ a) && decide (a ≤ Reg.QUE_Q_MAXB) && a % 4 == 0 && a != Reg.QUE_CMD

/-- The queues of function f that hold an event, ascending. -/
def State.eventQueues (s : State) (f : Nat) : List Nat :=
  (s.queues.filter (fun e => e.2.evt != 0 && e.2.function == some f)).map (·.1)

/-- A QUE register as function f reads it. -/
def State.queRead (s : State) (f a : Nat) : Word :=
  let q := s.queSel f
  let x := s.queue q
  if a = Reg.QUE_SEL then wd (bitAt (s.queDenied f q) 31 + q)
  else if a = Reg.QUE_EVT_FIRST then (match s.eventQueues f with | q :: _ => wd q | [] => 0x80000000)
  else if a = Reg.QUE_EVT_COUNT then wd (s.eventQueues f).length
  else if s.queDenied f q then 0
  else if (a = Reg.QUE_Q_BASE_LO ∨ a = Reg.QUE_Q_BASE_HI) ∧ !x.ring then 0
  else x.reg a

/-! ### The table of views -/

/-- A row of registers whose value is computed: first offset, stride, count, and the value for function f and index. -/
structure View where
  base : Nat
  stride : Nat := 4
  count : Nat := 1
  val : State → Nat → Nat → Word

/-- Index of offset a in a row of registers. -/
def rowOf (base stride count a : Nat) : Option Nat :=
  if base ≤ a ∧ (a - base) % stride = 0 ∧ (a - base) / stride < count then some ((a - base) / stride) else none

/-- The registers that show another part of the state. -/
def views : List View := [
  { base := Reg.CAD_I_STAT 0, stride := 0x40, count := 8, val := fun s _ i => s.cadStat i },
  { base := Reg.ENG_EVT_SUM_LO, count := 2, val := fun s _ n => s.evtSum Reg.ENG_E_EVT (32 * n) 32 },
  { base := Reg.ENG_E_STAT 0, stride := 0x40, count := 64, val := fun s _ e => s.engStat e },
  { base := Reg.ENG_E_PHYS 0, stride := 0x40, count := 64, val := fun s _ e => wd (s.engPhys e) },
  { base := Reg.TIL_SPARE, val := fun s _ _ => s.spareWord },
  { base := Reg.TIL_EVT_SUM_LO, count := 2, val := fun s _ n => s.evtSum Reg.TIL_C_EVT (32 * n) 32 },
  { base := Reg.TIL_C_STAT 0, stride := 0x40, count := 64, val := fun s _ c => s.tilStat c },
  { base := Reg.TIL_C_PHYS 0, stride := 0x40, count := 64, val := fun s _ c => wd (s.colPhys c) },
  { base := Reg.SVC_EVT_SUM 0, count := 4, val := fun s _ n => s.evtSum Reg.SVC_K_EVT (32 * n) 32 },
  { base := Reg.SVC_K_STAT 0, stride := 0x40, count := 128, val := fun s _ k => s.svcStat k },
  { base := Reg.SVC_K_PC 0, stride := 0x40, count := 128, val := fun s _ k => (s.core k).pc.setWidth 32 },
  { base := Reg.QUE_SEL, count := 18, val := fun s f n => s.queRead f (Reg.QUE_SEL + 4 * n) },
  { base := Reg.XFR_I_STAT 0, stride := 0x20, count := 8, val := fun s _ i => wd (s.tagsHeld i) },
  { base := Reg.INS_EVT_SUM, val := fun s _ _ => s.evtSum Reg.INS_I_EVT 0 8 },
  { base := Reg.INS_I_STAT 0, stride := 0x80, count := 8, val := fun s _ i => s.instStat i },
  { base := Reg.ADP_EVT_SUM, val := fun s _ _ => s.evtSum Reg.ADP_I_EVT 0 8 },
  { base := Reg.ADP_I_STAT 0, stride := 0x40, count := 8, val := fun s _ i => s.adpStat i },
  { base := Reg.OUT_I_STAT 0, stride := 0x80, count := 8, val := fun s _ i => wd (min 7 (s.inst i).unsealed.length) },
  { base := Reg.ACT_EVT_SUM, val := fun s _ _ => s.evtSum Reg.ACT_I_EVT 0 8 },
  { base := Reg.STO_STAT, val := fun s _ _ =>
      wd (2 ^ 28 * s.store.st + ((List.range 32).filter s.targetOn).length) },
  { base := Reg.STO_I_STAT 0, stride := 0x20, count := 8, val := fun s _ i => wd (ceilDiv (s.bufUsed i) 1024 % 16384) },
  { base := Reg.FLT_LOG_HEAD, val := fun s _ _ => wd (s.ring 0).head },
  { base := Reg.FLT_LOG_TAIL, val := fun s _ _ => wd (s.ring 0).tail },
  { base := Reg.FLT_I_LOG_HEAD 0, stride := 0x40, count := 8, val := fun s _ i => wd (s.ring (1 + i)).head },
  { base := Reg.FLT_I_LOG_TAIL 0, stride := 0x40, count := 8, val := fun s _ i => wd (s.ring (1 + i)).tail },
  { base := Reg.FLT_RD_SEL, val := fun s f _ => s.rdSel f },
  { base := Reg.FLT_RD_DATA 0, count := 8, val := fun s f n => s.rdData f n },
  { base := Reg.FLT_TIME_LO, val := fun s _ _ => wd (s.now / 1000) },
  { base := Reg.FLT_TIME_HI, val := fun s _ _ => wd (s.now / 1000 / 2 ^ 32) },
  { base := Reg.FLT_FENCED, val := fun s _ _ => s.fencedWord },
  { base := Reg.FLT_SPARE_BANKS, val := fun s _ _ => s.spareBanksWord },
  { base := Reg.TDM_STAT, val := fun s _ _ => s.tdmStat },
  { base := Reg.CLK_KEEP 0, count := 4, val := fun s _ n => domBits (fun d => gateable d && s.kept d) n },
  { base := Reg.CLK_GATED 0, count := 4, val := fun s _ n => domBits (fun d => (s.dom d).gated) n },
  { base := Reg.CLK_D_STAT 0, stride := 0x10, count := 116, val := fun s _ d => s.domStat d },
  { base := Reg.CLK_D_BRAKED 0, stride := 0x10, count := 116, val := fun s _ d =>
      satAdd (s.rd (Reg.CLK_D_BRAKED d)) (if (s.dom d).braked then s.now - (s.dom d).brakedFrom else 0) },
  { base := Reg.PWR_S_BRAKE_NS 0, stride := 0x10, count := 16, val := fun s _ n =>
      satAdd (s.rd (Reg.PWR_S_BRAKE_NS n)) (match SMap.find s.clk.sensorFrom n with | some t => s.now - t | none => 0) },
  { base := Reg.HIF_UNITS, val := fun s _ _ => s.unitsWord },
  { base := Reg.HIF_ENG_PMAP 0, count := 5, val := fun s _ n => pmap s.engCode n },
  { base := Reg.HIF_COL_PMAP 0, count := 5, val := fun s _ n => pmap s.colCode n },
  { base := Reg.HIF_F_PEND 0, count := 9, val := fun s _ f => s.pendWord f },
  { base := Reg.DBG_STAT, val := fun s _ _ => wd (bitAt (s.bit Reg.HIF_STRAPS 12) 31 + bitAt s.sig.mapped 0) },
  { base := Reg.DBG_GPIO_IN, val := fun s _ _ => wd ((List.range 8).foldl (fun m k => m + bitAt (s.gpioBall k) k) 0) }]

/-- The value of the register at plain offset a for function f, whoever may see it. -/
def State.value (s : State) (f a : Nat) : Word :=
  match views.findSome? (fun w => (rowOf w.base w.stride w.count a).map (fun n => w.val s f n)) with
  | some v => v
  | none => s.rd a

/-! ### What a function may see (R399) -/

/-- Registers of which every function has its own, or its own selection. -/
def perFunction (a : Nat) : Bool :=
  (decide (Reg.QUE_SEL ≤ a) && decide (a ≤ Reg.QUE_EVT_COUNT)) || (decide (Reg.FLT_RD_SEL ≤ a) && decide (a < Reg.FLT_TIME_LO))

/-- Is offset a in a row that function f owns, or a per-function register? The manager owns every row. -/
def State.owns (s : State) (f a : Nat) : Bool :=
  f == 0 || perFunction a || instRow a == some (f - 1) ||
    (match unitRow a with | some (k, u) => s.unitOwner k u == some (f - 1) | none => false)

/-- May function f read the register at offset a? -/
def State.sees (s : State) (f a : Nat) : Bool :=
  s.owns f a || ((instRow a).isNone && (unitRow a).isNone && !(decide (Reg.FLT_CTRL ≤ a) && decide (a < Reg.FLT_CTRL + 0x100)))

/-- The ADP row of an instance without a plan reads 0 and ignores writes; its state shows 0b11 slots while unloaded. -/
def State.noPlan (s : State) (a : Nat) : Bool :=
  decide (Reg.ADP_I_CTRL 0 ≤ a) && decide (a < Reg.ADP_EVT_SUM + 0x1000) && (rowOf (Reg.ADP_I_STAT 0) 0x40 8 a).isNone &&
    (match instRow a with | some i => (s.inst i).plan.isNone | none => false)

/-- What function f reads at plain offset a, shadows apart (R3, R399, R403). -/
def State.regVal (s : State) (f a : Nat) : Word :=
  match regAt a with
  | none => 0
  | some d => if !s.sees f a || s.noPlan a then 0 else if f = 0 then s.value f a else s.value f a &&& ~~~wd d.prv

/-! ### Read shadows (R404) -/

/-- The groups of "reading A latches B": first register of row 0, stride, rows, and the distances of the others. -/
def latchGroups : List (Nat × Nat × Nat × List Nat) := [
  (Reg.CAD_TICK_LO, 4, 1, [4]), (Reg.ENG_E_BUSY_LO 0, 0x40, 64, [4]), (Reg.ENG_E_LOAD_LO 0, 0x40, 64, [4]),
  (Reg.SVC_K_RETIRED_LO 0, 0x40, 128, [4]), (Reg.XFR_E_BEATS_LO 0, 0x10, 16, [4]), (Reg.OUT_I_ED_NUM 0, 0x80, 8, [4, 8]),
  (Reg.INS_I_IMAGE_LO 0, 0x80, 8, [4]), (Reg.STO_TXN_LO, 4, 1, [4]), (Reg.FLT_RD_DATA 0, 4, 1, [4, 8, 12, 16, 20, 24, 28]),
  (Reg.FLT_TIME_LO, 4, 1, [4]), (Reg.DBG_MEM_DATA_LO, 4, 1, [4])]

/-- The registers that a read of a latches. -/
def latches (a : Nat) : List Nat :=
  match latchGroups.find? (fun g => (rowOf g.1 g.2.1 g.2.2.1 a).isSome) with
  | some g => g.2.2.2.map (a + ·)
  | none => []

/-- Is a read from the shadow, not the first of its group? -/
def latched (a : Nat) : Bool := latchGroups.any (fun g => g.2.2.2.any (fun d => (rowOf (g.1 + d) g.2.1 g.2.2.1 a).isSome))

/-- The plain offset of an access, and its alias: 0 plain, 1 set, 2 clear, 3 toggle (R406). -/
def aliasOf (a : Nat) : Nat := a / 0x4000 % 4
def plainOf (a : Nat) : Nat := a - 0x4000 * aliasOf a

/-- The access wakes the register's domain (R402). -/
def State.wakeFor (s : State) (a : Nat) : State := s.woken (regDomain a)

/-- Function f reads PF offset a: the value goes to `lastRead`, the rest of a group into the function's shadow. -/
def State.readReg (s : State) (f a : Nat) : State :=
  let p := plainOf a
  if (s.dom (regDomain p)).stopped then { s with hif := { s.hif with lastRead := 0 } }
  else
    let s := s.wakeFor p
    let key (b : Nat) : Nat := 2 ^ 26 * f + b
    if latched p then { s with hif := { s.hif with lastRead := SMap.get 0 s.hif.readShadow (key p) } }
    else
      let sh := (latches p).foldl (fun m b => SMap.set 0 (key b) (s.regVal f b) m) s.hif.readShadow
      { s with free := s.free + 1, hif := { s.hif with lastRead := s.regVal f p, readShadow := sh } }

end Sys2Proof.Machine
end

