-- ==== Sys2Proof/Machine/Access.lean ====
section
/-! DEFINITION. What a write of a register does: its fields by type, byte enables and aliases, the registers with an effect of
their own, the queue registers, counters of 64 bits, doorbells, and configuration parity (R3, R9 to R11, R290, R399 to R411). -/

namespace Sys2Proof.Machine

/-! ### Fields by type (R3, R403, R405, R406) -/

/-- What a write brings to one register: its stored value before and after, the stored bits it writes, and the bits of types
W1C and CMD written 1. -/
structure Landing where
  old : Word
  nv : Word
  mask : Word
  one : Word
deriving DecidableEq, Repr

/-- The write of `v` through an alias to a register whose stored value is `old`, by a function that may (`prv`) or may not
write PRV fields, while the LCK fields are open (`lck`) or read-only. -/
def landing (d : RegDesc) (prv lck : Bool) (al : Nat) (be : BitVec 4) (v old : Word) : Landing :=
  let v := v &&& beMask be
  let rw := wd d.rw
  if al = 0 then
    let m := (rw ||| (if lck then wd d.lck else 0) ||| (if prv then wd d.prv else 0) ||| wd d.cnt) &&& beMask be
    { old := old, nv := (old &&& ~~~m) ||| (v &&& m), mask := m, one := v &&& (wd d.w1c ||| wd d.cmd) }
  else
    let n := if al = 1 then old ||| v else if al = 2 then old &&& ~~~v else old ^^^ v
    { old := old, nv := (old &&& ~~~rw) ||| (n &&& rw), mask := rw, one := 0 }

/-- The fields that the parity bit of a register covers (R407). -/
def RegDesc.covered (d : RegDesc) : Word := wd d.rw ||| wd d.lck ||| wd d.prv

/-- LCK fields of an instance's row are open until its release begins (R3, R297). -/
def Inst.open_ (x : Inst) : Bool := x.st == .unloaded || x.st == .loading || (x.st == .held && x.relStep == 0)

/-- Are the LCK fields of the register at offset a open? -/
def State.lckOpen (s : State) (a : Nat) : Bool := match instRow a with | some i => (s.inst i).open_ | none => true

/-! ### Events and enables (R410 to R412) -/

/-- Is a an event register whose enable register follows it? -/
def evtReg (a : Nat) : Bool :=
  devEvts.contains a
    || instEvtRows.any (fun p => (rowOf p.1 p.2 8 a).isSome) || unitEvtRows.any (fun p => (rowOf p.1 0x40 p.2 a).isSome)

/-- The pending bits after a write of an event register (`clr`: it has cleared an event bit) or of an enable register. -/
def State.pendAfter (s : State) (src : Nat) (clr : Bool) (old new : Word) : State :=
  if clr || (old &&& ~~~new) != 0 then s.pendRefresh src else if old != new then s.pendRise src else s

/-- Every pending bit is taken afresh where an owner or HIF_WATCH has changed; a rise sends. -/
def State.pendSync (s : State) : State := (List.range 19).foldl (fun s k => s.pendRise k) s.pendDrop

/-- A register without an effect of its own takes a write. -/
def State.plainWrite (s : State) (a : Nat) (d : RegDesc) (w : Landing) : State :=
  let c := w.one &&& wd d.w1c
  let s := s.wr a (w.nv &&& ~~~c)
  if evtReg a then s.pendAfter (sourceOf a) ((w.old &&& c) != 0) 0 0
  else if evtReg (a - 4) then s.pendAfter (sourceOf a) false w.old w.nv
  else s

/-! ### The cadence (R9 to R11, R14, R17, R24) -/

/-- CAD_CTRL takes a value (R8, R9, R11). -/
def State.setCadCtrl (s : State) (v : Word) : State :=
  let old := s.rd Reg.CAD_CTRL
  let s := s.wr Reg.CAD_CTRL v
  let moved := bits old 7 4 != bits v 7 4
  let s := if moved then s.event Reg.CAD_EVT 2 else s
  let s :=
    if !(moved || s.cad.switching) then s
    else if !old.getLsbD 0 || !v.getLsbD 0 || s.cad.tickSrc == 3 then s.switchSource
    else s.modCad (fun c => { c with switching := true })
  if !old.getLsbD 0 && v.getLsbD 0 then
    s.modCad (fun c => { c with due := c.due.filter (fun d => d.src == 3 || decide (s.now < d.at_))
                                stampRef := if c.tickSrc = 2 then none else c.stampRef
                                genStart := s.now, genPeriod := s.fld Reg.CAD_PERIOD 21 0 })
  else s

/-- CAD_PERIOD takes a value from 1,000 to 4,096,000 (R10). -/
def State.setPeriod (s : State) (v : Word) : State :=
  if 1000 ≤ bits v 21 0 ∧ bits v 21 0 ≤ 4096000 then s.wr Reg.CAD_PERIOD v else s.event Reg.CAD_EVT 1

/-- CAD_CMD: a host mark, then the clearing of the extremes, then a step (R9, R14, R17). -/
def State.cadCmd (s : State) (v : Word) : State :=
  let s := if v.getLsbD 0 then
      instNums.foldl (fun s i => if (s.inst i).live then s.modInst i (fun x => { x with hostMark := true }) else s)
        (s.modCad (fun c => { c with hostMark := true }))
    else s
  let s := if v.getLsbD 1 then instNums.foldl (fun s i => s.wr (Reg.CAD_I_SLACK_MIN i) 0x3FFFFF) (s.wr Reg.CAD_BRAKE_MAX 0) else s
  if !v.getLsbD 2 then s
  else if s.bit Reg.CAD_CTRL 0 then s.event Reg.CAD_EVT 1
  else s.deliver false none

/-! ### Assignment registers (R290) -/

/-- The instance that an assignment register concerns: its own row's, or the one that a valid window entry names. -/
def State.assigned (s : State) (a : Nat) : Option Nat :=
  match instRow a with
  | some i =>
    if Reg.INS_I_ENGINES_LO i ≤ a ∧ a ≤ Reg.INS_I_TAGS i then some i else none
  | none =>
    match rowOf (Reg.INS_W_MATCH 0) 4 2048 a with
    | some n => let w := s.win (n / 4); if w.valid && decide (w.owner < 8) then some w.owner else none
    | none => none

/-- Would the value v of the assignment register at `a` of instance i name a unit that another instance holds (R53)? -/
def State.unitTaken (s : State) (i a : Nat) (v : Word) : Bool :=
  let others := instNums.filter (· != i)
  let off := a - Reg.INS_I_ENGINES_LO i
  if a = Reg.INS_I_COLS i then
    others.any (fun j => (List.range 128).any (fun c => decide (bits v 5 0 ≤ c) && decide (c < bits v 5 0 + bits v 14 8) && s.ownsCol j c))
  else a != Reg.INS_I_TAGS i && others.any (fun j => (s.rd (Reg.INS_I_ENGINES_LO j + off) &&& v) != 0)

/-- A register that names the resources of instance i, or of none, takes a value. DESIGN CHOICE (log entry 63): a unit belongs
to at most one instance (R53), so a value that names a unit of another instance is not taken. -/
def State.assign (s : State) (a : Nat) (v : Word) : State :=
  match s.assigned a with
  | some i =>
    if (s.inst i).st ≠ .unloaded then s.event (Reg.INS_I_EVT i) 7
    else if (instRow a).isSome && s.unitTaken i a v then s
    else if a = Reg.INS_I_COLS i then (s.setCols i v).pendSync
    else (s.wr a v).pendSync
  | none => s.wr a v

/-! ### Registers with an effect of their own -/

/-- The running part of a braked domain's or sensor's time is counted, before its counter is written. -/
def State.settleBrake (s : State) (d : Nat) : State :=
  let x := s.dom d
  if !x.braked then s
  else
    let s := { s with cad := { s.cad with braked := SMap.set 0 d (s.brakedNow d) s.cad.braked } }
    s.setDom d { x with brakedFrom := s.now }
def State.settleSensor (s : State) (n : Nat) : State :=
  if (SMap.find s.clk.sensorFrom n).isSome then { s with clk := { s.clk with sensorFrom := SMap.put n s.now s.clk.sensorFrom } } else s

/-- The key under which the parity bit of the register at offset a stands for the manager: a Q register is that of the queue
it has selected (R407, R408). -/
def State.parityKey (s : State) (a : Nat) : Nat := if queReg a then queueKey (s.queSel 0) a else a

/-- Does the register at offset a hold a parity bit? -/
def hasParity (a : Nat) : Bool := match regAt a with | some d => d.covered != 0 | none => false

/-- HIF_PAR_INJ.go: the stored parity bit of the register at `a` is inverted. -/
def State.invertParity (s : State) (a : Nat) : State :=
  let k := s.parityKey a
  if !hasParity a then s
  else { s with hif := { s.hif with
    parityBad := if s.hif.parityBad.contains k then delKey k s.hif.parityBad else insKey k s.hif.parityBad
    parityReported := delKey k s.hif.parityReported } }

/-- HIF_EVT: par_fault clears HIF_PAR_ADDR with it, and nm its pending bit. -/
def State.hifEvt (s : State) (d : RegDesc) (w : Landing) : State :=
  let s := if w.one.getLsbD 0 then s.wr Reg.HIF_PAR_ADDR 0 else s
  let s := if w.one.getLsbD 3 then { s with hif := { s.hif with pend := delKey 0 s.hif.pend } } else s
  s.plainWrite Reg.HIF_EVT d w

/-- PWR_EVT: hold_low stays set while MAIN_OK is high and HOLD_OK low (R393; DEDUCED, log entry 78). -/
def State.pwrEvt (s : State) (d : RegDesc) (w : Landing) : State :=
  s.plainWrite Reg.PWR_EVT d (if s.bit Reg.PWR_STAT 31 && !s.bit Reg.PWR_STAT 30 then { w with one := w.one &&& ~~~2 } else w)

/-- A row of registers whose write does more than store: first offset, stride, count, and what the write of index n does. -/
structure Hook where
  base : Nat
  stride : Nat := 4
  count : Nat := 1
  run : State → Nat → Landing → State

/-- The registers whose write does more than store; INS_I_CMD and the QUE block stand apart. -/
def hooks : List Hook := [
  { base := Reg.CAD_CTRL, run := fun s _ w => s.setCadCtrl w.nv },
  { base := Reg.CAD_PERIOD, run := fun s _ w => s.setPeriod w.nv },
  { base := Reg.CAD_CMD, run := fun s _ w => s.cadCmd w.one },
  { base := Reg.CAD_I_EMPTY_LIMIT 0, stride := 0x40, count := 8,
    run := fun s i w => if bits w.nv 15 0 = 0 then s else s.wr (Reg.CAD_I_EMPTY_LIMIT i) w.nv },
  { base := Reg.INL_CTRL, run := fun s _ w => s.setInlCtrl w.nv },
  { base := Reg.INL_LANE_EN, run := fun s _ w => s.setLaneEn w.nv },
  { base := Reg.INL_CMD, run := fun s _ w => s.inlCmd w.one },
  { base := Reg.OUT_I_CMD 0, stride := 0x80, count := 8, run := fun s i w => s.outCmd i w.one },
  { base := Reg.XFR_CMD, run := fun s _ w => if w.one.getLsbD 0 then (List.range 10).foldl (fun s p => s.wr (Reg.XFR_P_WAIT_MAX p) 0) s else s },
  { base := Reg.INS_REPAIR, run := fun s _ w => s.insRepair (w.nv ||| w.one) },
  { base := Reg.INS_I_LOAD_SRC 0, stride := 0x80, count := 8,
    run := fun s i w => if (s.inst i).st = .unloaded then s.wr (Reg.INS_I_LOAD_SRC i) w.nv else s },
  { base := Reg.ADP_I_CMD 0, stride := 0x40, count := 8, run := fun s i w => s.adpCmd i w.one },
  { base := Reg.ADP_I_MARGIN 0, stride := 0x40, count := 8, run := fun s i w => s.marginSet i w.nv },
  { base := Reg.STO_CMD, run := fun s _ w => s.stoCmd w.one },
  { base := Reg.FLT_CMD, run := fun s _ w => s.fltCmd w.one },
  { base := Reg.FLT_LOG_TAIL, run := fun s _ w => s.setTail 0 w.nv.toNat },
  { base := Reg.FLT_I_LOG_TAIL 0, stride := 0x40, count := 8, run := fun s i w => s.setTail (1 + i) w.nv.toNat },
  { base := Reg.FLT_I_CMD 0, stride := 0x40, count := 8, run := fun s i w => if w.one.getLsbD 0 then s.clearRing (1 + i) else s },
  { base := Reg.TDM_CMD, run := fun s _ w =>
      let s := if w.one.getLsbD 0 then s.startPair s.now else s
      if w.one.getLsbD 1 then s.leavePair 0 else s },
  { base := Reg.TDM_LANE_EN, run := fun s _ w =>
      { s.wr Reg.TDM_LANE_EN w.nv with tdm := { s.tdm with lanesUp := s.tdm.lanesUp &&& w.nv.setWidth 8 } } },
  { base := Reg.CLK_D_CFG 0, stride := 0x10, count := 116, run := fun s d w => s.setDiv d w.nv },
  { base := Reg.CLK_D_BRAKED 0, stride := 0x10, count := 116, run := fun s d w => (s.settleBrake d).wr (Reg.CLK_D_BRAKED d) w.nv },
  { base := Reg.PWR_S_BRAKE_NS 0, stride := 0x10, count := 16, run := fun s n w => (s.settleSensor n).wr (Reg.PWR_S_BRAKE_NS n) w.nv },
  { base := Reg.PWR_CMD, run := fun s _ w => if w.one.getLsbD 0 then s.pwrClear else s },
  { base := Reg.PWR_DROOP, run := fun s _ w => s.setDroop w.nv },
  { base := Reg.PWR_THERM, run := fun s _ w => s.setTherm w.nv },
  { base := Reg.HIF_WATCH, run := fun s _ w => (s.wr Reg.HIF_WATCH w.nv).pendSync },
  { base := Reg.HIF_PAR_INJ, run := fun s _ w =>
      let s := s.wr Reg.HIF_PAR_INJ w.nv
      if w.one.getLsbD 31 then s.invertParity (bits w.nv 25 2 * 4) else s },
  { base := Reg.DBG_MEM_CMD, run := fun s _ w => s.memCmd w.one },
  { base := Reg.DBG_P_CNT 0, stride := 0x10, count := 4, run := fun s k w => s.armProbe k w.nv },
  { base := Reg.INS_W_MATCH 0, count := 2048, run := fun s n w => s.assign (Reg.INS_W_MATCH 0 + 4 * n) w.nv }]

/-! ### Counters of 64 bits (R405) -/

/-- Low registers of the counters of 64 bits: row 0, stride, rows; the high register follows each. -/
def widePairs : List (Nat × Nat × Nat) := [
  (Reg.ENG_E_BUSY_LO 0, 0x40, 64), (Reg.ENG_E_LOAD_LO 0, 0x40, 64), (Reg.SVC_K_RETIRED_LO 0, 0x40, 128), (Reg.XFR_E_BEATS_LO 0, 0x10, 16)]

def wideLow (a : Nat) : Bool := widePairs.any (fun g => (rowOf g.1 g.2.1 g.2.2 a).isSome)
def wideHigh (a : Nat) : Bool := decide (4 ≤ a) && wideLow (a - 4)

/-- The high word goes into the writing function's shadow, byte by byte. -/
def State.highWrite (s : State) (f a : Nat) (be : BitVec 4) (v : Word) : State :=
  let k := 2 ^ 26 * f + a
  let old := SMap.get 0 s.hif.writeShadow k
  { s with hif := { s.hif with writeShadow := SMap.set 0 k ((old &&& ~~~beMask be) ||| (v &&& beMask be)) s.hif.writeShadow } }

/-- The low word loads the whole counter. -/
def State.lowWrite (s : State) (f a : Nat) (w : Landing) : State :=
  (s.wr a w.nv).wr (a + 4) (SMap.get 0 s.hif.writeShadow (2 ^ 26 * f + (a + 4)))

/-! ### INS_I_CMD (R295, R297, R300, R302) -/

/-- The bits are acted on from bit 0 up. A release while loading is a host error without a stated result. -/
def State.insCmd (s : State) (i : Nat) (v : Word) : Res :=
  let s := if v.getLsbD 0 then s.startLoad i else s
  if v.getLsbD 1 && (s.inst i).st == .loading then .fault (.unpredictable 297)
  else
    let s := if v.getLsbD 1 then s.startRelease i else s
    let s := if v.getLsbD 2 then s.resetInst i else s
    .next (if v.getLsbD 3 then s.startReload i else s)

/-! ### The QUE block (R219 to R228) -/

/-- A register of the Q group takes a stored value. -/
def Queue.put (x : Queue) (a : Nat) (v : Word) : Queue :=
  if a = Reg.QUE_Q_CFG then { x with cfg := v }
  else if a = Reg.QUE_Q_BASE_LO then { x with base := x.base.extractLsb' 32 32 ++ v }
  else if a = Reg.QUE_Q_BASE_HI then { x with base := v ++ x.base.extractLsb' 0 32 }
  else if a = Reg.QUE_Q_EVT then { x with evt := v.setWidth 6 }
  else if a = Reg.QUE_Q_EVT_EN then { x with evtEn := v.setWidth 6 }
  else if a = Reg.QUE_Q_THRESH then { x with thresh := v.setWidth 16 }
  else if a = Reg.QUE_Q_DROP then { x with drop := v }
  else if a = Reg.QUE_Q_UNDER then { x with under := v }
  else if a = Reg.QUE_Q_PERR then { x with perr := v }
  else if a = Reg.QUE_Q_ASSIGN then { x with assign := v }
  else if a = Reg.QUE_Q_CAP then { x with cap := v }
  else if a = Reg.QUE_Q_MAXB then { x with maxb := v }
  else x

/-- May queue q be flushed: its stage is held, its instance unloaded, held or resetting, or it has none (R227)? -/
def State.mayFlush (s : State) (q : Nat) : Bool :=
  let x := s.queue q
  if 8 ≤ x.owner then true
  else
    let y := s.inst x.owner
    y.st == .unloaded || y.st == .held || y.st == .resetting || (match x.localId with
      | some l => y.stageDescs.any (fun d => d.edges.any (fun e => e.queue == l) &&
          (match y.stage d.id with | some g => g.st == .held | none => false))
      | none => false)

/-- QUE_CMD takes a value: clr, then flush. -/
def State.queCmd (s : State) (q : Nat) (v : Word) : Res :=
  let s := if v.getLsbD 1 then s.modQueue q (fun x => { x with drop := 0, under := 0, perr := 0 }) else s
  if !v.getLsbD 0 then .next s
  else if s.mayFlush q then .next ((s.emptyQueue q).queueEvent q 4)
  else .fault (.unpredictable 227)

/-- A register of the Q group of queue q takes a write of function f. -/
def State.queuePut (s : State) (f q a : Nat) (d : RegDesc) (al : Nat) (be : BitVec 4) (v : Word) : State :=
  let x := s.queue q
  let open_ := decide (8 ≤ x.owner) || (s.inst x.owner).open_
  let w := landing d (f == 0) open_ al be v (x.reg a)
  let c := w.one &&& wd d.w1c
  if (a = Reg.QUE_Q_BASE_LO ∨ a = Reg.QUE_Q_BASE_HI) ∧ !x.ring then s
  else if Reg.QUE_Q_ASSIGN ≤ a ∧ w.mask ≠ 0 ∧ x.owner < 8 ∧ (s.inst x.owner).st ≠ .unloaded then s.event (Reg.INS_I_EVT x.owner) 7
  else
    let s := s.setQueue q (x.put a (w.nv &&& ~~~c))
    let s := if (w.mask &&& d.covered) != 0 then s.healIf (· == queueKey q a) else s
    if a = Reg.QUE_Q_EVT then s.pendAfter 0x07 ((w.old &&& c) != 0) 0 0
    else if a = Reg.QUE_Q_EVT_EN then s.pendAfter 0x07 false w.old w.nv
    else if a = Reg.QUE_Q_ASSIGN then s.pendSync
    else s

/-- The per-function registers QUE_SEL and FLT_RD_SEL take a write. -/
def State.selPut (s : State) (f a : Nat) (d : RegDesc) (al : Nat) (be : BitVec 4) (v : Word) : State :=
  let w := landing d (f == 0) true al be v (s.fnReg f a)
  (s.setFnReg f a w.nv).healIf (· == 2 ^ 26 * f + a && (w.mask &&& d.covered) != 0)

/-! ### One register access -/

/-- Does the write land on the fields under parity: it covers some, and no rule of the register ignores it (R407)? -/
def State.lands (s : State) (p : Nat) (d : RegDesc) (w : Landing) : Bool :=
  (w.mask &&& d.covered) != 0 &&
    (match s.assigned p with
     | some i => (s.inst i).st == .unloaded && !((instRow p).isSome && s.unitTaken i p w.nv)
     | none =>
       let v := w.nv
       if p = Reg.CAD_PERIOD then decide (1000 ≤ bits v 21 0) && decide (bits v 21 0 ≤ 4096000)
       else if p = Reg.PWR_DROOP then
         (decide (650 ≤ bits v 9 0) && decide (bits v 9 0 ≤ 740)) || (decide (2 ≤ bits v 23 16) && decide (bits v 23 16 ≤ 50))
       else if p = Reg.PWR_THERM then
         (decide (60 ≤ bits v 7 0) && decide (bits v 7 0 ≤ 105)) || (decide (80 ≤ bits v 23 16) && decide (bits v 23 16 ≤ 110))
       else match rowOf (Reg.CAD_I_EMPTY_LIMIT 0) 0x40 8 p, rowOf (Reg.INS_I_LOAD_SRC 0) 0x80 8 p, rowOf (Reg.ADP_I_MARGIN 0) 0x40 8 p with
         | some _, _, _ => bits v 15 0 != 0
         | _, some i, _ => (s.inst i).st == .unloaded
         | _, _, some _ => marginOk (bits v 15 0)
         | _, _, _ => true)

/-- Function f writes PF offset a. -/
def State.writeReg (s : State) (f a : Nat) (be : BitVec 4) (v : Word) : Res :=
  let al := aliasOf a
  let p := plainOf a
  if (s.dom (regDomain p)).stopped then .next s
  else
    let s := s.wakeFor p
    match regAt p with
    | none => if al = 0 then .next s else .fault (.unpredictable 406)
    | some d =>
      if !s.owns f p || s.noPlan p then .next s
      else if p = Reg.QUE_SEL ∨ p = Reg.FLT_RD_SEL then .next (s.selPut f p d al be v)
      else if p = Reg.QUE_CMD then
        (if al ≠ 0 ∨ s.queDenied f (s.queSel f) then .next s else s.queCmd (s.queSel f) (v &&& beMask be))
      else if queReg p then
        .next (if s.queDenied f (s.queSel f) then s else s.queuePut f (s.queSel f) p d al be v)
      else if wideHigh p then .next (if al = 0 then s.highWrite f p be v else s)
      else
        let old := if p = Reg.FLT_LOG_TAIL ∨ (rowOf (Reg.FLT_I_LOG_TAIL 0) 0x40 8 p).isSome then s.value f p else s.rd p
        let w := landing d (f == 0) (s.lckOpen p) al be v old
        if w.mask = 0 ∧ w.one = 0 then .next s
        else
          let s := if s.lands p d w then s.healIf (· == p) else s
          if wideLow p then .next (if al = 0 then s.lowWrite f p w else s)
          else match rowOf (Reg.INS_I_CMD 0) 0x80 8 p with
            | some i => s.insCmd i w.one
            | none =>
              if p = Reg.HIF_EVT then .next (s.hifEvt d w)
              else if p = Reg.PWR_EVT then .next (s.pwrEvt d w)
              else if (s.assigned p).isSome then .next (s.assign p w.nv)
              else match hooks.findSome? (fun h => (rowOf h.base h.stride h.count p).map (fun n => h.run s n w)) with
                | some s => .next s
                | none => .next (s.plainWrite p d w)

/-! ### Doorbells (R230, R231, R409) -/

/-- The host ring of function f at doorbell l. -/
def State.ringOf (s : State) (f l : Nat) : Option Nat :=
  let q := if f = 0 then (if l < 2048 then some (14336 + l) else none) else s.localQueue (f - 1) l
  match q with
  | some q => if (s.queue q).ring && (s.queue q).function == some f then some q else none
  | none => none

/-- Lenuk reads `n` further entries of a host-to-device ring, and a paired lead forwards them. What an unreadable entry
brings is open. -/
def State.readRing (s : State) (q : Nat) : Nat → State
  | 0 => s
  | n + 1 =>
    let x := s.queue q
    match s.hostBytes (x.base.toNat + 64 * (x.wr % x.depth)) 64 with
    | some bs => ((s.forward 0 q 0 bs).pushEntry q (hostEntry bs)).readRing q n
    | none => let r := s.openBytes 64; (r.2.pushEntry q (hostEntry r.1)).readRing q n

/-- A doorbell write of function f at local id l. A follower takes the entries of a host-to-device ring from the link. -/
def State.doorbell (s : State) (f l : Nat) (v : Word) : State :=
  match s.ringOf f l with
  | none => (s.count Reg.HIF_DB_BAD).event Reg.HIF_EVT 1
  | some q =>
    let x := s.queue q
    let p := bits v 15 0 % x.ptrMod
    if x.qkind = qH2D then
      let n := (p + x.ptrMod - x.rd) % x.ptrMod
      if x.depth < n then s.queueEvent q 5
      else if s.follows then s
      else if x.fill ≤ n then s.readRing q (n - x.fill)
      else s.setQueue q { x with wr := p, entries := x.entries.take n }
    else
      let n := (x.wr + x.ptrMod - p) % x.ptrMod
      if x.depth < n then s.queueEvent q 5 else s.setQueue q { x with rd := p }

/-! ### Host accesses, alone and paired (R370, R399, R401) -/

/-- Function f exists for the host: the physical one, or an enabled virtual one. -/
def State.fnOn (s : State) (f : Nat) : Bool := f == 0 || (decide (f ≤ 8) && s.hif.vfEnabled.getLsbD (f - 1))

/-- PF offset of an access to BAR0. -/
def pfOffset (bar off : Nat) : Nat := if bar = 1 then 0x100000 + off else off

/-- Is it an access to the TDM block? -/
def toTdm (bar off : Nat) : Bool := bar != 2 && pfOffset bar off / 0x10000 == 0x1F

/-- A write takes effect: BAR 0 the PF's BAR0, 1 a VF's, 2 a doorbell. -/
def State.apply (s : State) (f bar off : Nat) (be : BitVec 4) (v : Word) : Res :=
  if bar = 2 then .next (s.doorbell f (off / 8) v) else s.writeReg f (pfOffset bar off) be v

/-- The WRITE message of a host write. -/
def writeMessage (f bar off : Nat) (be : BitVec 4) (v : Word) : List Byte :=
  message64 ([3, BitVec.ofNat 8 bar, BitVec.ofNat 8 f, 0] ++ leBytes 4 off ++ [be.setWidth 8] ++ List.replicate 7 0
    ++ leBytes 8 v.toNat)

/-- A host write of function f. A follower ignores those outside the TDM block. A lead mirrors every one, and holds it while a
tick that precedes it is still to be delivered. -/
def State.hostWrite (s : State) (f bar off : Nat) (be : BitVec 4) (v : Word) : Res :=
  if !s.fnOn f then .next s
  else if s.follower && !toTdm bar off then .next (s.count Reg.TDM_HOSTWR_DROP)
  else if s.leads then
    let s := s.tdmPost (writeMessage f bar off be v)
    if s.tickDue then
      let last := s.cad.due.foldl (fun n d => if d.src = 3 then max n d.at_ else n) 0
      .next { s with tdm := { s.tdm with held := s.tdm.held ++ [{ after := last, fn := f, bar := bar, off := off, be := be, v := v }] } }
    else s.apply f bar off be v
  else s.apply f bar off be v

/-- Held writes whose ticks have been delivered take effect, in order. -/
def State.releaseHeld : List HeldWrite → State → Res
  | [], s => .next s
  | h :: hs, s =>
    if s.cad.due.any (fun d => d.src == 3 && decide (d.at_ ≤ h.after)) then .next { s with tdm := { s.tdm with held := h :: hs } }
    else match s.apply h.fn h.bar h.off h.be h.v with
      | .next s => State.releaseHeld hs s
      | r => r

/-- A host write of function f to the register at PF offset a: out of a virtual function's window there is none. -/
def State.hostReg (s : State) (f a : Nat) (be : BitVec 4) (v : Word) : Res :=
  if f = 0 then s.hostWrite 0 0 a be v
  else if 0x100000 ≤ a ∧ a < 0x200000 then s.hostWrite f 1 (a - 0x100000) be v
  else .next s

/-- A request that BAR0 does not accept has no effect but HIF_EVT.ur (R400). -/
def State.unsupported (s : State) (f : Nat) : State := if s.fnOn f then s.event Reg.HIF_EVT 2 else s

/-- As `hostReg`, at offset `off` of the function's own BAR0; one not aligned to 4 is an Unsupported Request. -/
def State.hostOff (s : State) (f off : Nat) (be : BitVec 4) (v : Word) : Res :=
  if (if f = 0 then 0x4000000 else 0x100000) ≤ off then .next s
  else if off % 4 ≠ 0 then .next (s.unsupported f)
  else s.hostWrite f (if f = 0 then 0 else 1) off be v

end Sys2Proof.Machine
end

