-- ==== Sys2Proof/Machine/HostIf.lean ====
section
/-! DEFINITION. The commands of the host: writes of registers, doorbells, reads, configuration space, and parity, and the tick,
after which a paired lead applies the writes that waited for it (R8 to R17, R41, R42, R227, R245, R264 to R269, R276,
R288 to R306, R322, R334, R348 to R360, R366 to R370, R385 to R415). -/

namespace Sys2Proof.Machine

/-! ### The tick and mirrored writes (R9, R370) -/

/-- TICK: the tick that is due is taken; then the host writes that a paired lead has held for it take effect. -/
def execTick (t : Nat) (s : State) : Res :=
  let s := s.at_ t
  if !s.cadenceRuns then .next s
  else
    let s := s.takeTick
    State.releaseHeld s.tdm.held { s with tdm := { s.tdm with held := [] } }

/-- WRITE: the follower applies a mirrored write once every tick ahead of it has been delivered; one to the TDM block is the
lead's own (R366, R370). -/
def execWriteMsg (t : Nat) (s : State) : Res :=
  let s := s.at_ t
  if s.tickDue then .next s
  else
    match s.takeMsg 3 with
    | none => .next s
    | some (m, s) =>
      let bar := leField m 1 1
      let off := leField m 4 4
      if !s.follower || toTdm bar off then .next s
      else s.apply (leField m 2 1) bar off (BitVec.ofNat 4 (leField m 8 1)) (wd (leField m 16 4))

/-! ### Cadence and inlet -/

/-- CAD_PERIOD_WRITE (R10). -/
def execCadPeriodWrite (f : Nat) (be : BitVec 4) (v : Word) (s : State) : Res := s.hostReg f Reg.CAD_PERIOD be v
/-- SRC_SWITCH: a write of CAD_CTRL (R8, R9, R11). -/
def execSrcSwitch (f : Nat) (be : BitVec 4) (v : Word) (t : Nat) (s : State) : Res := (s.at_ t).hostReg f Reg.CAD_CTRL be v
/-- STEP: CAD_CMD.step, alone or with sheet (R9, R14). -/
def execCadStep (f : Nat) (sheet : Bool) (t : Nat) (s : State) : Res :=
  (s.at_ t).hostReg f Reg.CAD_CMD 0xF (if sheet then 5 else 4)
/-- HOST_MARK: CAD_CMD.sheet (R14). -/
def execHostMark (f : Nat) (s : State) : Res := s.hostReg f Reg.CAD_CMD 0xF 1
/-- CAD_CLR_MAX: CAD_CMD.clr_max (R17). -/
def execCadClrMax (f : Nat) (s : State) : Res := s.hostReg f Reg.CAD_CMD 0xF 2
/-- EMPTY_LIMIT_WRITE (R24). -/
def execEmptyLimitWrite (f i : Nat) (be : BitVec 4) (v : Word) (s : State) : Res :=
  if 8 ≤ i then .next s else s.hostReg f (Reg.CAD_I_EMPTY_LIMIT i) be v
/-- INL_LANE_EN_WRITE (R432). -/
def execInlLaneEnWrite (f : Nat) (be : BitVec 4) (v : Word) (s : State) : Res := s.hostReg f Reg.INL_LANE_EN be v
/-- RESYNC: INL_CMD bit 8 + i (R42). -/
def execResync (f i : Nat) (s : State) : Res := if 8 ≤ i then .next s else s.hostReg f Reg.INL_CMD 0xF (wd (2 ^ (8 + i)))
/-- INL_CLR: INL_CMD.clr. -/
def execInlClr (f : Nat) (s : State) : Res := s.hostReg f Reg.INL_CMD 0xF 1
/-- STREAM_MAP_WRITE: register r of entry k (R41). -/
def execStreamMapWrite (f k r : Nat) (be : BitVec 4) (v : Word) (s : State) : Res :=
  if 32 ≤ k ∨ 4 ≤ r then .next s else s.hostReg f (Reg.INL_MAP_MATCH k + 4 * r) be v

/-! ### Queues and transfers -/

/-- FLUSH: QUE_CMD.flush (R227). -/
def execFlush (f : Nat) (s : State) : Res := s.hostReg f Reg.QUE_CMD 0xF 1
/-- QUE_CLR: QUE_CMD.clr. -/
def execQueClr (f : Nat) (s : State) : Res := s.hostReg f Reg.QUE_CMD 0xF 2
/-- DOORBELL of function f at local id l, with the bytes that the host has placed before it (R409). -/
def execDoorbell (f l : Nat) (v : Word) (host : List (Nat × Byte)) (s : State) : Res :=
  let s := s.placeHost host
  if 16384 ≤ l then .next s else s.hostWrite f 2 (8 * l) 0xF v
/-- XFR_CLR_MAX: XFR_CMD.clr_max (R245). -/
def execXfrClrMax (f : Nat) (s : State) : Res := s.hostReg f Reg.XFR_CMD 0xF 1

/-! ### Adaptation, outputs and actions -/

/-- A bit of ADP_I_CMD[i]. -/
def State.adpBit (s : State) (f i n : Nat) : Res := if 8 ≤ i then .next s else s.hostReg f (Reg.ADP_I_CMD i) 0xF (wd (2 ^ n))
/-- PROMOTE (R264). -/
def execPromote (f i : Nat) (s : State) : Res := s.adpBit f i 0
/-- ROLLBACK (R264). -/
def execRollback (f i : Nat) (s : State) : Res := s.adpBit f i 1
/-- DISCARD (R264). -/
def execDiscard (f i : Nat) (s : State) : Res := s.adpBit f i 2
/-- CHECKPOINT (R268). -/
def execCheckpoint (f i : Nat) (s : State) : Res := s.adpBit f i 3
/-- RESTORE (R269). -/
def execRestore (f i : Nat) (s : State) : Res := s.adpBit f i 4
/-- MARGIN_WRITE (R267). -/
def execMarginWrite (f i : Nat) (be : BitVec 4) (v : Word) (s : State) : Res :=
  if 8 ≤ i then .next s else s.hostReg f (Reg.ADP_I_MARGIN i) be v
/-- ACTION_TABLE_WRITE: register r of entry k (R276). -/
def execActionTableWrite (f k r : Nat) (be : BitVec 4) (v : Word) (s : State) : Res :=
  if 256 ≤ k ∨ 7 ≤ r then .next s else s.hostReg f (Reg.ACT_E_MATCH k + 4 * r) be v
/-- REMIRROR: OUT_I_CMD.remirror (R288). -/
def execRemirror (f i : Nat) (s : State) : Res := if 8 ≤ i then .next s else s.hostReg f (Reg.OUT_I_CMD i) 0xF 1
/-- OUT_CLR: OUT_I_CMD.clr. -/
def execOutClr (f i : Nat) (s : State) : Res := if 8 ≤ i then .next s else s.hostReg f (Reg.OUT_I_CMD i) 0xF 2

/-! ### Instances -/

/-- ASSIGNMENT_WRITE: a write at offset `off` of the function's BAR0 to an assignment register (R290). -/
def execAssignmentWrite (f off : Nat) (be : BitVec 4) (v : Word) (s : State) : Res := s.hostOff f off be v
/-- LOAD_SRC_WRITE (R295). -/
def execLoadSrcWrite (f i : Nat) (be : BitVec 4) (v : Word) (s : State) : Res :=
  if 8 ≤ i then .next s else s.hostReg f (Reg.INS_I_LOAD_SRC i) be v
/-- A bit of INS_I_CMD[i]. -/
def State.insBit (s : State) (f i n : Nat) : Res := if 8 ≤ i then .next s else s.hostReg f (Reg.INS_I_CMD i) 0xF (wd (2 ^ n))
/-- LOAD, with the bytes that the host has placed before it (R295). -/
def execInsLoad (f i : Nat) (host : List (Nat × Byte)) (s : State) : Res := (s.placeHost host).insBit f i 0
/-- RELEASE (R297). -/
def execInsRelease (f i : Nat) (s : State) : Res := s.insBit f i 1
/-- RESET (R300). -/
def execInsReset (f i : Nat) (s : State) : Res := s.insBit f i 2
/-- RELOAD, with the bytes that the host has placed before it (R302). -/
def execInsReload (f i : Nat) (host : List (Nat × Byte)) (s : State) : Res := (s.placeHost host).insBit f i 3
/-- ENGINE_REPAIR: INS_REPAIR of logical engine e (R305). -/
def execEngineRepair (f e : Nat) (s : State) : Res :=
  if 64 ≤ e then .next s else s.hostReg f Reg.INS_REPAIR 0xF (wd (0x80000000 + e))
/-- COLUMN_REPAIR: INS_REPAIR of logical column c (R306). -/
def execColumnRepair (f c : Nat) (s : State) : Res :=
  if 64 ≤ c then .next s else s.hostReg f Reg.INS_REPAIR 0xF (wd (0x81000000 + c))

/-! ### Store, faults and logs -/

/-- MOUNT: STO_CMD.mount (R322). -/
def execStoMount (f : Nat) (s : State) : Res := s.hostReg f Reg.STO_CMD 0xF 1
/-- CLOSE: STO_CMD.close (R334). -/
def execStoClose (f : Nat) (s : State) : Res := s.hostReg f Reg.STO_CMD 0xF 2
/-- TEST: FLT_CMD.test (R348). -/
def execFltTest (f : Nat) (s : State) : Res := s.hostReg f Reg.FLT_CMD 0xF 2
/-- RETEST: FLT_CMD.retest (R354). -/
def execFltRetest (f : Nat) (s : State) : Res := s.hostReg f Reg.FLT_CMD 0xF 4
/-- CLR_LOG: FLT_CMD.clr_log (R359). -/
def execClrLog (f : Nat) (s : State) : Res := s.hostReg f Reg.FLT_CMD 0xF 1
/-- INSTANCE_CLR_LOG: FLT_I_CMD.clr_log (R359). -/
def execInstanceClrLog (f i : Nat) (s : State) : Res := if 8 ≤ i then .next s else s.hostReg f (Reg.FLT_I_CMD i) 0xF 1
/-- LOG_TAIL_WRITE: ring 0 the device's, 1 + i instance i's (R360). -/
def execLogTailWrite (f ring : Nat) (be : BitVec 4) (v : Word) (s : State) : Res :=
  if ring = 0 then s.hostReg f Reg.FLT_LOG_TAIL be v
  else if 9 ≤ ring then .next s
  else s.hostReg f (Reg.FLT_I_LOG_TAIL (ring - 1)) be v

/-! ### Tandem, clocks and power -/

/-- PAIR: TDM_CMD.pair (R366). -/
def execPair (f t : Nat) (s : State) : Res := (s.at_ t).hostReg f Reg.TDM_CMD 0xF 1
/-- LEAVE_CMD: TDM_CMD.leave (R366). -/
def execLeaveCmd (f t : Nat) (s : State) : Res := (s.at_ t).hostReg f Reg.TDM_CMD 0xF 2
/-- DIVIDER_WRITE: CLK_D_CFG of a domain (R385). -/
def execDividerWrite (f dom : Nat) (be : BitVec 4) (v : Word) (t : Nat) (s : State) : Res :=
  if 116 ≤ dom then .next (s.at_ t) else (s.at_ t).hostReg f (Reg.CLK_D_CFG dom) be v
/-- PWR_CLR_MAX: PWR_CMD.clr_max. -/
def execPwrClrMax (f : Nat) (s : State) : Res := s.hostReg f Reg.PWR_CMD 0xF 1
/-- DROOP_WRITE (R388). -/
def execDroopWrite (f : Nat) (be : BitVec 4) (v : Word) (s : State) : Res := s.hostReg f Reg.PWR_DROOP be v
/-- THERM_WRITE (R395). -/
def execThermWrite (f : Nat) (be : BitVec 4) (v : Word) (s : State) : Res := s.hostReg f Reg.PWR_THERM be v

/-! ### Registers in general (R3, R400 to R406) -/

/-- REGISTER_WRITE at offset `off` of the function's BAR0. -/
def execRegisterWrite (f off : Nat) (be : BitVec 4) (v : Word) (s : State) : Res := s.hostOff f off be v
/-- UNSUPPORTED_REQUEST: no effect but HIF_EVT.ur (R400). -/
def execUnsupportedRequest (f : Nat) (s : State) : Res := .next (s.unsupported f)
/-- READ_SHADOW_LATCH: a read of 4 bytes at offset `off` of the function's BAR0 (R404). -/
def execReadShadowLatch (f off : Nat) (s : State) : Res :=
  if !s.fnOn f ∨ (if f = 0 then 0x4000000 else 0x100000) ≤ off then .next s
  else if off % 4 ≠ 0 then .next (s.unsupported f)
  else .next (s.readReg f (if f = 0 then off else 0x100000 + off))
/-- COUNTER_HIGH_WRITE (R405). -/
def execCounterHighWrite (f off : Nat) (be : BitVec 4) (v : Word) (s : State) : Res := s.hostOff f off be v
/-- COUNTER_LOW_WRITE (R405). -/
def execCounterLowWrite (f off : Nat) (be : BitVec 4) (v : Word) (s : State) : Res := s.hostOff f off be v

/-- A write through alias `al` of the register at plain offset `off`. -/
def State.aliasWrite (s : State) (al f off : Nat) (be : BitVec 4) (v : Word) : Res := s.hostOff f (plainOf off + 0x4000 * al) be v
/-- SET_ALIAS (R406). -/
def execSetAlias (f off : Nat) (be : BitVec 4) (v : Word) (s : State) : Res := s.aliasWrite 1 f off be v
/-- CLEAR_ALIAS (R406). -/
def execClearAlias (f off : Nat) (be : BitVec 4) (v : Word) (s : State) : Res := s.aliasWrite 2 f off be v
/-- TOGGLE_ALIAS (R406). -/
def execToggleAlias (f off : Nat) (be : BitVec 4) (v : Word) (s : State) : Res := s.aliasWrite 3 f off be v

/-! ### Configuration parity (R407, R408) -/

/-- PARITY_FAULT: the mismatch of the register under a parity key (its PF offset; a function's own copy and a queue's register
stand 2^26 further for each function, and for each queue from 16). A standing one is reported once, and one in a domain whose
clock stands still is found when the domain wakes. -/
def execParityFault (off : Nat) (s : State) : Res :=
  let x := s.dom (regDomain (off % 2 ^ 26))
  s.onlyIf (hasParity (off % 2 ^ 26) && decide (off / 2 ^ 26 < 16 + 16384) && !s.hif.parityReported.contains off)
    (if x.gated || x.stopped then s.parityStands off else s.parityFault off)
/-- PARITY_INJECT: a write of HIF_PAR_INJ. -/
def execParityInject (f : Nat) (v : Word) (s : State) : Res := s.hostReg f Reg.HIF_PAR_INJ 0xF v

/-! ### Configuration space (R289, R411, R415) -/

/-- The instance of virtual function v is reset, with the function's shadows and its MSI-X table. -/
def State.resetFunction (s : State) (v : Nat) : State :=
  let s := s.resetInst (v - 1)
  let own (k : Nat) : Bool := k / 2 ^ 26 == v
  { s with hif := { s.hif with readShadow := s.hif.readShadow.filter (fun e => !own e.1)
                               writeShadow := s.hif.writeShadow.filter (fun e => !own e.1)
                               vecOpen := s.hif.vecOpen.filter (fun k => k / 256 != v), pba := s.hif.pba.filter (fun k => k / 256 != v) } }

/-- FUNCTION_LEVEL_RESET of virtual function v (R300, R415). -/
def execFunctionLevelReset (v : Nat) (s : State) : Res := s.onlyIf (decide (1 ≤ v) && s.fnOn v) (s.resetFunction v)
/-- VF_DISABLE: as a function-level reset, and the instance exists no longer (R289). -/
def execVfDisable (v : Nat) (s : State) : Res :=
  let s' := s.resetFunction v
  s.onlyIf (decide (1 ≤ v) && s.fnOn v)
    { s' with hif := { s'.hif with vfEnabled := s'.hif.vfEnabled &&& ~~~(BitVec.ofNat 8 (2 ^ (v - 1))), vfWritten := true } }
/-- VF_ENABLE: virtual functions 1 to n are enabled (R289, R424). -/
def execVfEnable (n : Nat) (s : State) : Res :=
  s.onlyIf (decide (n ≤ 8)) { s with hif := { s.hif with vfEnabled := s.hif.vfEnabled ||| BitVec.ofNat 8 (2 ^ n - 1), vfWritten := true } }

/-- MSI_X_UNMASK: function f's mask and that of a vector are cleared, and the messages that waited are sent (R411). -/
def execMsiXUnmask (f vec : Nat) (s : State) : Res :=
  let n := if f = 0 then 256 else 32
  if !s.fnOn f then .next s
  else
    let s := { s with hif := { s.hif with fnMask := s.hif.fnMask &&& ~~~(BitVec.ofNat 9 (2 ^ f))
                                          vecOpen := if vec < n then insKey (256 * f + vec) s.hif.vecOpen else s.hif.vecOpen } }
    let go := s.hif.pba.filter (fun k => k / 256 == f && !s.masked f (k % 256))
    .next { s with hif := { s.hif with pba := s.hif.pba.filter (fun k => !go.contains k)
                                       msgs := (go.map (fun k => (f, k % 256))).reverse ++ s.hif.msgs } }

/-! ### SMBus (R418) -/

/-- SMB_SET_POINTER. -/
def execSmbSetPointer (v : Word) (s : State) : Res := .next { s with sig := { s.sig with smbPtr := v } }

/-- The offsets that the SMBus port reads: HIF, CLK and PWR, and five more registers. -/
def smbReads (a : Nat) : Bool :=
  decide (a < 0x10000) || a / 0x10000 == 0x1D || a / 0x10000 == 0x1E
    || [Reg.TDM_STAT, Reg.STO_STAT, Reg.STO_HOLD, Reg.FLT_SRC_SUM, Reg.FLT_FENCED].contains a

/-- SMB_BLOCK_READ: the register at the pointer, which then moves on by 4. -/
def execSmbBlockRead (s : State) : Res :=
  let a := s.sig.smbPtr.toNat
  let s := if smbReads a then s.readReg 0 a else { s with hif := { s.hif with lastRead := 0 } }
  .next { s with sig := { s.sig with smbPtr := s.sig.smbPtr + 4 } }

/-- SMB_EVENT_WRITE: HIF_EVT, CLK_EVT or PWR_EVT at the pointer takes the data. -/
def execSmbEventWrite (v : Word) (s : State) : Res :=
  let a := s.sig.smbPtr.toNat
  if a = Reg.HIF_EVT ∨ a = Reg.CLK_EVT ∨ a = Reg.PWR_EVT then s.writeReg 0 a 0xF v else .next s

/-! ### DBGACC (R417, R425, R426) -/

/-- The data register after an access: done, error, op, offset, data. -/
def State.dbgDone (s : State) (err : Bool) (op : Nat) (off data : Word) : State :=
  s.jtag 0x10 0xFF (BitVec.ofNat 72 (2 ^ 71 + bitAt err 70 + 2 ^ 64 * op + 2 ^ 32 * off.toNat + data.toNat))

/-- An access that has no effect: misaligned, or beyond 64 MiB. -/
def dbgBad (off : Word) : Bool := off.toNat % 4 != 0 || decide (0x4000000 ≤ off.toNat)

/-- DBGACC_READ: a manager read of 4 bytes; BYPASS while HIF_STRAPS.auth is 1. -/
def execDbgaccRead (off : Word) (s : State) : Res :=
  if s.bit Reg.HIF_STRAPS 12 then .next (s.jtag 0xFF 0xFF 0)
  else if dbgBad off then .next (s.dbgDone true 1 off (s.sig.dr.setWidth 32))
  else
    let s := s.readReg 0 off.toNat
    .next (s.dbgDone false 1 off s.hif.lastRead)

/-- DBGACC_WRITE: a manager write of 4 bytes. -/
def execDbgaccWrite (off v : Word) (s : State) : Res :=
  if s.bit Reg.HIF_STRAPS 12 then .next (s.jtag 0xFF 0xFF 0)
  else if dbgBad off then .next (s.dbgDone true 2 off v)
  else (s.dbgDone false 2 off v).hostReg 0 off.toNat 0xF v

/-! ### Debug memory and probes (R429, R430) -/

/-- DBG_MEM_READ: DBG_MEM_CMD.read. -/
def execDbgMemRead (f : Nat) (s : State) : Res := s.hostReg f Reg.DBG_MEM_CMD 0xF 1
/-- DBG_MEM_WRITE: DBG_MEM_CMD.write. -/
def execDbgMemWrite (f : Nat) (s : State) : Res := s.hostReg f Reg.DBG_MEM_CMD 0xF 2
/-- PROBE_ARM: a write of DBG_P_CNT (R429). -/
def execProbeArm (f k : Nat) (be : BitVec 4) (v : Word) (s : State) : Res :=
  if 4 ≤ k then .next s else s.hostReg f (Reg.DBG_P_CNT k) be v

end Sys2Proof.Machine
end

