-- ==== Sys2Proof/Machine/Scalar.lean ====
section
/-! DEFINITION. The scalar instructions of the S profile: ALU, immediates, loads, stores, branches and jumps (R187 to
R190). -/

namespace Sys2Proof.Machine

/-! ### Scalar functions -/

/-- 1 or 0. -/
def boolWord (c : Bool) : Word := if c then 1 else 0
/-- Shift amount: bits 4:0. -/
def shAmt (y : Word) : Nat := y.toNat % 32
def shl (x y : Word) : Word := x <<< shAmt y
def shr (x y : Word) : Word := x >>> shAmt y
/-- Arithmetic right shift of the magnitude (R93, R190). -/
def sraZ (x y : Word) : Word := BitVec.ofInt 32 (shrRtz x.toInt (shAmt y))
/-- Arithmetic right shift toward −infinity (R190). -/
def sraF (x y : Word) : Word := x.sshiftRight (shAmt y)
/-- R190: divisor 0 gives 0xFFFF_FFFF, −2^31 / −1 gives −2^31. -/
def divS (x y : Word) : Word := if y = 0 then 0xFFFFFFFF else BitVec.ofInt 32 (x.toInt.tdiv y.toInt)
def divU (x y : Word) : Word := if y = 0 then 0xFFFFFFFF else x / y
/-- R190: divisor 0 gives s_a, −2^31 rem −1 gives 0. -/
def remS (x y : Word) : Word := if y = 0 then x else BitVec.ofInt 32 (x.toInt.tmod y.toInt)
def remU (x y : Word) : Word := if y = 0 then x else x % y
/-- Leading zeros of a word. -/
def clz32 (x : Word) : Word := if x = 0 then 32 else BitVec.ofNat 32 (31 - Nat.log2 x.toNat)
/-- Set bits of a word. -/
def popc32 (x : Word) : Word := BitVec.ofNat 32 (((List.range 32).filter (fun j => x.getLsbD j)).length)

/-! ### Format A (R188, R190) -/

/-- A scalar ALU instruction: bits 10:8 are reserved. -/
def State.scalarOp (s : State) (k : Nat) (i : Instr) (d a b : BitVec 5) (z : BitVec 3) (op : Word → Word → Word) : Res :=
  s.coreStep k i (fun _ _ => reserved (z != 0)) (fun s x => s.retire k (x.sset d (op (x.sget a) (x.sget b))))

/-- ADD: s_a + s_b (R190). -/
def execAdd (k : Nat) (d a b : BitVec 5) (z : BitVec 3) (s : State) : Res :=
  s.scalarOp k (.add k d a b z) d a b z (fun x y => x + y)

/-- SUB: s_a − s_b (R190). -/
def execSub (k : Nat) (d a b : BitVec 5) (z : BitVec 3) (s : State) : Res :=
  s.scalarOp k (.sub k d a b z) d a b z (fun x y => x - y)

/-- AND: bitwise AND (R190). -/
def execAnd (k : Nat) (d a b : BitVec 5) (z : BitVec 3) (s : State) : Res :=
  s.scalarOp k (.and k d a b z) d a b z (fun x y => x &&& y)

/-- OR: bitwise OR (R190). -/
def execOr (k : Nat) (d a b : BitVec 5) (z : BitVec 3) (s : State) : Res :=
  s.scalarOp k (.or k d a b z) d a b z (fun x y => x ||| y)

/-- XOR: bitwise XOR (R190). -/
def execXor (k : Nat) (d a b : BitVec 5) (z : BitVec 3) (s : State) : Res :=
  s.scalarOp k (.xor k d a b z) d a b z (fun x y => x ^^^ y)

/-- SLL: logical left shift by s_b[4:0] (R190). -/
def execSll (k : Nat) (d a b : BitVec 5) (z : BitVec 3) (s : State) : Res :=
  s.scalarOp k (.sll k d a b z) d a b z (shl)

/-- SRL: logical right shift by s_b[4:0] (R190). -/
def execSrl (k : Nat) (d a b : BitVec 5) (z : BitVec 3) (s : State) : Res :=
  s.scalarOp k (.srl k d a b z) d a b z (shr)

/-- SRA: arithmetic right shift rounding toward zero (R190). -/
def execSra (k : Nat) (d a b : BitVec 5) (z : BitVec 3) (s : State) : Res :=
  s.scalarOp k (.sra k d a b z) d a b z (sraZ)

/-- SRAF: arithmetic right shift rounding toward −infinity (R190). -/
def execSraf (k : Nat) (d a b : BitVec 5) (z : BitVec 3) (s : State) : Res :=
  s.scalarOp k (.sraf k d a b z) d a b z (sraF)

/-- SLT: signed less-than (R190). -/
def execSlt (k : Nat) (d a b : BitVec 5) (z : BitVec 3) (s : State) : Res :=
  s.scalarOp k (.slt k d a b z) d a b z (fun x y => boolWord (x.slt y))

/-- SLTU: unsigned less-than (R190). -/
def execSltu (k : Nat) (d a b : BitVec 5) (z : BitVec 3) (s : State) : Res :=
  s.scalarOp k (.sltu k d a b z) d a b z (fun x y => boolWord (x.ult y))

/-- MUL: low 32 bits of the product (R190). -/
def execMul (k : Nat) (d a b : BitVec 5) (z : BitVec 3) (s : State) : Res :=
  s.scalarOp k (.mul k d a b z) d a b z (fun x y => x * y)

/-- MULH: high 32 bits of the signed product (R190). -/
def execMulh (k : Nat) (d a b : BitVec 5) (z : BitVec 3) (s : State) : Res :=
  s.scalarOp k (.mulh k d a b z) d a b z (fun x y => BitVec.ofInt 32 (x.toInt * y.toInt / 2 ^ 32))

/-- MULHU: high 32 bits of the unsigned product (R190). -/
def execMulhu (k : Nat) (d a b : BitVec 5) (z : BitVec 3) (s : State) : Res :=
  s.scalarOp k (.mulhu k d a b z) d a b z (fun x y => BitVec.ofNat 32 (x.toNat * y.toNat / 2 ^ 32))

/-- DIV: quotient truncated toward zero; divisor 0 gives 0xFFFF_FFFF (R190). -/
def execDiv (k : Nat) (d a b : BitVec 5) (z : BitVec 3) (s : State) : Res :=
  s.scalarOp k (.div k d a b z) d a b z (divS)

/-- DIVU: unsigned quotient; divisor 0 gives 0xFFFF_FFFF (R190). -/
def execDivu (k : Nat) (d a b : BitVec 5) (z : BitVec 3) (s : State) : Res :=
  s.scalarOp k (.divu k d a b z) d a b z (divU)

/-- REM: remainder with the sign of s_a; divisor 0 gives s_a (R190). -/
def execRem (k : Nat) (d a b : BitVec 5) (z : BitVec 3) (s : State) : Res :=
  s.scalarOp k (.rem k d a b z) d a b z (remS)

/-- REMU: unsigned remainder; divisor 0 gives s_a (R190). -/
def execRemu (k : Nat) (d a b : BitVec 5) (z : BitVec 3) (s : State) : Res :=
  s.scalarOp k (.remu k d a b z) d a b z (remU)

/-- MIN: signed minimum (R190). -/
def execMin (k : Nat) (d a b : BitVec 5) (z : BitVec 3) (s : State) : Res :=
  s.scalarOp k (.min k d a b z) d a b z (fun x y => if x.slt y then x else y)

/-- MAX: signed maximum (R190). -/
def execMax (k : Nat) (d a b : BitVec 5) (z : BitVec 3) (s : State) : Res :=
  s.scalarOp k (.max k d a b z) d a b z (fun x y => if x.slt y then y else x)

/-- CLZ: leading zeros of s_a; b must be 0 (R190). -/
def execClz (k : Nat) (d a b : BitVec 5) (z : BitVec 3) (s : State) : Res :=
  s.coreStep k (.clz k d a b z) (fun _ _ => reserved (z != 0 || b != 0)) (fun s x => s.retire k (x.sset d (clz32 (x.sget a))))

/-- POPC: set bits of s_a; b must be 0 (R190). -/
def execPopc (k : Nat) (d a b : BitVec 5) (z : BitVec 3) (s : State) : Res :=
  s.coreStep k (.popc k d a b z) (fun _ _ => reserved (z != 0 || b != 0)) (fun s x => s.retire k (x.sset d (popc32 (x.sget a))))

/-! ### Format I, arithmetic (R189) -/

/-- An instruction of format I that computes from s_a. -/
def State.immOp (s : State) (k : Nat) (i : Instr) (d a : BitVec 5) (op : Word → Word) : Res :=
  s.coreStep k i (fun _ _ => none) (fun s x => s.retire k (x.sset d (op (x.sget a))))

/-- ADDI: s_a + imm (R189). -/
def execAddi (k : Nat) (d a : BitVec 5) (imm : BitVec 16) (s : State) : Res :=
  s.immOp k (.addi k d a imm) d a (fun x => x + simm imm)

/-- ANDI: imm zero-extended (R189). -/
def execAndi (k : Nat) (d a : BitVec 5) (imm : BitVec 16) (s : State) : Res :=
  s.immOp k (.andi k d a imm) d a (fun x => x &&& zimm imm)

/-- ORI: imm zero-extended (R189). -/
def execOri (k : Nat) (d a : BitVec 5) (imm : BitVec 16) (s : State) : Res :=
  s.immOp k (.ori k d a imm) d a (fun x => x ||| zimm imm)

/-- XORI: imm zero-extended (R189). -/
def execXori (k : Nat) (d a : BitVec 5) (imm : BitVec 16) (s : State) : Res :=
  s.immOp k (.xori k d a imm) d a (fun x => x ^^^ zimm imm)

/-- SLTI: 1 when s_a < imm, signed (R189). -/
def execSlti (k : Nat) (d a : BitVec 5) (imm : BitVec 16) (s : State) : Res :=
  s.immOp k (.slti k d a imm) d a (fun x => boolWord (x.slt (simm imm)))

/-- LUI: imm16 << 16; a must be 0 (R189). -/
def execLui (k : Nat) (d a : BitVec 5) (imm : BitVec 16) (s : State) : Res :=
  s.coreStep k (.lui k d a imm) (fun _ _ => reserved (a != 0)) (fun s x => s.retire k (x.sset d (zimm imm <<< 16)))

/-- Shift by amount n, of kind SLL, SRL, SRA or SRAF. -/
def shiftKind (kind : Nat) (x : Word) (n : Nat) : Word :=
  if kind = 0 then x <<< n
  else if kind = 1 then x >>> n
  else if kind = 2 then BitVec.ofInt 32 (shrRtz x.toInt n)
  else x.sshiftRight n

/-- SHI: s_a shifted by imm[4:0], kind imm[15:14]; imm[13:5] must be 0 (R189). -/
def execShi (k : Nat) (d a : BitVec 5) (imm : BitVec 16) (s : State) : Res :=
  s.coreStep k (.shi k d a imm) (fun _ _ => reserved (imm.extractLsb' 5 9 != 0))
    (fun s x => s.retire k (x.sset d (shiftKind (imm.toNat / 0x4000) (x.sget a) (imm.toNat % 32))))

/-! ### Loads and stores (R187, R189) -/

/-- A load of `n` bytes at s_a + imm, extended by `ext`. -/
def State.loadOp (s : State) (k : Nat) (i : Instr) (d a : BitVec 5) (imm : BitVec 16) (n : Nat) (ext : Nat → Word) : Res :=
  s.coreStep k i (fun _ x => accessCause (x.addr a imm) n n) (fun s x =>
    let r := s.coreLoad k (x.addr a imm) n
    r.1.retire k ((r.1.core k).sset d (ext (leNat r.2))))

/-- A store of the low `n` bytes of s_d at s_a + imm. -/
def State.storeOp (s : State) (k : Nat) (i : Instr) (d a : BitVec 5) (imm : BitVec 16) (n : Nat) : Res :=
  s.coreStep k i (fun _ x => accessCause (x.addr a imm) n n) (fun s x =>
    let s := s.coreStore k (x.addr a imm) (leBytes n (x.sget d).toNat)
    s.retire k (s.core k))

/-- LW: s_d = a word at s_a + imm (R189). -/
def execLw (k : Nat) (d a : BitVec 5) (imm : BitVec 16) (s : State) : Res :=
  s.loadOp k (.lw k d a imm) d a imm 4 (BitVec.ofNat 32)

/-- LH: s_d = a sign-extended halfword at s_a + imm (R189). -/
def execLh (k : Nat) (d a : BitVec 5) (imm : BitVec 16) (s : State) : Res :=
  s.loadOp k (.lh k d a imm) d a imm 2 (fun v => (BitVec.ofNat 16 v).signExtend 32)

/-- LHU: s_d = a zero-extended halfword at s_a + imm (R189). -/
def execLhu (k : Nat) (d a : BitVec 5) (imm : BitVec 16) (s : State) : Res :=
  s.loadOp k (.lhu k d a imm) d a imm 2 (BitVec.ofNat 32)

/-- LB: s_d = a sign-extended byte at s_a + imm (R189). -/
def execLb (k : Nat) (d a : BitVec 5) (imm : BitVec 16) (s : State) : Res :=
  s.loadOp k (.lb k d a imm) d a imm 1 (fun v => (BitVec.ofNat 8 v).signExtend 32)

/-- LBU: s_d = a zero-extended byte at s_a + imm (R189). -/
def execLbu (k : Nat) (d a : BitVec 5) (imm : BitVec 16) (s : State) : Res :=
  s.loadOp k (.lbu k d a imm) d a imm 1 (BitVec.ofNat 32)

/-- SW: memory at s_a + imm = the word s_d (R189). -/
def execSw (k : Nat) (d a : BitVec 5) (imm : BitVec 16) (s : State) : Res :=
  s.storeOp k (.sw k d a imm) d a imm 4

/-- SH: memory at s_a + imm = the low halfword of s_d (R189). -/
def execSh (k : Nat) (d a : BitVec 5) (imm : BitVec 16) (s : State) : Res :=
  s.storeOp k (.sh k d a imm) d a imm 2

/-- SB: memory at s_a + imm = the low byte of s_d (R189). -/
def execSb (k : Nat) (d a : BitVec 5) (imm : BitVec 16) (s : State) : Res :=
  s.storeOp k (.sb k d a imm) d a imm 1

/-! ### Branches and jumps (R189) -/

/-- pc + 4 × off, off signed, in the 17-bit pc. -/
def branchTo (pc : BitVec 17) (off : BitVec 16) : BitVec 17 := pc + BitVec.ofInt 17 (4 * off.toInt)

/-- A conditional branch. -/
def State.branchOp (s : State) (k : Nat) (i : Instr) (a b : BitVec 5) (off : BitVec 16) (c : Word → Word → Bool) : Res :=
  s.coreStep k i (fun _ _ => none) (fun s x =>
    s.retireTo k x (if c (x.sget a) (x.sget b) then branchTo x.pc off else x.pc + 4))

/-- BEQ: branch when s_a and s_b are equal (R189). -/
def execBeq (k : Nat) (a b : BitVec 5) (off : BitVec 16) (s : State) : Res :=
  s.branchOp k (.beq k a b off) a b off (fun x y => x == y)

/-- BNE: branch when s_a and s_b are not equal (R189). -/
def execBne (k : Nat) (a b : BitVec 5) (off : BitVec 16) (s : State) : Res :=
  s.branchOp k (.bne k a b off) a b off (fun x y => x != y)

/-- BLT: branch when s_a and s_b are less, signed (R189). -/
def execBlt (k : Nat) (a b : BitVec 5) (off : BitVec 16) (s : State) : Res :=
  s.branchOp k (.blt k a b off) a b off (fun x y => x.slt y)

/-- BGE: branch when s_a and s_b are greater or equal, signed (R189). -/
def execBge (k : Nat) (a b : BitVec 5) (off : BitVec 16) (s : State) : Res :=
  s.branchOp k (.bge k a b off) a b off (fun x y => !x.slt y)

/-- BLTU: branch when s_a and s_b are less, unsigned (R189). -/
def execBltu (k : Nat) (a b : BitVec 5) (off : BitVec 16) (s : State) : Res :=
  s.branchOp k (.bltu k a b off) a b off (fun x y => x.ult y)

/-- BGEU: branch when s_a and s_b are greater or equal, unsigned (R189). -/
def execBgeu (k : Nat) (a b : BitVec 5) (off : BitVec 16) (s : State) : Res :=
  s.branchOp k (.bgeu k a b off) a b off (fun x y => !x.ult y)

/-- The link value pc + 4. -/
def Core.link (x : Core) : Word := BitVec.ofNat 32 (x.pc.toNat + 4)

/-- Target of JAL, as an integer. -/
def jalTarget (pc : BitVec 17) (off : BitVec 21) : Int := pc.toNat + 4 * off.toInt

/-- JAL: s_d = pc + 4; pc += 4 × off21 (R189). DEDUCED: a target beyond local SRAM is cause 4 (log 20). -/
def execJal (k : Nat) (d : BitVec 5) (off : BitVec 21) (s : State) : Res :=
  s.coreStep k (.jal k d off) (fun _ x => if jalTarget x.pc off < 0 ∨ 0x20000 ≤ jalTarget x.pc off then some 4 else none)
    (fun s x => s.retireTo k (x.sset d x.link) (BitVec.ofInt 17 (jalTarget x.pc off)))

/-- Target of JALR: s_a + imm with bits 1:0 cleared. -/
def Core.jalrTarget (x : Core) (a : BitVec 5) (imm : BitVec 16) : Nat := x.addr a imm / 4 * 4

/-- JALR: s_d = pc + 4; pc = s_a + imm with bits 1:0 cleared (R189). DEDUCED: beyond local SRAM is cause 4 (log 20). -/
def execJalr (k : Nat) (d a : BitVec 5) (imm : BitVec 16) (s : State) : Res :=
  s.coreStep k (.jalr k d a imm) (fun _ x => if 0x20000 ≤ x.jalrTarget a imm then some 4 else none)
    (fun s x => s.retireTo k (x.sset d x.link) (BitVec.ofNat 17 (x.jalrTarget a imm)))

end Sys2Proof.Machine
end

