-- ==== Sys2Proof/Machine/Vector.lean ====
section
/-! DEFINITION. The vector and conversion instructions of the S profile (R189, R191 to R194). -/

namespace Sys2Proof.Machine

/-! ### Integer lane functions (R192) -/

def vShl (x y : Word) : Word := x <<< (y.toNat % 32)
def vShr (x y : Word) : Word := x >>> (y.toNat % 32)
/-- Right shift rounding toward zero. -/
def vSra (x y : Word) : Word := BitVec.ofInt 32 (shrRtz x.toInt (y.toNat % 32))
/-- Magnitude; −2^31 gives 2^31 − 1. -/
def vAbsW (x : Word) : Word := sat32 x.toInt.natAbs

/-! ### FP32 lane functions (R192) -/

def fAdd (x y : Word) : Word := toF32 (addVal (f32 x) (f32 y))
def fSub (x y : Word) : Word := toF32 (subVal (f32 x) (f32 y))
def fMul (x y : Word) : Word := toF32 (mulVal (f32 x) (f32 y))
/-- c + x × y, rounded once. -/
def fFma (c x y : Word) : Word := toF32 (addVal (f32 c) (mulVal (f32 x) (f32 y)))
/-- x × 2^y, y as INT32. -/
def fScl (x y : Word) : Word := toF32 (scaleVal y.toInt (f32 x))
def fAbs (x : Word) : Word := if isNan x then nan32 else x &&& 0x7FFFFFFF
/-- The quotient, or the free value `u` where the manual states none (a zero divisor, two infinities). -/
def fDiv (u : Word) (x y : Word) : Word := match divVal (f32 x) (f32 y) with | some v => toF32 v | none => u
def fSqrt (x : Word) : Word := toF32 (sqrtVal (f32 x))
def fLt (x y : Word) : Bool := ltVal (f32 x) (f32 y)
def fEq (x y : Word) : Bool := eqVal (f32 x) (f32 y)
def fLe (x y : Word) : Bool := fLt x y || fEq x y
/-- The value as the unit produces it: a NaN becomes canonical (R90). -/
def canon (x : Word) : Word := if isNan x then nan32 else x
/-- The lesser (`mx` false) or the greater of two values; the other operand when one is NaN (R192). Between two zeros
of opposite sign the manual chooses none: a bit of the free value `u` does. -/
def fPick (mx : Bool) (u x y : Word) : Word :=
  if isNan x then canon y
  else if isNan y then canon x
  else if fLt x y then (if mx then y else x)
  else if fLt y x then (if mx then x else y)
  else if x = y then x
  else if u.getLsbD 0 then x else y

/-! ### The shape of format V (R188, R191) -/

/-- With bs = 0, b[4] must be 0 (R188). -/
def badB (b : BitVec 5) (bs : BitVec 1) : Bool := bs == 0 && b.getLsbD 4

/-- A vector operation: lane j of the result from the old lane of vd, the lane of va and the lane of B. -/
def State.vecOp (s : State) (k : Nat) (i : Instr) (vd va : BitVec 4) (b : BitVec 5) (bs : BitVec 1) (p : BitVec 3)
    (g : Word → Word → Word → Word) : Res :=
  s.coreStep k i (fun _ _ => reserved (badB b bs)) (fun s x =>
    let o := x.vget vd
    let u := x.vget va
    let w := x.operandB b bs
    s.retire k (x.vset vd (maskLanes (x.pget p) (ofLanes (fun j => g (lane o j) (lane u j) (lane w j))) o)))

/-- The free value of lane j of an instruction: one is set aside for each lane. -/
def State.laneFree (s : State) (j : Nat) : Word := (Config.freeValue (s.free + j)).setWidth 32

/-- Move past the free values of 16 lanes. -/
def State.skipFree (s : State) : State := { s with free := s.free + 16 }

/-- A vector operation whose result the manual leaves open for some operands: lane j has a free value. -/
def State.vecOpFree (s : State) (k : Nat) (i : Instr) (vd va : BitVec 4) (b : BitVec 5) (bs : BitVec 1) (p : BitVec 3)
    (g : Word → Word → Word → Word) : Res :=
  s.coreStep k i (fun _ _ => reserved (badB b bs)) (fun s x =>
    let o := x.vget vd
    let u := x.vget va
    let w := x.operandB b bs
    s.skipFree.retire k
      (x.vset vd (maskLanes (x.pget p) (ofLanes (fun j => g (s.laneFree j) (lane u j) (lane w j))) o)))

/-- A compare: it writes predicate vd[2:0], vd[3] = 0, with 0 in the lanes that p disables (R191). -/
def State.vecCmp (s : State) (k : Nat) (i : Instr) (vd va : BitVec 4) (b : BitVec 5) (bs : BitVec 1) (p : BitVec 3)
    (g : Word → Word → Bool) : Res :=
  s.coreStep k i (fun _ _ => reserved (badB b bs || vd.getLsbD 3)) (fun s x =>
    let u := x.vget va
    let w := x.operandB b bs
    let m := x.pget p
    s.retire k (x.pset (vd.extractLsb' 0 3) (ofBits (fun j => m.getLsbD j && g (lane u j) (lane w j)))))

/-- The lanes of a vector that a predicate enables, in ascending order. -/
def enabledLanes (m : BitVec 16) (v : BitVec 512) : List Word :=
  ((List.range 16).filter (fun j => m.getLsbD j)).map (lane v)

/-- The vector with lane 0 replaced (R191). -/
def setLane0 (v : BitVec 512) (w : Word) : BitVec 512 := ofLanes (fun j => if j = 0 then w else lane v j)

/-- A reduction over the enabled lanes of va: it writes lane 0 of vd (R191). -/
def State.vecRed (s : State) (k : Nat) (i : Instr) (vd va : BitVec 4) (b : BitVec 5) (bs : BitVec 1) (p : BitVec 3)
    (g : Word → List Word → Word) : Res :=
  s.coreStep k i (fun _ _ => reserved (badB b bs)) (fun s x =>
    s.skipFree.retire k
      (x.vset vd (setLane0 (x.vget vd) (g (s.laneFree 0) (enabledLanes (x.pget p) (x.vget va))))))

/-- Integer sum of the lanes, saturated (R192). -/
def redSum (xs : List Word) : Word := sat32 (xs.foldl (fun t x => t + x.toInt) 0)
/-- Greatest or least lane; no lane leaves the value open: the free value `u`. -/
def redInt (mx : Bool) (u : Word) : List Word → Word
  | [] => u
  | x :: xs => xs.foldl (fun t y => if mx then (if t.slt y then y else t) else (if y.slt t then y else t)) x
/-- FP32 sum in ascending lane order, each addition rounded (R192); +0 for no lane. -/
def redFSum : List Word → Word
  | [] => 0
  | x :: xs => xs.foldl fAdd (canon x)
/-- Greatest or least value, NaN lanes skipped; +0 when no lane remains (R192). -/
def redF (mx : Bool) (u : Word) (xs : List Word) : Word :=
  match xs.filter (fun x => !isNan x) with
  | [] => 0
  | y :: ys => ys.foldl (fPick mx u) y

/-! ### The functions of op 0x18 (R192) -/

/-- VADD: va + B, saturating (R192). -/
def execVadd (k : Nat) (vd va : BitVec 4) (b : BitVec 5) (bs : BitVec 1) (p : BitVec 3) (s : State) : Res :=
  s.vecOp k (.vadd k vd va b bs p) vd va b bs p (fun _ x y => sat32 (x.toInt + y.toInt))

/-- VSUB: va − B, saturating (R192). -/
def execVsub (k : Nat) (vd va : BitVec 4) (b : BitVec 5) (bs : BitVec 1) (p : BitVec 3) (s : State) : Res :=
  s.vecOp k (.vsub k vd va b bs p) vd va b bs p (fun _ x y => sat32 (x.toInt - y.toInt))

/-- VMUL: low 32 bits of va × B (R192). -/
def execVmul (k : Nat) (vd va : BitVec 4) (b : BitVec 5) (bs : BitVec 1) (p : BitVec 3) (s : State) : Res :=
  s.vecOp k (.vmul k vd va b bs p) vd va b bs p (fun _ x y => x * y)

/-- VMIN: signed minimum (R192). -/
def execVmin (k : Nat) (vd va : BitVec 4) (b : BitVec 5) (bs : BitVec 1) (p : BitVec 3) (s : State) : Res :=
  s.vecOp k (.vmin k vd va b bs p) vd va b bs p (fun _ x y => if x.slt y then x else y)

/-- VMAX: signed maximum (R192). -/
def execVmax (k : Nat) (vd va : BitVec 4) (b : BitVec 5) (bs : BitVec 1) (p : BitVec 3) (s : State) : Res :=
  s.vecOp k (.vmax k vd va b bs p) vd va b bs p (fun _ x y => if x.slt y then y else x)

/-- VAND: bitwise AND (R192). -/
def execVand (k : Nat) (vd va : BitVec 4) (b : BitVec 5) (bs : BitVec 1) (p : BitVec 3) (s : State) : Res :=
  s.vecOp k (.vand k vd va b bs p) vd va b bs p (fun _ x y => x &&& y)

/-- VOR: bitwise OR (R192). -/
def execVor (k : Nat) (vd va : BitVec 4) (b : BitVec 5) (bs : BitVec 1) (p : BitVec 3) (s : State) : Res :=
  s.vecOp k (.vor k vd va b bs p) vd va b bs p (fun _ x y => x ||| y)

/-- VXOR: bitwise XOR (R192). -/
def execVxor (k : Nat) (vd va : BitVec 4) (b : BitVec 5) (bs : BitVec 1) (p : BitVec 3) (s : State) : Res :=
  s.vecOp k (.vxor k vd va b bs p) vd va b bs p (fun _ x y => x ^^^ y)

/-- VSLL: shift left by B[4:0] (R192). -/
def execVsll (k : Nat) (vd va : BitVec 4) (b : BitVec 5) (bs : BitVec 1) (p : BitVec 3) (s : State) : Res :=
  s.vecOp k (.vsll k vd va b bs p) vd va b bs p (fun _ x y => vShl x y)

/-- VSRL: logical shift right by B[4:0] (R192). -/
def execVsrl (k : Nat) (vd va : BitVec 4) (b : BitVec 5) (bs : BitVec 1) (p : BitVec 3) (s : State) : Res :=
  s.vecOp k (.vsrl k vd va b bs p) vd va b bs p (fun _ x y => vShr x y)

/-- VSRA: shift right by B[4:0], rounding toward zero (R192). -/
def execVsra (k : Nat) (vd va : BitVec 4) (b : BitVec 5) (bs : BitVec 1) (p : BitVec 3) (s : State) : Res :=
  s.vecOp k (.vsra k vd va b bs p) vd va b bs p (fun _ x y => vSra x y)

/-- VABS: magnitude (R192). -/
def execVabs (k : Nat) (vd va : BitVec 4) (b : BitVec 5) (bs : BitVec 1) (p : BitVec 3) (s : State) : Res :=
  s.vecOp k (.vabs k vd va b bs p) vd va b bs p (fun _ x _ => vAbsW x)

/-- VFADD: FP32 sum (R192). -/
def execVfadd (k : Nat) (vd va : BitVec 4) (b : BitVec 5) (bs : BitVec 1) (p : BitVec 3) (s : State) : Res :=
  s.vecOp k (.vfadd k vd va b bs p) vd va b bs p (fun _ x y => fAdd x y)

/-- VFSUB: FP32 difference (R192). -/
def execVfsub (k : Nat) (vd va : BitVec 4) (b : BitVec 5) (bs : BitVec 1) (p : BitVec 3) (s : State) : Res :=
  s.vecOp k (.vfsub k vd va b bs p) vd va b bs p (fun _ x y => fSub x y)

/-- VFMUL: FP32 product (R192). -/
def execVfmul (k : Nat) (vd va : BitVec 4) (b : BitVec 5) (bs : BitVec 1) (p : BitVec 3) (s : State) : Res :=
  s.vecOp k (.vfmul k vd va b bs p) vd va b bs p (fun _ x y => fMul x y)

/-- VFMA: vd + va × B, rounded once (R192). -/
def execVfma (k : Nat) (vd va : BitVec 4) (b : BitVec 5) (bs : BitVec 1) (p : BitVec 3) (s : State) : Res :=
  s.vecOp k (.vfma k vd va b bs p) vd va b bs p (fun c x y => fFma c x y)

/-- VFMIN: FP32 minimum (R192). -/
def execVfmin (k : Nat) (vd va : BitVec 4) (b : BitVec 5) (bs : BitVec 1) (p : BitVec 3) (s : State) : Res :=
  s.vecOpFree k (.vfmin k vd va b bs p) vd va b bs p (fun u x y => fPick false u x y)

/-- VFMAX: FP32 maximum (R192). -/
def execVfmax (k : Nat) (vd va : BitVec 4) (b : BitVec 5) (bs : BitVec 1) (p : BitVec 3) (s : State) : Res :=
  s.vecOpFree k (.vfmax k vd va b bs p) vd va b bs p (fun u x y => fPick true u x y)

/-- VFDIV: va / B (R192). -/
def execVfdiv (k : Nat) (vd va : BitVec 4) (b : BitVec 5) (bs : BitVec 1) (p : BitVec 3) (s : State) : Res :=
  s.vecOpFree k (.vfdiv k vd va b bs p) vd va b bs p (fun u x y => fDiv u x y)

/-- VFSQRT: square root of va (R192). -/
def execVfsqrt (k : Nat) (vd va : BitVec 4) (b : BitVec 5) (bs : BitVec 1) (p : BitVec 3) (s : State) : Res :=
  s.vecOp k (.vfsqrt k vd va b bs p) vd va b bs p (fun _ x _ => fSqrt x)

/-- VFSCL: va × 2^B (R192). -/
def execVfscl (k : Nat) (vd va : BitVec 4) (b : BitVec 5) (bs : BitVec 1) (p : BitVec 3) (s : State) : Res :=
  s.vecOp k (.vfscl k vd va b bs p) vd va b bs p (fun _ x y => fScl x y)

/-- VFABS: sign cleared (R192). -/
def execVfabs (k : Nat) (vd va : BitVec 4) (b : BitVec 5) (bs : BitVec 1) (p : BitVec 3) (s : State) : Res :=
  s.vecOp k (.vfabs k vd va b bs p) vd va b bs p (fun _ x _ => fAbs x)

/-- VCMPEQ: integer equal, into a predicate (R192). -/
def execVcmpeq (k : Nat) (vd va : BitVec 4) (b : BitVec 5) (bs : BitVec 1) (p : BitVec 3) (s : State) : Res :=
  s.vecCmp k (.vcmpeq k vd va b bs p) vd va b bs p (fun x y => x == y)

/-- VCMPLT: signed less, into a predicate (R192). -/
def execVcmplt (k : Nat) (vd va : BitVec 4) (b : BitVec 5) (bs : BitVec 1) (p : BitVec 3) (s : State) : Res :=
  s.vecCmp k (.vcmplt k vd va b bs p) vd va b bs p (fun x y => x.slt y)

/-- VCMPLE: signed less or equal, into a predicate (R192). -/
def execVcmple (k : Nat) (vd va : BitVec 4) (b : BitVec 5) (bs : BitVec 1) (p : BitVec 3) (s : State) : Res :=
  s.vecCmp k (.vcmple k vd va b bs p) vd va b bs p (fun x y => !y.slt x)

/-- VFCMPEQ: FP32 equal; false with a NaN, into a predicate (R192). -/
def execVfcmpeq (k : Nat) (vd va : BitVec 4) (b : BitVec 5) (bs : BitVec 1) (p : BitVec 3) (s : State) : Res :=
  s.vecCmp k (.vfcmpeq k vd va b bs p) vd va b bs p (fEq)

/-- VFCMPLT: FP32 less; false with a NaN, into a predicate (R192). -/
def execVfcmplt (k : Nat) (vd va : BitVec 4) (b : BitVec 5) (bs : BitVec 1) (p : BitVec 3) (s : State) : Res :=
  s.vecCmp k (.vfcmplt k vd va b bs p) vd va b bs p (fLt)

/-- VFCMPLE: FP32 less or equal; false with a NaN, into a predicate (R192). -/
def execVfcmple (k : Nat) (vd va : BitVec 4) (b : BitVec 5) (bs : BitVec 1) (p : BitVec 3) (s : State) : Res :=
  s.vecCmp k (.vfcmple k vd va b bs p) vd va b bs p (fLe)

/-- VSEL: p ? va : B, written to every lane (R192). -/
def execVsel (k : Nat) (vd va : BitVec 4) (b : BitVec 5) (bs : BitVec 1) (p : BitVec 3) (s : State) : Res :=
  s.coreStep k (.vsel k vd va b bs p) (fun _ _ => reserved (badB b bs)) (fun s x =>
    s.retire k (x.vset vd (maskLanes (x.pget p) (x.vget va) (x.operandB b bs))))

/-- VBCST: s_b into the enabled lanes; bs must be 1 and va must be 0 (R192). -/
def execVbcst (k : Nat) (vd va : BitVec 4) (b : BitVec 5) (bs : BitVec 1) (p : BitVec 3) (s : State) : Res :=
  s.coreStep k (.vbcst k vd va b bs p) (fun _ _ => reserved (bs != 1 || va != 0)) (fun s x =>
    s.retire k (x.vset vd (maskLanes (x.pget p) (ofLanes (fun _ => x.sget b)) (x.vget vd))))

/-- VPMASK: predicate vd[2:0] = s_b[15:0]; bs must be 1 (R192). -/
def execVpmask (k : Nat) (vd va : BitVec 4) (b : BitVec 5) (bs : BitVec 1) (p : BitVec 3) (s : State) : Res :=
  s.coreStep k (.vpmask k vd va b bs p) (fun _ _ => reserved (bs != 1 || vd.getLsbD 3)) (fun s x =>
    s.retire k (x.pset (vd.extractLsb' 0 3) ((x.sget b).extractLsb' 0 16)))

/-- VRSUM: integer sum of the enabled lanes, saturated (R192). -/
def execVrsum (k : Nat) (vd va : BitVec 4) (b : BitVec 5) (bs : BitVec 1) (p : BitVec 3) (s : State) : Res :=
  s.vecRed k (.vrsum k vd va b bs p) vd va b bs p (fun _ xs => redSum xs)

/-- VRMAX: greatest enabled lane (R192). -/
def execVrmax (k : Nat) (vd va : BitVec 4) (b : BitVec 5) (bs : BitVec 1) (p : BitVec 3) (s : State) : Res :=
  s.vecRed k (.vrmax k vd va b bs p) vd va b bs p (fun u xs => redInt true u xs)

/-- VRMIN: least enabled lane (R192). -/
def execVrmin (k : Nat) (vd va : BitVec 4) (b : BitVec 5) (bs : BitVec 1) (p : BitVec 3) (s : State) : Res :=
  s.vecRed k (.vrmin k vd va b bs p) vd va b bs p (fun u xs => redInt false u xs)

/-- VFRSUM: FP32 sum in lane order (R192). -/
def execVfrsum (k : Nat) (vd va : BitVec 4) (b : BitVec 5) (bs : BitVec 1) (p : BitVec 3) (s : State) : Res :=
  s.vecRed k (.vfrsum k vd va b bs p) vd va b bs p (fun _ xs => redFSum xs)

/-- VFRMAX: greatest FP32 lane, NaN skipped (R192). -/
def execVfrmax (k : Nat) (vd va : BitVec 4) (b : BitVec 5) (bs : BitVec 1) (p : BitVec 3) (s : State) : Res :=
  s.vecRed k (.vfrmax k vd va b bs p) vd va b bs p (fun u xs => redF true u xs)

/-- VFRMIN: least FP32 lane, NaN skipped (R192). -/
def execVfrmin (k : Nat) (vd va : BitVec 4) (b : BitVec 5) (bs : BitVec 1) (p : BitVec 3) (s : State) : Res :=
  s.vecRed k (.vfrmin k vd va b bs p) vd va b bs p (fun u xs => redF false u xs)

/-- VPERM: lane i = va lane (B lane i mod 16) (R192). -/
def execVperm (k : Nat) (vd va : BitVec 4) (b : BitVec 5) (bs : BitVec 1) (p : BitVec 3) (s : State) : Res :=
  s.coreStep k (.vperm k vd va b bs p) (fun _ _ => reserved (badB b bs)) (fun s x =>
    let u := x.vget va
    let w := x.operandB b bs
    s.retire k (x.vset vd (maskLanes (x.pget p) (ofLanes (fun j => lane u ((lane w j).toNat % 16))) (x.vget vd))))

/-- VROT: lane i = va lane ((i + s_b) mod 16); bs must be 1 (R192). -/
def execVrot (k : Nat) (vd va : BitVec 4) (b : BitVec 5) (bs : BitVec 1) (p : BitVec 3) (s : State) : Res :=
  s.coreStep k (.vrot k vd va b bs p) (fun _ _ => reserved (bs != 1)) (fun s x =>
    let u := x.vget va
    let n := (x.sget b).toNat % 16
    s.retire k (x.vset vd (maskLanes (x.pget p) (ofLanes (fun j => lane u ((j + n) % 16))) (x.vget vd))))

/-! ### Vector loads and stores (R189, R194) -/

/-- VLD: v(d[4:1]) = 64 bytes at s_a + imm; d[0] must be 0, 4-byte aligned (R187, R189). -/
def execVld (k : Nat) (d a : BitVec 5) (imm : BitVec 16) (s : State) : Res :=
  s.coreStep k (.vld k d a imm) (fun _ x => orCause (reserved (d.getLsbD 0)) (accessCause (x.addr a imm) 64 4)) (fun s x =>
    let r := s.coreLoad k (x.addr a imm) 64
    r.1.retire k ((r.1.core k).vset (vOfD d) (BitVec.ofNat 512 (leNat r.2))))

/-- VST: 64 bytes at s_a + imm = v(d[4:1]) (R187, R189). -/
def execVst (k : Nat) (d a : BitVec 5) (imm : BitVec 16) (s : State) : Res :=
  s.coreStep k (.vst k d a imm) (fun _ x => orCause (reserved (d.getLsbD 0)) (accessCause (x.addr a imm) 64 4)) (fun s x =>
    let s := s.coreStore k (x.addr a imm) (leBytes 64 (x.vget (vOfD d)).toNat)
    s.retire k (s.core k))

/-- The format that VLDE or VSTE names, and its checks: a listed format of at most 16 bits (cause 1; INT32 and FP32
use VLD and VST), other bits of imm 0 (cause 2), inside local SRAM (R187, R194). -/
def elemCause (x : Core) (a : BitVec 5) (imm : BitVec 16) : Option Nat :=
  let c := imm.toNat % 32
  orCause (if fmtListed c && decide (fmtStored c ≤ 16) then none else some 1)
    (orCause (reserved (imm.toNat / 32 != 0)) (accessCause (x.sget a).toNat (2 * fmtStored c) 1))

/-- VLDE: 16 elements of format imm[4:0] at s_a, zero-extended into lanes 0 to 15 (R194); the upper bits of a U10
or U12 container are ignored (R87). -/
def execVlde (k : Nat) (d a : BitVec 5) (imm : BitVec 16) (s : State) : Res :=
  s.coreStep k (.vlde k d a imm) (fun _ x => elemCause x a imm) (fun s x =>
    let w := fmtStored (imm.toNat % 32)
    let r := s.coreLoad k (x.sget a).toNat (2 * w)
    let n := leNat r.2
    r.1.retire k ((r.1.core k).vset (vOfD d) (ofLanes (fun j =>
      BitVec.ofNat 32 (n / 2 ^ (w * j) % 2 ^ fmtWidth (imm.toNat % 32))))))

/-- VSTE: the low bits of lanes 0 to 15 as 16 elements at s_a (R194); the upper bits of a U10 or U12 container
are written 0 (R87). -/
def execVste (k : Nat) (d a : BitVec 5) (imm : BitVec 16) (s : State) : Res :=
  s.coreStep k (.vste k d a imm) (fun _ x => elemCause x a imm) (fun s x =>
    let w := fmtStored (imm.toNat % 32)
    let v := x.vget (vOfD d)
    let n := (List.range 16).foldl (fun t j => t + (lane v j).toNat % 2 ^ fmtWidth (imm.toNat % 32) * 2 ^ (w * j)) 0
    let s := s.coreStore k (x.sget a).toNat (leBytes (2 * w) n)
    s.retire k (s.core k))

/-! ### Conversions (R193) -/

/-- The formats of a conversion are listed, and neither CB4 nor GS (R193); else cause 1. -/
def convCause (src dst : BitVec 5) : Option Nat :=
  if fmtConv src.toNat && fmtConv dst.toNat then none else some 1

/-- VCVT: each enabled lane of va converted from src to dst, RTZ or SR; 16 draws with sr = 1, predicated lanes
included (R97, R193). -/
def execVcvt (k : Nat) (vd va : BitVec 4) (src dst : BitVec 5) (sr : BitVec 1) (p : BitVec 3) (z : BitVec 4)
    (s : State) : Res :=
  s.coreStep k (.vcvt k vd va src dst sr p z) (fun _ _ => orCause (convCause src dst) (reserved (z != 0))) (fun s x =>
    let u := x.vget va
    let ds := if sr = 1 then drawMany 16 x.lfsr else (x.lfsr, [])
    let g (j : Nat) : Word := convElem src.toNat dst.toNat x.zp.toNat (lane u j) (ds.2[j]?)
    let y := { x with lfsr := ds.1 }
    s.retire k (y.vset vd (maskLanes (x.pget p) (ofLanes g) (x.vget vd))))

/-- SCVT: s_a converted into s_d; one draw with sr = 1 (R97, R193). -/
def execScvt (k : Nat) (d a src dst : BitVec 5) (sr : BitVec 1) (z : BitVec 5) (s : State) : Res :=
  s.coreStep k (.scvt k d a src dst sr z) (fun _ _ => orCause (convCause src dst) (reserved (z != 0))) (fun s x =>
    let ds := if sr = 1 then drawMany 1 x.lfsr else (x.lfsr, [])
    let y := { x with lfsr := ds.1 }
    s.retire k (y.sset d (convElem src.toNat dst.toNat x.zp.toNat (x.sget a) (ds.2[0]?))))

/-- VGET: s_d = lane imm[3:0] of v(a); a ≤ 15 and imm[15:4] must be 0 (R189). -/
def execVget (k : Nat) (d a : BitVec 5) (imm : BitVec 16) (s : State) : Res :=
  s.coreStep k (.vget k d a imm) (fun _ _ => reserved (a.getLsbD 4 || imm.toNat / 16 != 0)) (fun s x =>
    s.retire k (x.sset d (lane (x.vget (a.extractLsb' 0 4)) (imm.toNat % 16))))

end Sys2Proof.Machine
end

