-- ==== Sys2Proof/Machine/Dispatch.lean ====
section
/-! DEFINITION. The one dispatch from commands to their meanings. -/

namespace Sys2Proof.Machine

def exec (i : Instr) (s : State) : Host.Outcome State Fault Refusal :=
  match i with
  | .cadenceInEdge e => Sys2Proof.Machine.execCadenceInEdge e s
  | .cadenceInPulseEnd e => Sys2Proof.Machine.execCadenceInPulseEnd e s
  | .sheetWidthExpiry t => Sys2Proof.Machine.execSheetWidthExpiry t s
  | .tick t => Sys2Proof.Machine.execTick t s
  | .stageLineFinish n sid t => Sys2Proof.Machine.execStageLineFinish n sid t s
  | .cadPeriodWrite f be v => Sys2Proof.Machine.execCadPeriodWrite f be v s
  | .srcSwitch f be v t => Sys2Proof.Machine.execSrcSwitch f be v t s
  | .cadStep f sheet t => Sys2Proof.Machine.execCadStep f sheet t s
  | .hostMark f => Sys2Proof.Machine.execHostMark f s
  | .cadClrMax f => Sys2Proof.Machine.execCadClrMax f s
  | .emptyLimitWrite f n be v => Sys2Proof.Machine.execEmptyLimitWrite f n be v s
  | .tickTimeout t => Sys2Proof.Machine.execTickTimeout t s
  | .blockLockLost j => Sys2Proof.Machine.execBlockLockLost j s
  | .highBer j => Sys2Proof.Machine.execHighBer j s
  | .blockLockGained j => Sys2Proof.Machine.execBlockLockGained j s
  | .invalidBlock j => Sys2Proof.Machine.execInvalidBlock j s
  | .vlfFrame fr t => Sys2Proof.Machine.execVlfFrame fr t s
  | .inlLaneEnWrite f be v => Sys2Proof.Machine.execInlLaneEnWrite f be v s
  | .resync f n => Sys2Proof.Machine.execResync f n s
  | .inlClr f => Sys2Proof.Machine.execInlClr f s
  | .streamMapWrite f k r be v => Sys2Proof.Machine.execStreamMapWrite f k r be v s
  | .loadw e => Sys2Proof.Machine.execLoadw e s
  | .tapsum e => Sys2Proof.Machine.execTapsum e s
  | .matmul e => Sys2Proof.Machine.execMatmul e s
  | .dwdiag e => Sys2Proof.Machine.execDwdiag e s
  | .chain e => Sys2Proof.Machine.execChain e s
  | .lutcol e => Sys2Proof.Machine.execLutcol e s
  | .bwd e => Sys2Proof.Machine.execBwd e s
  | .scrubw e => Sys2Proof.Machine.execScrubw e s
  | .epilogue e => Sys2Proof.Machine.execEpilogue e s
  | .fillDone e => Sys2Proof.Machine.execFillDone e s
  | .engineScrub u hits => Sys2Proof.Machine.execEngineScrub u hits s
  | .tileScrub c r hits => Sys2Proof.Machine.execTileScrub c r hits s
  | .coreScrub u hits => Sys2Proof.Machine.execCoreScrub u hits s
  | .bulkScrub u hits => Sys2Proof.Machine.execBulkScrub u hits s
  | .bundle c r w pe ro => Sys2Proof.Machine.execBundle c r w pe ro s
  | .drainComplete n sid => Sys2Proof.Machine.execDrainComplete n sid s
  | .configWriteDone n sid => Sys2Proof.Machine.execConfigWriteDone n sid s
  | .stageReleaseStep n sid => Sys2Proof.Machine.execStageReleaseStep n sid s
  | .columnTakeover c => Sys2Proof.Machine.execColumnTakeover c s
  | .takeoverDone c => Sys2Proof.Machine.execTakeoverDone c s
  | .add k d a b z => Sys2Proof.Machine.execAdd k d a b z s
  | .sub k d a b z => Sys2Proof.Machine.execSub k d a b z s
  | .and k d a b z => Sys2Proof.Machine.execAnd k d a b z s
  | .or k d a b z => Sys2Proof.Machine.execOr k d a b z s
  | .xor k d a b z => Sys2Proof.Machine.execXor k d a b z s
  | .sll k d a b z => Sys2Proof.Machine.execSll k d a b z s
  | .srl k d a b z => Sys2Proof.Machine.execSrl k d a b z s
  | .sra k d a b z => Sys2Proof.Machine.execSra k d a b z s
  | .sraf k d a b z => Sys2Proof.Machine.execSraf k d a b z s
  | .slt k d a b z => Sys2Proof.Machine.execSlt k d a b z s
  | .sltu k d a b z => Sys2Proof.Machine.execSltu k d a b z s
  | .mul k d a b z => Sys2Proof.Machine.execMul k d a b z s
  | .mulh k d a b z => Sys2Proof.Machine.execMulh k d a b z s
  | .mulhu k d a b z => Sys2Proof.Machine.execMulhu k d a b z s
  | .div k d a b z => Sys2Proof.Machine.execDiv k d a b z s
  | .divu k d a b z => Sys2Proof.Machine.execDivu k d a b z s
  | .rem k d a b z => Sys2Proof.Machine.execRem k d a b z s
  | .remu k d a b z => Sys2Proof.Machine.execRemu k d a b z s
  | .min k d a b z => Sys2Proof.Machine.execMin k d a b z s
  | .max k d a b z => Sys2Proof.Machine.execMax k d a b z s
  | .clz k d a b z => Sys2Proof.Machine.execClz k d a b z s
  | .popc k d a b z => Sys2Proof.Machine.execPopc k d a b z s
  | .addi k d a imm => Sys2Proof.Machine.execAddi k d a imm s
  | .andi k d a imm => Sys2Proof.Machine.execAndi k d a imm s
  | .ori k d a imm => Sys2Proof.Machine.execOri k d a imm s
  | .xori k d a imm => Sys2Proof.Machine.execXori k d a imm s
  | .slti k d a imm => Sys2Proof.Machine.execSlti k d a imm s
  | .lui k d a imm => Sys2Proof.Machine.execLui k d a imm s
  | .lw k d a imm => Sys2Proof.Machine.execLw k d a imm s
  | .lh k d a imm => Sys2Proof.Machine.execLh k d a imm s
  | .lhu k d a imm => Sys2Proof.Machine.execLhu k d a imm s
  | .lb k d a imm => Sys2Proof.Machine.execLb k d a imm s
  | .lbu k d a imm => Sys2Proof.Machine.execLbu k d a imm s
  | .sw k d a imm => Sys2Proof.Machine.execSw k d a imm s
  | .sh k d a imm => Sys2Proof.Machine.execSh k d a imm s
  | .sb k d a imm => Sys2Proof.Machine.execSb k d a imm s
  | .beq k a b off => Sys2Proof.Machine.execBeq k a b off s
  | .bne k a b off => Sys2Proof.Machine.execBne k a b off s
  | .blt k a b off => Sys2Proof.Machine.execBlt k a b off s
  | .bge k a b off => Sys2Proof.Machine.execBge k a b off s
  | .bltu k a b off => Sys2Proof.Machine.execBltu k a b off s
  | .bgeu k a b off => Sys2Proof.Machine.execBgeu k a b off s
  | .jal k d off => Sys2Proof.Machine.execJal k d off s
  | .jalr k d a imm => Sys2Proof.Machine.execJalr k d a imm s
  | .vld k d a imm => Sys2Proof.Machine.execVld k d a imm s
  | .vst k d a imm => Sys2Proof.Machine.execVst k d a imm s
  | .vlde k d a imm => Sys2Proof.Machine.execVlde k d a imm s
  | .vste k d a imm => Sys2Proof.Machine.execVste k d a imm s
  | .vcvt k vd va src dst sr p z => Sys2Proof.Machine.execVcvt k vd va src dst sr p z s
  | .scvt k d a src dst sr z => Sys2Proof.Machine.execScvt k d a src dst sr z s
  | .shi k d a imm => Sys2Proof.Machine.execShi k d a imm s
  | .vget k d a imm => Sys2Proof.Machine.execVget k d a imm s
  | .vadd k vd va b bs p => Sys2Proof.Machine.execVadd k vd va b bs p s
  | .vsub k vd va b bs p => Sys2Proof.Machine.execVsub k vd va b bs p s
  | .vmul k vd va b bs p => Sys2Proof.Machine.execVmul k vd va b bs p s
  | .vmin k vd va b bs p => Sys2Proof.Machine.execVmin k vd va b bs p s
  | .vmax k vd va b bs p => Sys2Proof.Machine.execVmax k vd va b bs p s
  | .vand k vd va b bs p => Sys2Proof.Machine.execVand k vd va b bs p s
  | .vor k vd va b bs p => Sys2Proof.Machine.execVor k vd va b bs p s
  | .vxor k vd va b bs p => Sys2Proof.Machine.execVxor k vd va b bs p s
  | .vsll k vd va b bs p => Sys2Proof.Machine.execVsll k vd va b bs p s
  | .vsrl k vd va b bs p => Sys2Proof.Machine.execVsrl k vd va b bs p s
  | .vsra k vd va b bs p => Sys2Proof.Machine.execVsra k vd va b bs p s
  | .vabs k vd va b bs p => Sys2Proof.Machine.execVabs k vd va b bs p s
  | .vfadd k vd va b bs p => Sys2Proof.Machine.execVfadd k vd va b bs p s
  | .vfsub k vd va b bs p => Sys2Proof.Machine.execVfsub k vd va b bs p s
  | .vfmul k vd va b bs p => Sys2Proof.Machine.execVfmul k vd va b bs p s
  | .vfma k vd va b bs p => Sys2Proof.Machine.execVfma k vd va b bs p s
  | .vfmin k vd va b bs p => Sys2Proof.Machine.execVfmin k vd va b bs p s
  | .vfmax k vd va b bs p => Sys2Proof.Machine.execVfmax k vd va b bs p s
  | .vfdiv k vd va b bs p => Sys2Proof.Machine.execVfdiv k vd va b bs p s
  | .vfsqrt k vd va b bs p => Sys2Proof.Machine.execVfsqrt k vd va b bs p s
  | .vfscl k vd va b bs p => Sys2Proof.Machine.execVfscl k vd va b bs p s
  | .vfabs k vd va b bs p => Sys2Proof.Machine.execVfabs k vd va b bs p s
  | .vcmpeq k vd va b bs p => Sys2Proof.Machine.execVcmpeq k vd va b bs p s
  | .vcmplt k vd va b bs p => Sys2Proof.Machine.execVcmplt k vd va b bs p s
  | .vcmple k vd va b bs p => Sys2Proof.Machine.execVcmple k vd va b bs p s
  | .vfcmpeq k vd va b bs p => Sys2Proof.Machine.execVfcmpeq k vd va b bs p s
  | .vfcmplt k vd va b bs p => Sys2Proof.Machine.execVfcmplt k vd va b bs p s
  | .vfcmple k vd va b bs p => Sys2Proof.Machine.execVfcmple k vd va b bs p s
  | .vsel k vd va b bs p => Sys2Proof.Machine.execVsel k vd va b bs p s
  | .vbcst k vd va b bs p => Sys2Proof.Machine.execVbcst k vd va b bs p s
  | .vpmask k vd va b bs p => Sys2Proof.Machine.execVpmask k vd va b bs p s
  | .vrsum k vd va b bs p => Sys2Proof.Machine.execVrsum k vd va b bs p s
  | .vrmax k vd va b bs p => Sys2Proof.Machine.execVrmax k vd va b bs p s
  | .vrmin k vd va b bs p => Sys2Proof.Machine.execVrmin k vd va b bs p s
  | .vfrsum k vd va b bs p => Sys2Proof.Machine.execVfrsum k vd va b bs p s
  | .vfrmax k vd va b bs p => Sys2Proof.Machine.execVfrmax k vd va b bs p s
  | .vfrmin k vd va b bs p => Sys2Proof.Machine.execVfrmin k vd va b bs p s
  | .vperm k vd va b bs p => Sys2Proof.Machine.execVperm k vd va b bs p s
  | .vrot k vd va b bs p => Sys2Proof.Machine.execVrot k vd va b bs p s
  | .qwait k x q z => Sys2Proof.Machine.execQwait k x q z s
  | .qpop k x q z pe => Sys2Proof.Machine.execQpop k x q z pe s
  | .qpush k x q z => Sys2Proof.Machine.execQpush k x q z s
  | .qcnt k x q z => Sys2Proof.Machine.execQcnt k x q z s
  | .enqe k x q z => Sys2Proof.Machine.execEnqe k x q z s
  | .efill k x q z => Sys2Proof.Machine.execEfill k x q z s
  | .xsub k x q z => Sys2Proof.Machine.execXsub k x q z s
  | .xlit k x q z => Sys2Proof.Machine.execXlit k x q z s
  | .tickwait k x q z => Sys2Proof.Machine.execTickwait k x q z s
  | .fence k x q z => Sys2Proof.Machine.execFence k x q z s
  | .crd k x q z => Sys2Proof.Machine.execCrd k x q z s
  | .cwr k x q z => Sys2Proof.Machine.execCwr k x q z s
  | .taskStart q bad => Sys2Proof.Machine.execTaskStart q bad s
  | .depMark x => Sys2Proof.Machine.execDepMark x s
  | .taskComplete x => Sys2Proof.Machine.execTaskComplete x s
  | .lightComplete h => Sys2Proof.Machine.execLightComplete h s
  | .flush f => Sys2Proof.Machine.execFlush f s
  | .queClr f => Sys2Proof.Machine.execQueClr f s
  | .doorbell f l v host => Sys2Proof.Machine.execDoorbell f l v host s
  | .xfrClrMax f => Sys2Proof.Machine.execXfrClrMax f s
  | .promote f n => Sys2Proof.Machine.execPromote f n s
  | .rollback f n => Sys2Proof.Machine.execRollback f n s
  | .discard f n => Sys2Proof.Machine.execDiscard f n s
  | .checkpoint f n => Sys2Proof.Machine.execCheckpoint f n s
  | .restore f n => Sys2Proof.Machine.execRestore f n s
  | .marginWrite f n be v => Sys2Proof.Machine.execMarginWrite f n be v s
  | .checkpointCommit n ok => Sys2Proof.Machine.execCheckpointCommit n ok s
  | .resultCommit n t => Sys2Proof.Machine.execResultCommit n t s
  | .gpioPulseEnd k t => Sys2Proof.Machine.execGpioPulseEnd k t s
  | .actRequest n => Sys2Proof.Machine.execActRequest n s
  | .actionTableWrite f k r be v => Sys2Proof.Machine.execActionTableWrite f k r be v s
  | .sealToken n => Sys2Proof.Machine.execSealToken n s
  | .publicationDeadline n => Sys2Proof.Machine.execPublicationDeadline n s
  | .editionPublish n => Sys2Proof.Machine.execEditionPublish n s
  | .remirror f n => Sys2Proof.Machine.execRemirror f n s
  | .outClr f n => Sys2Proof.Machine.execOutClr f n s
  | .recordIn h => Sys2Proof.Machine.execRecordIn h s
  | .assignmentWrite f off be v => Sys2Proof.Machine.execAssignmentWrite f off be v s
  | .loadSrcWrite f n be v => Sys2Proof.Machine.execLoadSrcWrite f n be v s
  | .insLoad f n host => Sys2Proof.Machine.execInsLoad f n host s
  | .loadComplete n => Sys2Proof.Machine.execLoadComplete n s
  | .insRelease f n => Sys2Proof.Machine.execInsRelease f n s
  | .releaseStep n t => Sys2Proof.Machine.execReleaseStep n t s
  | .insReset f n => Sys2Proof.Machine.execInsReset f n s
  | .functionLevelReset v => Sys2Proof.Machine.execFunctionLevelReset v s
  | .vfDisable v => Sys2Proof.Machine.execVfDisable v s
  | .resetDone n => Sys2Proof.Machine.execResetDone n s
  | .insReload f n host => Sys2Proof.Machine.execInsReload f n host s
  | .patchCheck n => Sys2Proof.Machine.execPatchCheck n s
  | .reloadDone n sid => Sys2Proof.Machine.execReloadDone n sid s
  | .engineRepair f e => Sys2Proof.Machine.execEngineRepair f e s
  | .engineCopyStart e => Sys2Proof.Machine.execEngineCopyStart e s
  | .engineSwapDone e => Sys2Proof.Machine.execEngineSwapDone e s
  | .columnRepair f c => Sys2Proof.Machine.execColumnRepair f c s
  | .targetTimeout ch ce => Sys2Proof.Machine.execTargetTimeout ch ce s
  | .stoMount f => Sys2Proof.Machine.execStoMount f s
  | .mountDone => Sys2Proof.Machine.execMountDone s
  | .stoClose f => Sys2Proof.Machine.execStoClose f s
  | .pageProgramDone p e => Sys2Proof.Machine.execPageProgramDone p e s
  | .blockEraseDone p ok => Sys2Proof.Machine.execBlockEraseDone p ok s
  | .backgroundScan p => Sys2Proof.Machine.execBackgroundScan p s
  | .stoList f => Sys2Proof.Machine.execStoList f s
  | .stoRead f => Sys2Proof.Machine.execStoRead f s
  | .stoTrim f => Sys2Proof.Machine.execStoTrim f s
  | .stoSync f => Sys2Proof.Machine.execStoSync f s
  | .stoWriteBoot f => Sys2Proof.Machine.execStoWriteBoot f s
  | .stoFormat f => Sys2Proof.Machine.execStoFormat f s
  | .mainOkFall t => Sys2Proof.Machine.execMainOkFall t s
  | .mainOkRise t => Sys2Proof.Machine.execMainOkRise t s
  | .mainStableExpiry t => Sys2Proof.Machine.execMainStableExpiry t s
  | .holdOkFall t => Sys2Proof.Machine.execHoldOkFall t s
  | .holdOkRise t => Sys2Proof.Machine.execHoldOkRise t s
  | .repairFetchDone n ok => Sys2Proof.Machine.execRepairFetchDone n ok s
  | .repairEntry n host => Sys2Proof.Machine.execRepairEntry n host s
  | .repairWaitExpiry n => Sys2Proof.Machine.execRepairWaitExpiry n s
  | .fltTest f => Sys2Proof.Machine.execFltTest f s
  | .fltRetest f => Sys2Proof.Machine.execFltRetest f s
  | .testStart t => Sys2Proof.Machine.execTestStart t s
  | .testComplete kind unit pass t => Sys2Proof.Machine.execTestComplete kind unit pass t s
  | .clrLog f => Sys2Proof.Machine.execClrLog f s
  | .instanceClrLog f n => Sys2Proof.Machine.execInstanceClrLog f n s
  | .logTailWrite f ring be v => Sys2Proof.Machine.execLogTailWrite f ring be v s
  | .pair f t => Sys2Proof.Machine.execPair f t s
  | .leaveCmd f t => Sys2Proof.Machine.execLeaveCmd f t s
  | .pairTimeout t => Sys2Proof.Machine.execPairTimeout t s
  | .helloSend t => Sys2Proof.Machine.execHelloSend t s
  | .tandemFrame fr t => Sys2Proof.Machine.execTandemFrame fr t s
  | .replayTimeout t => Sys2Proof.Machine.execReplayTimeout t s
  | .helloMsg t => Sys2Proof.Machine.execHelloMsg t s
  | .tdmTick t => Sys2Proof.Machine.execTdmTick t s
  | .sigMsg t => Sys2Proof.Machine.execSigMsg t s
  | .cmpWaitExpiry n t => Sys2Proof.Machine.execCmpWaitExpiry n t s
  | .writeMsg t => Sys2Proof.Machine.execWriteMsg t s
  | .dataMsg t => Sys2Proof.Machine.execDataMsg t s
  | .tdmTest t => Sys2Proof.Machine.execTdmTest t s
  | .verdictMsg t => Sys2Proof.Machine.execVerdictMsg t s
  | .markMsg t => Sys2Proof.Machine.execMarkMsg t s
  | .leaveMsg t => Sys2Proof.Machine.execLeaveMsg t s
  | .faultMsg t => Sys2Proof.Machine.execFaultMsg t s
  | .faultWaitExpiry n t => Sys2Proof.Machine.execFaultWaitExpiry n t s
  | .tdmRepair t => Sys2Proof.Machine.execTdmRepair t s
  | .partnerLoss t => Sys2Proof.Machine.execPartnerLoss t s
  | .gate dom t => Sys2Proof.Machine.execGate dom t s
  | .wake dom t => Sys2Proof.Machine.execWake dom t s
  | .rampStep dom t => Sys2Proof.Machine.execRampStep dom t s
  | .dividerWrite f dom be v t => Sys2Proof.Machine.execDividerWrite f dom be v t s
  | .monitorWindow n t => Sys2Proof.Machine.execMonitorWindow n t s
  | .pllUnlock p t => Sys2Proof.Machine.execPllUnlock p t s
  | .brakeEngage sen mv t => Sys2Proof.Machine.execBrakeEngage sen mv t s
  | .brakeRelease sen mv t => Sys2Proof.Machine.execBrakeRelease sen mv t s
  | .thermalSample temps t => Sys2Proof.Machine.execThermalSample temps t s
  | .pwrClrMax f => Sys2Proof.Machine.execPwrClrMax f s
  | .droopWrite f be v => Sys2Proof.Machine.execDroopWrite f be v s
  | .thermWrite f be v => Sys2Proof.Machine.execThermWrite f be v s
  | .registerWrite f off be v => Sys2Proof.Machine.execRegisterWrite f off be v s
  | .unsupportedRequest f => Sys2Proof.Machine.execUnsupportedRequest f s
  | .readShadowLatch f off => Sys2Proof.Machine.execReadShadowLatch f off s
  | .counterHighWrite f off be v => Sys2Proof.Machine.execCounterHighWrite f off be v s
  | .counterLowWrite f off be v => Sys2Proof.Machine.execCounterLowWrite f off be v s
  | .setAlias f off be v => Sys2Proof.Machine.execSetAlias f off be v s
  | .clearAlias f off be v => Sys2Proof.Machine.execClearAlias f off be v s
  | .toggleAlias f off be v => Sys2Proof.Machine.execToggleAlias f off be v s
  | .parityFault off => Sys2Proof.Machine.execParityFault off s
  | .parityInject f v => Sys2Proof.Machine.execParityInject f v s
  | .strapSample straps t => Sys2Proof.Machine.execStrapSample straps t s
  | .perstRise t => Sys2Proof.Machine.execPerstRise t s
  | .perstFall t => Sys2Proof.Machine.execPerstFall t s
  | .flashBoot => Sys2Proof.Machine.execFlashBoot s
  | .smbSetPointer v => Sys2Proof.Machine.execSmbSetPointer v s
  | .smbBlockRead => Sys2Proof.Machine.execSmbBlockRead s
  | .smbEventWrite v => Sys2Proof.Machine.execSmbEventWrite v s
  | .alertResponse => Sys2Proof.Machine.execAlertResponse s
  | .dbgaccRead off => Sys2Proof.Machine.execDbgaccRead off s
  | .dbgaccWrite off v => Sys2Proof.Machine.execDbgaccWrite off v s
  | .extest => Sys2Proof.Machine.execExtest s
  | .samplePreload => Sys2Proof.Machine.execSamplePreload s
  | .highz => Sys2Proof.Machine.execHighz s
  | .clamp => Sys2Proof.Machine.execClamp s
  | .idcode => Sys2Proof.Machine.execIdcode s
  | .bypass => Sys2Proof.Machine.execBypass s
  | .dbgMemRead f => Sys2Proof.Machine.execDbgMemRead f s
  | .dbgMemWrite f => Sys2Proof.Machine.execDbgMemWrite f s
  | .memAccessDone => Sys2Proof.Machine.execMemAccessDone s
  | .probeArm f k be v => Sys2Proof.Machine.execProbeArm f k be v s
  | .managerFunctionLevelReset t => Sys2Proof.Machine.execManagerFunctionLevelReset t s
  | .vfEnable n => Sys2Proof.Machine.execVfEnable n s
  | .pllLock locks t => Sys2Proof.Machine.execPllLock locks t s
  | .internalResetRelease t => Sys2Proof.Machine.execInternalResetRelease t s
  | .bankRemapCopyDone die bank => Sys2Proof.Machine.execBankRemapCopyDone die bank s
  | .outletSegmentSent j => Sys2Proof.Machine.execOutletSegmentSent j s
  | .prbsBitError j => Sys2Proof.Machine.execPrbsBitError j s
  | .cadenceOutPulse t => Sys2Proof.Machine.execCadenceOutPulse t s
  | .probeWindowEdge k t => Sys2Proof.Machine.execProbeWindowEdge k t s
  | .testLogicReset => Sys2Proof.Machine.execTestLogicReset s
  | .msiXUnmask f vec => Sys2Proof.Machine.execMsiXUnmask f vec s
  | .pageReadDone p raw => Sys2Proof.Machine.execPageReadDone p raw s

end Sys2Proof.Machine
end

