-- ==== Sys2Proof/Safety.lean ====
section
/-! DEFINITION. The words that the statements use: the canonical form of the state, completion of a command, and what a
command leaves alone. -/

namespace Sys2Proof.Machine

/-- The canonical form of the memories: addresses strictly rising, no byte equal to what an unlisted one reads as. -/
def Memory.wf (s : State) : Bool := SMap.wf 0 s.mem

/-- The canonical form of the register file: offsets strictly rising, no register listed at its reset value. -/
def Regs.wf (s : State) : Bool := SMap.wfFrom resetValue none s.regs

/-- A command completes: it answers a next state. -/
def Completes (c : Sys2Proof.Instr) (s : State) : Prop := ∃ t, exec c s = .next t

/-- Registers outside the list `as` read as before. -/
def RegsKept (s t : State) (as : List Nat) : Prop := ∀ a, a ∉ as → t.rd a = s.rd a

/-- Every byte of the memories outside `a .. a + n` reads as before. -/
def BytesKept (s t : State) (a n : Nat) : Prop := ∀ b, ¬(a ≤ b ∧ b < a + n) → t.rdByte b = s.rdByte b

/-- `n` bytes from `a` on have been stored, byte j being `bs j`: every other byte of every memory reads as before, and a
word wholly outside them keeps its poison and its upsets. -/
def Stored (s t : State) (a n : Nat) (bs : Nat → Byte) : Prop :=
  (∀ j, j < n → t.rdByte (a + j) = bs j) ∧ BytesKept s t a n
  ∧ (∀ w, w + 8 ≤ a ∨ a + n ≤ w → (w ∈ t.poison ↔ w ∈ s.poison) ∧ SMap.find t.upsets w = SMap.find s.upsets w)

/-! ### Host commands, events and the log -/

/-- `v` written over the bits `m` of `old`. -/
def merge (old v m : Word) : Word := (old &&& ~~~m) ||| (v &&& m)

/-- The write of function f to the register at PF offset `a` takes effect here and now: the function exists and owns the
register's row, the device is not paired, and the register's clock domain is not stopped. -/
def State.direct (s : State) (f a : Nat) : Prop :=
  s.fnOn f = true ∧ s.owns f a = true ∧ s.tdm.st ≠ 2 ∧ (s.dom (regDomain a)).stopped = false

/-- The registers that take a write by their hook or as plain storage: not of the Q group, a 64-bit counter, an assignment, an
instance command, nor per function, and in a domain that does not gate. -/
def plainReg (p : Nat) : Bool :=
  aliasOf p == 0 && (regAt p).isSome && p != Reg.QUE_SEL && p != Reg.FLT_RD_SEL && p != Reg.QUE_CMD && !queReg p
   && !wideHigh p && !wideLow p && (rowOf (Reg.INS_I_CMD 0) 0x80 8 p).isNone && p != Reg.HIF_EVT && p != Reg.PWR_EVT
   && p != Reg.FLT_LOG_TAIL && (rowOf (Reg.FLT_I_LOG_TAIL 0) 0x40 8 p).isNone && !gateable (regDomain p)
   && (rowOf (Reg.INS_W_MATCH 0) 4 2048 p).isNone &&
    (match instRow p with | some i => decide (p < Reg.INS_I_ENGINES_LO i) || decide (Reg.INS_I_TAGS i < p) | none => true)

/-- Registers that a log entry may change beside its owner's. -/
def logRegs : List Nat :=
  [Reg.HIF_MSG_DROP, Reg.FLT_EVT, Reg.FLT_SRC_SUM, Reg.FLT_LOG_OVF, Reg.FLT_LOG_LASTDROP]
    ++ instNums.flatMap (fun i => [Reg.FLT_I_EVT i, Reg.FLT_I_SRC_SUM i, Reg.FLT_I_LOG_OVF i, Reg.FLT_I_LOG_LASTDROP i])

/-- t is s but for the registers `as`, and the pending bits, messages, their drop counter and SMBALERT# that events bring. -/
def Events (s t : State) (as : List Nat) : Prop :=
  RegsKept s t (Reg.HIF_MSG_DROP :: as)
  ∧ t = { s with regs := t.regs
                 hif := { s.hif with pend := t.hif.pend, pba := t.hif.pba, msgs := t.hif.msgs }
                 sig := { s.sig with alert := t.sig.alert } }

/-- As `Events`, with the log rings and the registers of the log. -/
def Logged (s t : State) (as : List Nat) : Prop :=
  RegsKept s t (logRegs ++ as)
  ∧ t = { s with regs := t.regs
                 hif := { s.hif with pend := t.hif.pend, pba := t.hif.pba, msgs := t.hif.msgs }
                 sig := { s.sig with alert := t.sig.alert }
                 flt := { s.flt with rings := t.flt.rings } }

/-- The device ticks alone: not paired, no takeover of a lead in hand, no write held for a tick. -/
def State.alone (s : State) : Prop :=
  s.tdm.st ≠ 2 ∧ s.tdm.delayed = false ∧ s.tdm.takeover = false ∧ s.tdm.held = []

/-- The memory list is canonical, and no word of any memory has an upset to be found or is poisoned. -/
def State.clean (s : State) : Prop := Memory.wf s = true ∧ s.upsets = [] ∧ s.poison = []

/-- Engine e, of instance i, may start the command d at the head of its queue, ahead of `ds`; no epilogue is to come. -/
def State.engAt (s : State) (e i : Nat) (d : Descr) (ds : List Descr) : Prop :=
  s.engOwner e = some i ∧ (s.engine e).queue = d :: ds ∧ d.chain = none ∧ (s.engine e).stopped = false ∧ (s.engine e).swap = 0
  ∧ (s.engine e).epis = [] ∧ (s.engine e).fills = []

/-- The command at the head of engine e has completed without a token: the queue is now `ds`, ENG_E_CMDS has risen, and of
the engine the slots' bases alone may have changed besides. -/
def EngDone (s t : State) (e : Nat) (ds : List Descr) : Prop :=
  t.engine e = { s.engine e with queue := ds, waitTick := none, slotBase := (t.engine e).slotBase }
  ∧ t.rd (Reg.ENG_E_CMDS e) = satAdd (s.rd (Reg.ENG_E_CMDS e)) 1 ∧ ∀ m, m ≠ e → t.engine m = s.engine m

/-! ### Token queues -/

/-- A read of token queue q delivers its head `e`, a sound token of the queue's epoch; `es` stay behind. -/
def State.delivers (s : State) (q : Nat) (e : Entry) (es : List Entry) : Prop :=
  (s.queue q).qkind = qToken ∧ (s.queue q).entries = e :: es ∧ e.bad = false ∧ e.kind ≠ kindMarker ∧ (s.queue q).judge e = .deliver

/-- Token queue q has room, and its reader has not stopped. -/
def State.takes (s : State) (q : Nat) : Prop :=
  (s.queue q).qkind = qToken ∧ (s.queue q).full = false ∧ s.stoppedReader q = none

/-! ### Service cores -/

/-- The words that hold bytes `a .. a + n` of a SECDED memory have no upset still to be found and no poison. -/
def State.sound (s : State) (a n : Nat) : Prop :=
  (∀ w ∈ wordsOf a n, SMap.find s.upsets w = none) ∧ s.poisoned a n = false

/-- The words in tile SRAM that hold the head of token queue q have no error. -/
def State.headSound (s : State) (q : Nat) : Prop :=
  s.sound (s.tileAddr (queueCol q) (queueRow q) (s.slotAddr q ((s.queue q).rd % (s.queue q).depth))) 16

/-- Core k executes, the fetch at its pc is sound, and the word there is instruction `i` (log entry 14). -/
def State.ready (s : State) (k : Nat) (i : Sys2Proof.Instr) : Prop :=
  (s.core k).active = true ∧ s.sound (memAddr .core k (s.core k).pc.toNat) 4 ∧ Sys2Proof.decodeCore k (s.fetchWord k) = some i

/-- The registers that count the instructions of core k. -/
def retiredRegs (k : Nat) : List Nat := [Reg.SVC_K_RETIRED_LO k, Reg.SVC_K_RETIRED_HI k]

/-- Core k has retired one instruction and become `x`, running; every other core is as before. -/
def CoreBecomes (s t : State) (k : Nat) (x : Core) : Prop :=
  t.core k = { x with st := .running, waitTick := none } ∧ (∀ j, j ≠ k → t.core j = s.core j)
  ∧ RegsKept s t (retiredRegs k)

/-- The outcome `r` of an instruction of core k that touches nothing but the core: it completes, core k becomes `x`, and
everything else, every memory, queue and register but the count of retired instructions included, stays. -/
def Retires (s : State) (k : Nat) (x : Core) (r : Res) : Prop :=
  ∃ t, r = .next t ∧ CoreBecomes s t k x ∧ t = { s with cores := t.cores, regs := t.regs }

/-- Instruction `c`, fetched sound by core k that executes, retires: core k becomes `x`, and nothing else changes. -/
def Runs (s : State) (k : Nat) (x : Core) (c : Sys2Proof.Instr) : Prop := s.ready k c → Retires s k x (exec c s)

/-- As `Retires`, for an instruction that sets free values aside. -/
def RetiresFree (s : State) (k : Nat) (x : Core) (r : Res) : Prop :=
  ∃ t, r = .next t ∧ CoreBecomes s t k x ∧ t = { s with cores := t.cores, regs := t.regs, free := t.free }

/-- As `Runs`, for an instruction that sets free values aside. -/
def RunsFree (s : State) (k : Nat) (x : Core) (c : Sys2Proof.Instr) : Prop := s.ready k c → RetiresFree s k x (exec c s)

/-! ### Tiles -/

/-- Tile (c, r) runs, the fetch of its bundle is sound, and the bundle there is `w` (log entry 14). -/
def State.tileReady (s : State) (c r : Nat) (w : DWord) : Prop :=
  (s.tile c r).running = true ∧ s.sound (s.tileAddr c r (8 * (s.tile c r).pc.toNat)) 8 ∧ s.bundleAt c r = w

/-- A bundle of tile (c, r) has committed: the tile has become `y`, no longer waiting; every other tile is as before, and
of the registers only the column's count of busy cycles may have changed. -/
def TileBecomes (s t : State) (c r : Nat) (y : Tile) : Prop :=
  t.tile c r = { y with waitTick := none, waitKind := 0 }
  ∧ (∀ m n, tileKey m n ≠ tileKey c r → t.tile m n = s.tile m n) ∧ RegsKept s t [Reg.TIL_C_BUSY c]

/-- The outcome `r'` of a bundle that touches nothing but its tile. -/
def TileSteps (s : State) (c r : Nat) (y : Tile) (r' : Res) : Prop :=
  ∃ t, r' = .next t ∧ TileBecomes s t c r y ∧ t = { s with tiles := t.tiles, regs := t.regs, free := t.free }

end Sys2Proof.Machine
end

