-- ==== Sys2Proof/Certificates/Slice0/Obligations.lean ====
section
/-! DEFINITION. The statements for the provers, one `def Obligations.<Name> : Prop` each; OBLIGATIONS.json lists them. -/

open Sys2Proof Sys2Proof.Machine

/-- A step takes the command at the front of the queue and runs it with the queue's rest; an empty queue idles
(model's choice, log entry 1) (00_scope.md, 95_what_each_step_holds.md). -/
def Obligations.StepRunsFrontCommand : Prop :=
  (∀ (s : State) (c : Instr) (cs : List Instr), step { s with pending := c :: cs } = exec c { s with pending := cs })
  ∧ (∀ s : State, step { s with pending := [] } = .next { s with pending := [] })

/-- A register holds what is written, an event sets its bit, and an event changes nothing else but interrupts (R410,
R411, 17_host_interface_and_registers.md). -/
def Obligations.RegisterAndEventLaws : Prop :=
  (∀ (s : State) (a b : Nat) (v : Word), (s.wr a v).rd b = if b = a then v else s.rd b)
  ∧ (∀ (s : State) (a n : Nat), a ≠ Reg.HIF_MSG_DROP →
      (s.event a n).rd a = s.rd a ||| BitVec.ofNat 32 (2 ^ n) ∧ Events s (s.event a n) [a])
  ∧ (∀ (s : State) (a b : Nat),
      (s.count a).rd b = if b = a then (if s.rd a = 0xFFFFFFFF then 0xFFFFFFFF else s.rd a + 1) else s.rd b)

/-- Every step keeps the canonical form of the memories and of the register file (02_device_organisation.md,
17_host_interface_and_registers.md). -/
def Obligations.CanonicalKept : Prop :=
  ∀ s t : State, Memory.wf s = true → Regs.wf s = true → step s = .next t → Memory.wf t = true ∧ Regs.wf t = true

/-- The state after reset is canonical, its registers read their Reset column, its queue is empty, and gateable
domains are gated (R338, R383, 17_host_interface_and_registers.md). -/
def Obligations.ResetState : Prop :=
  Memory.wf State.reset = true ∧ Regs.wf State.reset = true ∧ (∀ a, State.reset.rd a = resetValue a)
  ∧ State.reset.pending = [] ∧ State.reset.poison = [] ∧ (∀ n, (State.reset.inst n).st = .unloaded)
  ∧ (∀ d, d < 92 → State.reset.dom d = { gated := true, ratio := 3 }) ∧ (∀ d, 92 ≤ d → State.reset.dom d = {})

/-- CADENCE_IN: the active edge of in_pol makes a tick due after 40 ns, a pulse of CAD_SHEET_WIDTH marks its own tick even
when that has been delivered, and one under 10 ns is a glitch without a tick (R8, R13, R431). -/
def Obligations.CadencePulses : Prop :=
  ∀ (s : State) (t : Nat) (rise : Bool), (s.dom 109).stopped = false →
    let s' := s.at_ t
    let c := s.cad
    let active : Prop := rise ≠ s.bit Reg.CAD_CTRL 2
    (active → exec (.cadenceInEdge ⟨rise, t⟩) s = .next { s' with cad := { c with
        pulse := some s'.now, lastEdge := some s'.now, wide := false
        due := if c.tickSrc = 0 then c.due ++ [{ at_ := s'.now + 40, src := 0, mark := false, edge := some s'.now }] else c.due } })
    ∧ (¬active → exec (.cadenceInEdge ⟨rise, t⟩) s = .next s')
    ∧ ∀ e, c.pulse = some e →
      let w := e + s.fld Reg.CAD_SHEET_WIDTH 15 0
      let wide : Cadence := { c with wide := true }
      let own : Cadence := { wide with due := c.due.map (fun d => if d.edge = some e then { d with mark := true } else d) }
      (s'.now < w ∨ c.sheetSrc ≠ 0 ∨ c.wide = true → exec (.sheetWidthExpiry t) s = .next s')
      ∧ (w ≤ s'.now → c.sheetSrc = 0 → c.wide = false →
          (c.tickSrc ≠ 0 → exec (.sheetWidthExpiry t) s = .next { s' with cad := { wide with pulseMark := true } })
          ∧ (c.tickSrc = 0 → c.tickEdge ≠ some e → exec (.sheetWidthExpiry t) s = .next { s' with cad := own })
          ∧ (c.tickSrc = 0 → c.tickEdge = some e → (∀ n, n < 8 → (s.inst n).live = true → (s.inst n).lastAccepted ≠ c.lastTick) →
              ∃ u, exec (.sheetWidthExpiry t) s = .next u
                ∧ u.rd Reg.CAD_SHEET_NUM = (if c.tickMarked = true then s.rd Reg.CAD_SHEET_NUM
                    else BitVec.ofNat 32 ((s.fld Reg.CAD_SHEET_NUM 23 0 + 1) % 2 ^ 24))
                ∧ RegsKept s u [Reg.CAD_SHEET_NUM] ∧ u.cad = { own with tickMarked := true, outAt := u.cad.outAt }
                ∧ (∀ n, u.inst n = if n < 8 ∧ (s.inst n).live = true then { s.inst n with pendMark := true } else s.inst n)
                ∧ u = { s' with regs := u.regs, cad := u.cad, insts := u.insts }))
      ∧ (active → exec (.cadenceInPulseEnd ⟨rise, t⟩) s = .next s')
      ∧ (¬active → s'.now < e + 10 → ∃ u, exec (.cadenceInPulseEnd ⟨rise, t⟩) s = .next u
          ∧ u.rd Reg.CAD_EVT = s.rd Reg.CAD_EVT ||| 8
          ∧ Events { s' with cad := { c with pulse := none, due := c.due.filter (fun d => d.edge != some e) } } u [Reg.CAD_EVT])
      ∧ (¬active → e + 10 ≤ s'.now → ∀ u, exec (.sheetWidthExpiry t) s = .next u →
          exec (.cadenceInPulseEnd ⟨rise, t⟩) s = .next { u with cad := { u.cad with pulse := none } })

/-- CAD_PERIOD, CAD_I_EMPTY_LIMIT and the commands clr_max and sheet of CAD_CMD do what their rules say (R10, R14,
R17, R24). -/
def Obligations.CadenceRegisterWrites : Prop :=
  ∀ (s : State) (f : Nat) (be : BitVec 4) (v : Word),
    (let a := Reg.CAD_PERIOD
     let m := 0x3FFFFF &&& beMask be
     let nv := merge (s.rd a) v m
     s.direct f a → m ≠ 0 →
      (1000 ≤ bits nv 21 0 ∧ bits nv 21 0 ≤ 4096000 →
        exec (.cadPeriodWrite f be v) s = .next ((s.wr a nv).healIf (· == a)))
      ∧ (bits nv 21 0 < 1000 ∨ 4096000 < bits nv 21 0 → exec (.cadPeriodWrite f be v) s = .next (s.event Reg.CAD_EVT 1)))
    ∧ (∀ n, n < 8 →
        let a := Reg.CAD_I_EMPTY_LIMIT n
        let m := 0xFFFF &&& beMask be
        let nv := merge (s.rd a) v m
        s.direct f a → m ≠ 0 →
        (bits nv 15 0 ≠ 0 → exec (.emptyLimitWrite f n be v) s = .next ((s.wr a nv).healIf (· == a)))
        ∧ (bits nv 15 0 = 0 → exec (.emptyLimitWrite f n be v) s = .next s))
    ∧ (s.direct f Reg.CAD_CMD →
        (∃ t, exec (.cadClrMax f) s = .next t ∧ t.rd Reg.CAD_BRAKE_MAX = 0
          ∧ (∀ n, n < 8 → t.rd (Reg.CAD_I_SLACK_MIN n) = 0x3FFFFF)
          ∧ RegsKept s t (Reg.CAD_BRAKE_MAX :: instNums.map Reg.CAD_I_SLACK_MIN) ∧ t = { s with regs := t.regs })
        ∧ (∃ t, exec (.hostMark f) s = .next t
          ∧ (∀ n, t.inst n = if n < 8 ∧ (s.inst n).live = true then { s.inst n with hostMark := true } else s.inst n)
          ∧ t = { s with insts := t.insts, cad := { s.cad with hostMark := true } }))

/-- A write of CAD_CTRL that changes a source sets src_switched and takes effect at the next tick, or at once
without ticks (R8, R9, R11). -/
def Obligations.SourceSwitch : Prop :=
  ∀ (s : State) (f : Nat) (be : BitVec 4) (v : Word) (t : Nat),
    let a := Reg.CAD_CTRL
    let m := 0xF7 &&& beMask be
    let old := s.rd a
    let nv := merge old v m
    let s' := s.at_ t
    let base := (s'.wr a nv).healIf (· == a)
    s.direct f a → m ≠ 0 →
      (bits old 7 4 = bits nv 7 4 → s.cad.switching = false → (old.getLsbD 0 = true ∨ nv.getLsbD 0 = false) →
        exec (.srcSwitch f be v t) s = .next base)
      ∧ (bits old 7 4 ≠ bits nv 7 4 → old.getLsbD 0 = true → nv.getLsbD 0 = true → s.cad.tickSrc ≠ 3 →
          ∃ u, exec (.srcSwitch f be v t) s = .next u ∧ u.rd Reg.CAD_EVT = s.rd Reg.CAD_EVT ||| 4
            ∧ Events { base with cad := { s.cad with switching := true } } u [Reg.CAD_EVT])
      ∧ (bits old 7 4 ≠ bits nv 7 4 → old.getLsbD 0 = nv.getLsbD 0 → (nv.getLsbD 0 = false ∨ s.cad.tickSrc = 3) →
          ∃ u, exec (.srcSwitch f be v t) s = .next u ∧ u.rd Reg.CAD_EVT = s.rd Reg.CAD_EVT ||| 4
            ∧ u.cad.tickSrc.toNat = bits nv 5 4 ∧ u.cad.sheetSrc.toNat = bits nv 7 6 ∧ u.cad.switching = false
            ∧ (u.cad.tickSrc ≠ s.cad.tickSrc → u.cad.from_ = some s'.now)
            ∧ Events { base with cad := u.cad } u [Reg.CAD_EVT])
      ∧ (old.getLsbD 0 = false → nv.getLsbD 0 = true → ∃ u, exec (.srcSwitch f be v t) s = .next u ∧ u.rd a = nv
          ∧ u.cad.genStart = s'.now ∧ u.cad.genPeriod = s.fld Reg.CAD_PERIOD 21 0
          ∧ (∀ d ∈ u.cad.due, d.src = 3 ∨ s'.now < d.at_) ∧ Events { base with cad := u.cad } u [Reg.CAD_EVT])

/-- A delivered tick counts in CAD_TICK, measures the interval, numbers the sheet and brings the stream map into
force (R9, R14, R16, R41). -/
def Obligations.TickDelivered : Prop :=
  ∀ (s : State) (t : Nat), s.alone → (s.dom 109).stopped = false → s.cad.frames = [] → (∀ n, (s.inst n).live = false) →
    let s' := s.at_ t
    let c := s.cad
    let done (mark host : Bool) (r : Res) : Prop := ∃ u, r = .next u
      ∧ u.devTick = (s.devTick + 1) % 2 ^ 64
      ∧ u.rd Reg.CAD_INTERVAL = (match c.from_ with
          | some f => BitVec.ofNat 32 (min (s'.now - f) 0x7FFFFF) | none => s.rd Reg.CAD_INTERVAL)
      ∧ u.rd Reg.CAD_SHEET_NUM = (if (((mark || c.pulseMark) && c.sheetSrc == 0) || host || c.hostMark) && c.sheetSrc != 1
          then BitVec.ofNat 32 ((s.fld Reg.CAD_SHEET_NUM 23 0 + 1) % 2 ^ 24) else s.rd Reg.CAD_SHEET_NUM)
      ∧ u.cad.lastTick = some s'.now ∧ u.cad.from_ = some s'.now ∧ u.cad.hostMark = false ∧ u.cad.pulseMark = false
      ∧ (∀ k r, k < 32 → r < 4 → u.mapReg (Reg.INL_MAP_MATCH k + 4 * r) = s.rd (Reg.INL_MAP_MATCH k + 4 * r))
      ∧ u.insts = s.insts ∧ u.queues = s.queues ∧ u.engines = s.engines ∧ u.tiles = s.tiles ∧ u.cores = s.cores
      ∧ u.mem = s.mem ∧ u.poison = s.poison ∧ u.store = s.store ∧ u.pending = s.pending
    (∀ d, s.bit Reg.CAD_CTRL 0 = true → s'.cad.dueNow s'.now = some d → d.src = c.tickSrc.toNat →
      done d.mark false (exec (.tick t) s))
    ∧ (∀ f sheet, s.direct f Reg.CAD_CMD → s.bit Reg.CAD_CTRL 0 = false → done false sheet (exec (.cadStep f sheet t) s))
    ∧ (∀ f, s.direct f Reg.CAD_CMD → s.bit Reg.CAD_CTRL 0 = true →
        exec (.cadStep f false t) s = .next (s'.event Reg.CAD_EVT 1))

/-- A tick earlier than CAD_I_PMIN is ignored for its instance, counted, and keeps its mark for the next accepted
tick (R18). -/
def Obligations.EarlyTick : Prop :=
  ∀ (s : State) (t n : Nat) (d : DueTick), s.alone → (s.dom 109).stopped = false → s.cad.frames = [] → n < 8 →
    (s.inst n).live = true → (∀ j, j ≠ n → (s.inst j).live = false) →
    let s' := s.at_ t
    (∃ a, (s.inst n).lastAccepted = some a ∧ s'.now < a + s.fld (Reg.CAD_I_PMIN n) 21 0) →
    s.bit Reg.CAD_CTRL 0 = true → s'.cad.dueNow s'.now = some d → d.src = s.cad.tickSrc.toNat → s.cad.sheetSrc = 0 →
    ∃ u, exec (.tick t) s = .next u ∧ u.devTick = (s.devTick + 1) % 2 ^ 64
      ∧ u.rd (Reg.CAD_I_EARLY n) = satAdd (s.rd (Reg.CAD_I_EARLY n)) 1
      ∧ u.rd (Reg.CAD_I_EVT n) = s.rd (Reg.CAD_I_EVT n) ||| 1
      ∧ u.inst n = { s.inst n with pendMark := (s.inst n).pendMark || d.mark || s.cad.pulseMark }
      ∧ (∀ j, j ≠ n → u.inst j = s.inst j)
      ∧ u.queues = s.queues ∧ u.engines = s.engines ∧ u.tiles = s.tiles ∧ u.cores = s.cores ∧ u.mem = s.mem

/-- The tick watch reports a silent interval once, and CADENCE_OUT repeats a tick as a pulse (R12, R427, R431). -/
def Obligations.TickWatchAndOutput : Prop :=
  ∀ (s : State) (t : Nat), (s.dom 109).stopped = false →
    let s' := s.at_ t
    let c := s.cad
    let us := s.fld Reg.CAD_TIMEOUT 22 0
    (us ≠ 0 → c.silentLogged = false → c.silentFrom + 1000 * us ≤ s'.now →
      exec (.tickTimeout t) s = .next (({ s' with cad := { c with silentLogged := true } }.event Reg.CAD_EVT 0).report
        0x01 0 0 none 0 0xFFFF 0))
    ∧ (us = 0 ∨ c.silentLogged = true ∨ s'.now < c.silentFrom + 1000 * us → exec (.tickTimeout t) s = .next s')
    ∧ (s.flt.down = true → exec (.cadenceOutPulse t) s = .next { s' with cad := { c with outAt := [], outLevel := false } })
    ∧ (s.flt.down = false →
        (∀ a marked rest, c.outAt = (a, marked) :: rest → a ≤ s'.now → c.outLevel = false →
          let w := if marked = true ∧ s.bit Reg.CAD_OUT_CTRL 12 = true then s.fld Reg.CAD_SHEET_WIDTH 15 0 + 100 else 50
          exec (.cadenceOutPulse t) s = .next { s' with cad := { c with
            outAt := rest, outLevel := decide (s'.now < a + w), outEnd := a + w } })
        ∧ (c.outAt = [] → c.outLevel = true → c.outEnd ≤ s'.now →
          exec (.cadenceOutPulse t) s = .next { s' with cad := { c with outLevel := false } }))

/-- Lane events clear lock or show high BER, set their bit with a notice, count, and a cleared lane enable stops its
lane (R28, R44, R432, 01_cadence_and_line_inlet.md). -/
def Obligations.LaneCommands : Prop :=
  ∀ (s : State) (j : Nat), j < 32 →
    let one : Word := BitVec.ofNat 32 (2 ^ j)
    let up := s.lanePcs j = true
    let down := s.wr Reg.INL_LANE_LOCK (s.rd Reg.INL_LANE_LOCK &&& ~~~one)
    let noted (x : State) : State := (x.event Reg.INL_LANE_EVT j).report 0x02 (0x0300 + j) 0 none 0 j 0
    (up → s.bit Reg.INL_LANE_LOCK j = true → exec (.blockLockLost j) s = .next (noted down))
    ∧ (up → s.bit Reg.INL_LANE_HIBER j = false → s.bit Reg.FLT_CTRL 1 = false →
        exec (.highBer j) s = .next (noted (down.wr Reg.INL_LANE_HIBER (s.rd Reg.INL_LANE_HIBER ||| one))))
    ∧ (up → exec (.blockLockGained j) s = .next { (s.wr Reg.INL_LANE_LOCK (s.rd Reg.INL_LANE_LOCK ||| one)).wr
        Reg.INL_LANE_HIBER (s.rd Reg.INL_LANE_HIBER &&& ~~~one) with lockAt := SMap.put j s.now s.lockAt })
    ∧ (up → ∃ code, 0x0300 ≤ code ∧ code < 0x0400 ∧ exec (.invalidBlock j) s = .next
        ({ s.count (Reg.INL_LANE_ERR j) with free := s.free + 1 }.report 0x02 code 0 none 0 j 0))
    ∧ (s.bit Reg.INL_LANE_EN j = true → s.bit Reg.INL_CTRL 1 = true →
        exec (.prbsBitError j) s = .next (s.count (Reg.INL_PRBS_ERR j)))
    ∧ ∀ (f : Nat) (be : BitVec 4) (v : Word), s.direct f Reg.INL_LANE_EN → be ≠ 0 →
        let nv := merge (s.rd Reg.INL_LANE_EN) v (beMask be)
        exec (.inlLaneEnWrite f be v) s = .next ((((s.wr Reg.INL_LANE_EN nv).wr Reg.INL_LANE_LOCK
          (s.rd Reg.INL_LANE_LOCK &&& nv)).wr Reg.INL_LANE_HIBER (s.rd Reg.INL_LANE_HIBER &&& nv)).healIf
            (· == Reg.INL_LANE_EN))

/-- Resync empties an instance's slots and current line, clr clears every inlet counter, and map and table writes
store only (R41, R42, R276, 01_cadence_and_line_inlet.md). -/
def Obligations.InletAndTableWrites : Prop :=
  ∀ (s : State) (f : Nat) (be : BitVec 4) (v : Word),
    (s.direct f Reg.INL_CMD →
      (∀ n, n < 8 → exec (.resync f n) s = .next (s.setInst n { s.inst n with
          segs := [], curLine := none, window := none, lastAdmitted := none, marks := [] }))
      ∧ (∃ t, exec (.inlClr f) s = .next t ∧ (∀ a ∈ inlCounters, t.rd a = 0) ∧ RegsKept s t inlCounters
          ∧ t = { s with regs := t.regs }))
    ∧ (∀ k r, k < 32 → r < 4 →
        let a := Reg.INL_MAP_MATCH k + 4 * r
        let m := (if r = 0 then 0x1FF else if r = 3 then 0xFFFF else 0xFFFFFFFF) &&& beMask be
        s.direct f a → m ≠ 0 →
          exec (.streamMapWrite f k r be v) s = .next ((s.wr a (merge (s.rd a) v m)).healIf (· == a)))
    ∧ (∀ k r, k < 256 → r < 7 →
        let a := Reg.ACT_E_MATCH k + 4 * r
        s.direct f a → ∀ d, regAt a = some d → wd d.prv &&& beMask be ≠ 0 →
          exec (.actionTableWrite f k r be v) s
            = .next ((s.wr a (merge (s.rd a) v (wd d.prv &&& beMask be))).healIf (· == a)))

/-- A frame is ignored by INL_CTRL.enable and its lane's lock at its start block, malformed, a CRC failure, unmapped, or held
in its line's slot, and is counted under its stream; one behind a tick still due waits (R36, R37, R38, R39, R40, R432). -/
def Obligations.FrameJudgement : Prop :=
  ∀ (s : State) (fr : Frame) (t : Nat),
    let s' := s.at_ t
    let noted (x : State) (n stream : Nat) : State := (x.event Reg.INL_EVT n).report 0x02 n 0 none 0 stream 0
    let received : Prop := s.inlEnabled fr.start = true ∧ s.laneUp fr.lane = true ∧ SMap.get 0 s.lockAt fr.lane ≤ fr.start
    (¬received → exec (.vlfFrame fr t) s = .next s')
    ∧ (received →
      (parseFrame fr = none →
        exec (.vlfFrame fr t) s = .next (noted (s'.count (Reg.INL_S_MALFORMED (frameStream fr))) 2 (frameStream fr)))
      ∧ ∀ v, parseFrame fr = some v →
        (v.crc.toNat ≠ bits64 v.trailer 31 0 →
          exec (.vlfFrame fr t) s = .next (noted (s'.count (Reg.INL_S_CRC v.stream)) 1 v.stream))
        ∧ (v.crc.toNat = bits64 v.trailer 31 0 →
          (s'.tickOpen s'.now = true ∨ s.cad.frames ≠ [] → exec (.vlfFrame fr t) s = .next { s' with cad := { s.cad with
              frames := s.cad.frames ++ [{ words := [v.h0, v.h1, v.h2] ++ v.payload ++ [v.trailer], at_ := s'.now }] } })
          ∧ (s'.tickOpen s'.now = false → s.cad.frames = [] →
            (v.headerOk = false →
              exec (.vlfFrame fr t) s = .next (noted (s'.count (Reg.INL_S_MALFORMED v.stream)) 2 v.stream))
            ∧ (v.headerOk = true → v.type = 1 → ∃ u, exec (.vlfFrame fr t) s = .next u
                ∧ u.rd (Reg.INL_S_FRAMES v.stream) = satAdd (s.rd (Reg.INL_S_FRAMES v.stream)) 1
                ∧ u.rd (Reg.INL_S_LAST_SEQ v.stream) = v.seq ∧ u.mem = s.mem
                ∧ u.cad.due = (if v.tick = true ∧ v.stream = s.fld Reg.INL_CTRL 7 4 ∧ s.cad.tickSrc = 2
                    then s.cad.due ++ [{ at_ := s'.now + 40, src := 2, mark := false }] else s.cad.due))
            ∧ (v.headerOk = true → v.type = 0 → v.tick = false →
              (s.mapFor v.stream = none →
                exec (.vlfFrame fr t) s = .next (noted (s'.count (Reg.INL_S_UNMAPPED v.stream)) 6 v.stream))
              ∧ ∀ k, s.mapFor v.stream = some k →
                (v.fits (s.mapEntry k) = false →
                  exec (.vlfFrame fr t) s = .next (noted (s'.count (Reg.INL_S_MALFORMED v.stream)) 2 v.stream))
                ∧ ∀ n c, v.fits (s.mapEntry k) = true → (s.mapEntry k).insts = 2 ^ n → n < 8 →
                  (s.inst n).st = .running → (s.inst n).curLine = some c →
                  let l := v.seq + (s.mapEntry k).off
                  let g : Seg := { line := l, entry := k, segIndex := v.segIndex, pixelOffset := v.pixelOffset
                                   pixelCount := v.pixelCount, sheet := v.sheet, sos := v.sos, stream := v.stream
                                   payload := v.payload }
                  (l - c).toNat ≤ 3 → (s.inst n).segs.any (fun h => h.same g) = false →
                  ∃ u, exec (.vlfFrame fr t) s = .next u
                    ∧ u.inst n = { s.inst n with segs := (s.inst n).segs ++ [g] } ∧ (∀ j, j ≠ n → u.inst j = s.inst j)
                    ∧ u.rd (Reg.INL_S_FRAMES v.stream) = satAdd (s.rd (Reg.INL_S_FRAMES v.stream)) 1
                    ∧ u.rd (Reg.INL_S_LAST_SEQ v.stream) = v.seq
                    ∧ (l = c → u.rd (Reg.INL_I_EMPTY n) = 0)
                    ∧ RegsKept s u [Reg.INL_S_FRAMES v.stream, Reg.INL_S_LAST_SEQ v.stream, Reg.INL_I_EMPTY n]
                    ∧ u = { s' with regs := u.regs, insts := u.insts, mem := u.mem, poison := u.poison, upsets := u.upsets }
                    ∧ ((s.inst n).inletEdges = [] → u.mem = s.mem ∧ u.poison = s.poison ∧ u.upsets = s.upsets)))))

/-- TAPSUM, MATMUL, DWDIAG and BWD write exactly their accumulator slots, count, and queue an epilogue or complete
(R127, R129, R130, R138, R144, R147, R151, R152, R214). -/
def Obligations.EngineComputing : Prop :=
  ∀ (s : State) (e i : Nat) (d : Descr) (ds : List Descr) (c : Instr),
    (d.cls, c) ∈ [(2, Instr.tapsum e), (3, .matmul e), (4, .dwdiag e), (7, .bwd e)] →
    s.clean → s.engAt e i d ds →
    let g := s.engine e
    let p := s.engPhys e
    (∀ t ∈ d.tags, (SMap.get {} g.tags t).valid = true) → s.engCause p g d false = none → d.notify = false →
    ∀ (m : EngMode) (base : Int), engMode d.actFmt d.wtFmt = some m →
    (if d.accInit = 1 then SMap.get none g.slotBase d.accBase = some base
      else base = (g.maxExp d : Int) - (if m.integer then (d.rowSpan : Int) else 0)) →
    let regs := [Reg.ENG_E_BUSY_LO e, Reg.ENG_E_BUSY_HI e]
    ∃ u, exec c s = .next u
      ∧ (∀ n, n < d.outCount → u.accSlot p (d.accBase + n) = s.reducePixel p g d m.integer base
          (if d.cls = 7 ∧ d.form = 1 then n else d.outFirst + n) (s.accStart p d (d.accBase + n)))
      ∧ BytesKept s u (slotAddrAcc p d.accBase) (256 * d.outCount)
      ∧ u.rd64 (Reg.ENG_E_BUSY_LO e) (Reg.ENG_E_BUSY_HI e)
          = (s.rd64 (Reg.ENG_E_BUSY_LO e) (Reg.ENG_E_BUSY_HI e) + d.stepCount
              * (if d.cls = 4 then (d.outCount + 7) / 8 else if d.blockRows = 32 then 2 * d.outCount else d.outCount)) % 2 ^ 64
      ∧ (d.epi ≠ 1 → EngDone s u e ds ∧ RegsKept s u (Reg.ENG_E_CMDS e :: regs))
      ∧ (d.epi = 1 → u.engine e = { g with
            queue := ds, waitTick := none, slotBase := (u.engine e).slotBase
            epis := [{ d := d, eBase := base, tainted := false, flags := g.operandFlags d }] }
          ∧ (∀ j, j ≠ e → u.engine j = s.engine j) ∧ RegsKept s u regs)
      ∧ u = { s with regs := u.regs, engines := u.engines, mem := u.mem }

/-- An integer step adds the exact sum of products, each operand shifted toward zero to e_base, to each accumulator,
saturated once per cycle to 32 bits (R100, R111, R112, R138). -/
def Obligations.EngineAccumulation : Prop :=
  ∀ (s : State) (p : Nat) (g : Engine) (d : Descr) (base : Int) (n : Nat) (st : Step) (rows : List Nat) (o j : Nat) (acc : Word)
    (sh : Nat → Nat), d.cls ≠ 4 → ¬(d.cls = 7 ∧ d.form = 1) →
    (∀ r ∈ rows, s.groupShift p d ((n * d.blockRows + r) / d.group) j = some (sh r : Int)) →
    let act (r : Nat) : Int :=
      let a := (s.operand p g d (d.rowTap st r).1 o (d.rowTap st r).2).int
      let e : Int := g.rowExp d (d.rowTap st r).1
      if e < base then a.tdiv (2 ^ (base - e).toNat) else a * 2 ^ (e - base).toNat
    let term (r : Nat) : Int := act r * (s.weight p d st r j).int * 2 ^ sh r
    s.cycleElem p g d true base n st rows o j acc
      = BitVec.ofInt 32 (max (-(2 ^ 31)) (min (2 ^ 31 - 1) (acc.toInt + (rows.map term).sum)))

/-- LOADW copies window bytes into weight SRAM unless a scale region then fails its check, LUTCOL stores a codebook of 16
bytes, and SCRUBW leaves sound memory as it is (R130, R134, R143, R146, R150, R215, R239, R244). -/
def Obligations.EngineLoads : Prop :=
  ∀ (s : State) (e i : Nat) (d : Descr) (ds : List Descr), s.clean → s.engAt e i d ds → d.notify = false →
    d.word0Bare = true →
    let p := s.engPhys e
    let w1 (hi lo : Nat) : Nat := bits64 (d.w 1) hi lo
    (d.cls = 6 → w1 52 0 = 0 →
      let a := memAddr .weight p (4096 * w1 63 56 + 0x400 + 16 * w1 55 53)
      ∃ u, exec (.lutcol e) s = .next u ∧ EngDone s u e ds ∧ RegsKept s u [Reg.ENG_E_CMDS e]
        ∧ u.rdBytes a 16 = leBytes 8 (d.w 2).toNat ++ leBytes 8 (d.w 3).toNat ∧ BytesKept s u a 16
        ∧ u = { s with regs := u.regs, engines := u.engines, mem := u.mem })
    ∧ (d.cls = 8 → w1 31 0 = 0 → d.w 2 = 0 → d.w 3 = 0 → w1 63 44 % 256 = 0 → w1 63 44 + 256 * (w1 43 32 + 1) ≤ 0x100000 →
        ∃ u, exec (.scrubw e) s = .next u ∧ EngDone s u e ds ∧ RegsKept s u [Reg.ENG_E_CMDS e]
          ∧ u = { s with regs := u.regs, engines := u.engines })
    ∧ (d.cls = 1 → w1 16 0 = 0 → bits64 (d.w 2) 29 0 = 0 → d.w 3 = 0 →
        let off := w1 57 31
        let dst := bits64 (d.w 2) 63 44
        let n := 64 * (bits64 (d.w 2) 43 30 + 1)
        off % 64 = 0 → dst % 64 = 0 → dst + n ≤ 0x100000 →
        ∀ q, s.localQueue i (w1 30 17) = some q →
        ((s.queue q).maxb.toNat < n → ∃ u, exec (.loadw e) s = .next u ∧ bits (u.rd (Reg.XFR_I_ERR_AT i)) 31 28 = 3
          ∧ u.mem = s.mem)
        ∧ ∀ x, n ≤ (s.queue q).maxb.toNat → s.mayStart q = true →
          s.window i (w1 63 58) = some x → off + n ≤ x.size → x.access.testBit 0 = true →
          let a := memAddr .weight p dst
          let src := memAddr .bulk x.die (x.base + off)
          let lo := Reg.ENG_E_LOAD_LO e
          let hi := Reg.ENG_E_LOAD_HI e
          ((s.copyMem src a n).regionsOk e dst n = true →
            ∃ u t, exec (.loadw e) s = .next u ∧ EngDone s u e ds ∧ t / 4 = bits (s.queue q).cap 17 16
              ∧ (∀ j, j < n → u.rdByte (a + j) = s.rdByte (src + j)) ∧ BytesKept s u a n
              ∧ u.rd64 lo hi = (s.rd64 lo hi + n) % 2 ^ 64
              ∧ RegsKept s u [Reg.ENG_E_CMDS e, lo, hi, Reg.XFR_E_BEATS_LO t, Reg.XFR_E_BEATS_HI t]
              ∧ u = { s with regs := u.regs, engines := u.engines, mem := u.mem, free := u.free })
          ∧ ((s.copyMem src a n).regionsOk e dst n = false → ∃ u, exec (.loadw e) s = .next u
              ∧ u.rd (Reg.ENG_E_ERR e) = BitVec.ofNat 32 (0x16000000 + d.seq % 65536)))

/-- A command whose row is not there waits at the head; a chain forwards its bodies, runs them in order once each is at the
head of its member, and one of two members leaves both members' sums in their slots (R129, R130, R148, R149). -/
def Obligations.EngineWaitsAndChain : Prop :=
  ∀ (s : State) (e i : Nat) (d : Descr) (ds : List Descr), s.engAt e i d ds →
    let g := s.engine e
    let waits (v : State) (r : Res) : Prop := ∃ t, r = .next (v.setEngine e { v.engine e with waitTick := some t })
    (∀ c, (d.cls, c) ∈ [(2, Instr.tapsum e), (3, .matmul e), (4, .dwdiag e), (7, .bwd e)] →
      (∃ t ∈ d.tags, (SMap.get {} g.tags t).valid = false) → waits s (exec c s))
    ∧ (d.cls = 5 → d.word0Bare = true → bits64 (d.w 1) 61 0 = 0 → d.w 2 = 0 → d.w 3 = 0 →
        let n := bits64 (d.w 1) 63 62 + 1
        let members := s.chainMembers e n
        2 ≤ n → members.length = n →
        (d.sent = false → (ds.length < n ∨ ∃ x ∈ members.drop 1, (s.engine x).takesBody = false) → waits s (exec (.chain e) s))
        ∧ (d.sent = true ∨ (n ≤ ds.length ∧ ∀ x ∈ members.drop 1, (s.engine x).takesBody = true) →
            let v := if d.sent then s else s.sendBodies e d (ds.take n) members
            let bs := v.sentBodies e d members
            (bs.length < n ∨ v.chainWaits e d bs = true → waits v (exec (.chain e) s))
            ∧ (n ≤ bs.length → v.chainWaits e d bs = false →
                exec (.chain e) s = .next ((bs.zipIdx.foldl (fun v x => v.modEngine x.1.2 (fun g =>
                  { g with queue := g.queue.drop (if x.2 = 0 then 2 else 1), waitTick := none })) v).chainRun d (bs.map (·.1)) bs 0 e 0)))
        ∧ ∀ f b0 b1 rest, n = 2 → members = [e, f] → d.sent = false → ds = b0 :: b1 :: rest → s.clean →
            d.notify = false → s.engOwner f = some i → e ≠ f → s.engPhys e ≠ s.engPhys f → s.engPhys e < 68 → s.engPhys f < 68 →
            (s.engine f).queue = [] → (s.engine f).stopped = false → (s.engine f).swap = 0 →
            (s.engine f).epis = [] → (s.engine f).fills = [] →
            let p := s.engPhys e
            let q := s.engPhys f
            let h := s.engine f
            (∀ t ∈ b0.tags, (SMap.get {} g.tags t).valid = true) → (∀ t ∈ b1.tags, (SMap.get {} h.tags t).valid = true) →
            s.engCause p g b0 true = none → s.engCause q h b1 true = none →
            bodyOk [b0, b1] 0 = true → bodyOk [b0, b1] 1 = true → b0.epi = 0 → b1.epi = 0 →
            (b0.accInit = 0 ∨ b0.accInit = 3) → (b1.accInit = 0 ∨ b1.accInit = 3 ∨ (b1.accInit = 2 ∧ b1.accBase = b0.accBase)) →
            ∀ m0 m1, engMode b0.actFmt b0.wtFmt = some m0 → engMode b1.actFmt b1.wtFmt = some m1 →
            let base0 : Int := (g.maxExp b0 : Int) - (if m0.integer then (b0.rowSpan : Int) else 0)
            let base1 : Int := if b1.accInit = 2 then base0 else (h.maxExp b1 : Int) - (if m1.integer then (b1.rowSpan : Int) else 0)
            ∃ u, exec (.chain e) s = .next u ∧ (u.engine e).queue = rest ∧ (u.engine f).queue = []
              ∧ (∀ k, k < b0.outCount → u.accSlot p (b0.accBase + k)
                  = s.reducePixel p g b0 m0.integer base0 (b0.outFirst + k) (s.accStart p b0 (b0.accBase + k)))
              ∧ (∀ k, k < b1.outCount → u.accSlot q (b1.accBase + k) = s.reducePixel q h b1 m1.integer base1 (b1.outFirst + k)
                  (if b1.accInit = 2 then u.accSlot p (b1.accBase + k) else s.accStart q b1 (b1.accBase + k)))
              ∧ u.rd (Reg.ENG_E_CMDS e) = satAdd (s.rd (Reg.ENG_E_CMDS e)) 1
              ∧ u.rd (Reg.ENG_E_CMDS f) = satAdd (s.rd (Reg.ENG_E_CMDS f)) 1
              ∧ (∀ a, ¬(slotAddrAcc p b0.accBase ≤ a ∧ a < slotAddrAcc p b0.accBase + 256 * b0.outCount) →
                  ¬(slotAddrAcc q b1.accBase ≤ a ∧ a < slotAddrAcc q b1.accBase + 256 * b1.outCount) → u.rdByte a = s.rdByte a))

/-- An epilogue sends one data token of its row, whose bytes stand in the line buffer that the token names, and completes;
a fill brings its pixels into staging and makes its tag valid (R115, R128, R129, R131, R145, R157, R158, R216). -/
def Obligations.EpilogueAndFill : Prop :=
  ∀ (s : State) (e i : Nat), s.clean → s.engOwner e = some i →
    let g := s.engine e
    let p := s.engPhys e
    (∀ x xs q, g.epis = x :: xs → x.d.notify = false → s.localQueue i x.d.outQueue = some q →
      (s.queue q).qkind = qToken → (s.queue q).full = false → s.stoppedReader q = none →
      let row := s.epiRow p x.d x.eBase
      let done (u : State) : Prop := exec (.epilogue e) s = .next u ∧ u.engine e = { g with epis := xs }
        ∧ (∀ m, m ≠ e → u.engine m = s.engine m) ∧ u.rd (Reg.ENG_E_CMDS e) = satAdd (s.rd (Reg.ENG_E_CMDS e)) 1
      ((s.inst i).live = false → ∃ u, done u ∧ u.queues = s.queues)
      ∧ ((s.inst i).live = true → ∃ u t, done u
          ∧ (u.queue q).entries = (s.queue q).entries ++ [t] ∧ (u.queue q).wr = ((s.queue q).wr + 1) % (s.queue q).ptrMod
          ∧ t.kind = kindData ∧ t.epoch = (s.queue q).epoch ∧ t.tokLine = x.d.line ∧ t.fmt = BitVec.ofNat 5 x.d.outFmt
          ∧ t.firstPx = x.d.outFirst ∧ t.pxCount = x.d.outCount ∧ t.chans = 64
          ∧ t.r = BitVec.ofNat 8 row.1 ∧ t.flags = s.engFlags e x.d.line x.flags x.tainted
          ∧ (∀ sd ed y, s.edgeOf i x.d.outQueue = some (sd, ed) → ed.window ≠ 0xFF → s.window i ed.window = some y →
              ed.base + row.2.length ≤ y.size → t.window = ed.window ∧ 64 * t.offset + row.2.length ≤ y.size
              ∧ u.rdBytes (memAddr .bulk y.die (y.base + 64 * t.offset)) row.2.length = row.2)
          ∧ ∀ m, m ≠ q → u.queue m = s.queue m))
    ∧ (∀ f fs as, g.fills = f :: fs → g.fillHeld f = false → g.stopped = false → g.swap = 0 → f.ok = true →
        let t := f.token
        let k := f.pxBits / 8
        let tag : RowTag := { base := f.base, firstPx := f.firstPx, px := f.pxCount, chans := t.chans, pitch := f.pitch
                              fmt := t.fmt, r := t.r, valid := true, flags := t.flags }
        s.rowBytes i ((s.inst i).stageOfEngine e) t.window t.offset f.maxBytes = some as →
        (t.window = 0xFF ∨ ((∃ q, s.localQueue i f.queue = some q ∧ ceilDiv (f.pxCount * f.pxBits) 8 ≤ (s.queue q).maxb.toNat
            ∧ s.mayStart q = true) ∧ ∃ w, s.window i t.window = some w ∧ w.access.testBit 0 = true)) →
        ∃ u, exec (.fillDone e) s = .next u ∧ u.engine e = { g with fills := fs, tags := SMap.set {} f.tag tag g.tags }
          ∧ u.queues = s.queues ∧ u.tiles = s.tiles ∧ u.cores = s.cores ∧ u.insts = s.insts
          ∧ (t.zc = false → f.pxBits % 8 = 0 → k ≤ f.pitch → f.base + f.pxCount * f.pitch ≤ 0x20000 →
              (∀ x b, x < f.pxCount → b < k → u.rdByte (memAddr .staging p (f.base + x * f.pitch + b))
                = s.rdByte (as.getD ((f.firstPx - t.firstPx + x) * k + b) 0))
              ∧ BytesKept s u (memAddr .staging p f.base) (f.pxCount * f.pitch)))

/-- A scrubber goes through its memory at its rate, and corrects and counts a single flipped bit without poisoning
its word; a write of the whole word overtakes its report (R126, R150, R183, R218, R338, R341, R342, R343). -/
def Obligations.Scrubbers : Prop :=
  ∀ (s : State) (u r : Nat),
    let is (ok : Prop) (c : List (Nat × Bool) → List Nat → Instr) (at_ : Nat → Nat) (lo size rate : Nat) (on : Bool) : Prop :=
      ok →
      (∀ hits rewritten, on = false → exec (c hits rewritten) s = .next (s.strike at_ hits))
      ∧ (on = true → s.upsets = [] → exec (c [] []) s = .next { s with flt := { s.flt with
          scrubAt := SMap.set 0 lo ((SMap.get 0 s.flt.scrubAt lo % size + min rate size) % size) s.flt.scrubAt } })
      ∧ ∀ w, on = true → lo ≤ w → w < lo + min rate size → SMap.get 0 s.flt.scrubAt lo = 0 →
        (s.upsets = [(w, 1)] → ∃ t, exec (c [] []) s = .next t ∧ t.upsets = [] ∧ t.poison = s.poison ∧ t.mem = s.mem
          ∧ t.insts = s.insts ∧ t.queues = s.queues)
        ∧ (s.upsets = [(w, 2)] → w % 8 = 0 → ∃ t, exec (c [] [w - lo]) s = .next t ∧ t.upsets = [] ∧ t.poison = s.poison
            ∧ t.mem = s.mem ∧ t.insts = s.insts ∧ t.queues = s.queues)
    let plain (lo size o : Nat) : Nat := lo + o % size
    let tile := memAddr .tile u (0x4000 * r)
    is (u < 68) (.engineScrub u ⟨·, ·⟩) (engineByte u) (memAddr .weight u 0) 0x100000 (256 * s.fld Reg.ENG_SCRUB_RATE 11 0)
      (s.bit Reg.ENG_CTRL 0)
    ∧ is (u < 66 ∧ r < 32) (.tileScrub u r ⟨·, ·⟩) (plain tile 0x4000) tile 0x4000 (16 * s.fld Reg.TIL_SCRUB_RATE 9 0)
        (s.bit Reg.TIL_CTRL 0)
    ∧ is (u < 128) (.coreScrub u ⟨·, ·⟩) (plain (memAddr .core u 0) 0x20000) (memAddr .core u 0) 0x20000
        (64 * s.fld Reg.SVC_SCRUB_RATE 9 0) (s.bit Reg.SVC_CTRL 0)
    ∧ is (u < 4) (.bulkScrub u ⟨·, ·⟩) (plain (memAddr .bulk u 0) 0x6000000) (memAddr .bulk u 0) 0x6000000
        (64 * s.fld Reg.FLT_BULK_SCRUB 11 0) (s.bit Reg.FLT_CTRL 0)
    ∧ is (u = 4) (.bulkScrub u ⟨·, ·⟩) (plain (memAddr .commit 0 0) 0x800000) (memAddr .commit 0 0) 0x800000
        (64 * s.fld Reg.FLT_BULK_SCRUB 11 0) (s.bit Reg.FLT_CTRL 0)
    ∧ (∀ w, u < 128 → s.bit Reg.SVC_CTRL 0 = true → s.upsets = [(w, 1)] → memAddr .core u 0 ≤ w →
        w < memAddr .core u 0 + min (64 * s.fld Reg.SVC_SCRUB_RATE 9 0) 0x20000 →
        SMap.get 0 s.flt.scrubAt (memAddr .core u 0) = 0 →
        ∃ t, exec (.coreScrub u ⟨[], []⟩) s = .next t ∧ t.rd (Reg.SVC_K_CE u) = satAdd (s.rd (Reg.SVC_K_CE u)) 1
          ∧ t.rd (Reg.SVC_K_EVT u) = s.rd (Reg.SVC_K_EVT u) ||| 8)

/-- Scalar, vector and predicate registers hold what is written; s0 reads 0 and p0 all ones, and writes to them are
discarded (R186). -/
def Obligations.RegisterFileLaws : Prop :=
  (∀ (x : Core) (n m : BitVec 5) (v : Word), (x.sset n v).sget m = if m = n ∧ n ≠ 0 then v else x.sget m)
  ∧ (∀ (x : Core) (v : Word), x.sset 0 v = x ∧ x.sget 0 = 0)
  ∧ (∀ (x : Core) (n m : BitVec 4) (v : BitVec 512), (x.vset n v).vget m = if m = n then v else x.vget m)
  ∧ (∀ (g : Nat → Word) (j : Nat), j < 16 → lane (ofLanes g) j = g j)
  ∧ (∀ (x : Core) (n m : BitVec 3) (v : BitVec 16), (x.pset n v).pget m = if m = n ∧ n ≠ 0 then v else x.pget m)
  ∧ (∀ (x : Core) (v : BitVec 16), x.pset 0 v = x ∧ x.pget 0 = 0xFFFF)

/-- The scalar ALU functions write the result of R190's table to s_d and nothing else (R190). -/
def Obligations.ScalarAluResults : Prop :=
  ∀ (s : State) (k : Nat) (d a b : BitVec 5),
    let c := s.core k
    let x := c.sget a
    let y := c.sget b
    let n := y.toNat % 32
    let is (v : Word) (i : Instr) : Prop := Runs s k { c.sset d v with pc := c.pc + 4 } i
    is (x + y) (.add k d a b 0) ∧ is (x - y) (.sub k d a b 0)
    ∧ is (x &&& y) (.and k d a b 0) ∧ is (x ||| y) (.or k d a b 0)
    ∧ is (x ^^^ y) (.xor k d a b 0)
    ∧ is (x <<< n) (.sll k d a b 0) ∧ is (x >>> n) (.srl k d a b 0)
    ∧ is (BitVec.ofInt 32 (x.toInt.tdiv (2 ^ n))) (.sra k d a b 0)
    ∧ is (BitVec.ofInt 32 (x.toInt / 2 ^ n)) (.sraf k d a b 0)
    ∧ is (if x.toInt < y.toInt then 1 else 0) (.slt k d a b 0)
    ∧ is (if x.toNat < y.toNat then 1 else 0) (.sltu k d a b 0)
    ∧ is (x * y) (.mul k d a b 0)
    ∧ is (BitVec.ofInt 32 (x.toInt * y.toInt / 2 ^ 32)) (.mulh k d a b 0)
    ∧ is (BitVec.ofNat 32 (x.toNat * y.toNat / 2 ^ 32)) (.mulhu k d a b 0)
    ∧ is (if y = 0 then 0xFFFFFFFF else BitVec.ofInt 32 (x.toInt.tdiv y.toInt)) (.div k d a b 0)
    ∧ is (if y = 0 then 0xFFFFFFFF else BitVec.ofNat 32 (x.toNat / y.toNat)) (.divu k d a b 0)
    ∧ is (if y = 0 then x else BitVec.ofInt 32 (x.toInt.tmod y.toInt)) (.rem k d a b 0)
    ∧ is (if y = 0 then x else BitVec.ofNat 32 (x.toNat % y.toNat)) (.remu k d a b 0)
    ∧ is (BitVec.ofInt 32 (min x.toInt y.toInt)) (.min k d a b 0)
    ∧ is (BitVec.ofInt 32 (max x.toInt y.toInt)) (.max k d a b 0)
    ∧ is (BitVec.ofNat 32 ((List.range 32).takeWhile (fun j => !x.getLsbD (31 - j))).length) (.clz k d a 0 0)
    ∧ is (BitVec.ofNat 32 ((List.range 32).countP (fun j => x.getLsbD j))) (.popc k d a 0 0)

/-- ADDI, ANDI, ORI, XORI, SLTI, LUI, SHI and VGET write the results of R189's table to s_d and nothing else (R188,
R189). -/
def Obligations.ScalarImmediateResults : Prop :=
  ∀ (s : State) (k : Nat) (d a : BitVec 5) (imm : BitVec 16),
    let c := s.core k
    let x := c.sget a
    let is (v : Word) (i : Instr) : Prop := Runs s k { c.sset d v with pc := c.pc + 4 } i
    is (x + imm.signExtend 32) (.addi k d a imm)
    ∧ is (x &&& imm.setWidth 32) (.andi k d a imm)
    ∧ is (x ||| imm.setWidth 32) (.ori k d a imm)
    ∧ is (x ^^^ imm.setWidth 32) (.xori k d a imm)
    ∧ is (if x.toInt < imm.toInt then 1 else 0) (.slti k d a imm)
    ∧ is (imm.setWidth 32 <<< 16) (.lui k d 0 imm)
    ∧ (∀ n : BitVec 5,
        is (x <<< n.toNat) (.shi k d a (0#2 ++ 0#9 ++ n))
        ∧ is (x >>> n.toNat) (.shi k d a (1#2 ++ 0#9 ++ n))
        ∧ is (BitVec.ofInt 32 (x.toInt.tdiv (2 ^ n.toNat))) (.shi k d a (2#2 ++ 0#9 ++ n))
        ∧ is (BitVec.ofInt 32 (x.toInt / 2 ^ n.toNat)) (.shi k d a (3#2 ++ 0#9 ++ n)))
    ∧ (∀ va j : BitVec 4, is (lane (c.vget va) j.toNat) (.vget k d (0#1 ++ va) (0#12 ++ j)))

/-- Branches and jumps move the pc as R189 says; JAL and JALR write pc + 4 to s_d (R189). -/
def Obligations.BranchAndJumpResults : Prop :=
  ∀ (s : State) (k : Nat) (d a b : BitVec 5) (imm : BitVec 16) (off : BitVec 21),
    let c := s.core k
    let x := c.sget a
    let y := c.sget b
    let goes (t : Prop) [Decidable t] (i : Instr) : Prop :=
      Runs s k { c with pc := if t then c.pc + BitVec.ofInt 17 (4 * imm.toInt) else c.pc + 4 } i
    let link : Word := BitVec.ofNat 32 (c.pc.toNat + 4)
    let there : Int := c.pc.toNat + 4 * off.toInt
    let to_ : Nat := (x + imm.signExtend 32).toNat / 4 * 4
    goes (x = y) (.beq k a b imm) ∧ goes (x ≠ y) (.bne k a b imm)
    ∧ goes (x.toInt < y.toInt) (.blt k a b imm) ∧ goes (y.toInt ≤ x.toInt) (.bge k a b imm)
    ∧ goes (x.toNat < y.toNat) (.bltu k a b imm) ∧ goes (y.toNat ≤ x.toNat) (.bgeu k a b imm)
    ∧ (0 ≤ there → there < 0x20000 →
        Runs s k { c.sset d link with pc := BitVec.ofInt 17 there } (.jal k d off))
    ∧ (to_ < 0x20000 → Runs s k { c.sset d link with pc := BitVec.ofNat 17 to_ } (.jalr k d a imm))

/-- LW, LH, LHU, LB and LBU load little-endian from local SRAM, sign- or zero-extended (R187, R189, R87). -/
def Obligations.ScalarLoads : Prop :=
  ∀ (s : State) (k : Nat) (d a : BitVec 5) (imm : BitVec 16),
    let c := s.core k
    let at_ := ((c.sget a) + imm.signExtend 32).toNat
    let byte (j : Nat) : Byte := s.rdByte (memAddr .core k (at_ + j))
    let is (n : Nat) (v : Word) (i : Instr) : Prop :=
      at_ % n = 0 → at_ + n ≤ 0x20000 → s.sound (memAddr .core k at_) n →
        Runs s k { c.sset d v with pc := c.pc + 4 } i
    is 4 (byte 3 ++ byte 2 ++ byte 1 ++ byte 0) (.lw k d a imm)
    ∧ is 2 ((byte 1 ++ byte 0).signExtend 32) (.lh k d a imm)
    ∧ is 2 ((byte 1 ++ byte 0).setWidth 32) (.lhu k d a imm)
    ∧ is 1 ((byte 0).signExtend 32) (.lb k d a imm)
    ∧ is 1 ((byte 0).setWidth 32) (.lbu k d a imm)

/-- SW, SH, SB, VST and VSTE store exactly their bytes in local SRAM and nothing else (R187, R189, R194, R87). -/
def Obligations.CoreStores : Prop :=
  ∀ (s : State) (k : Nat) (d a : BitVec 5) (imm : BitVec 16),
    let c := s.core k
    let at_ := ((c.sget a) + imm.signExtend 32).toNat
    let y := c.sget d
    let v := c.vget (d.extractLsb' 1 4)
    let is (base n : Nat) (bs : Nat → Byte) (i : Instr) : Prop :=
      s.ready k i → base + n ≤ 0x20000 → ∃ t m, exec i s = .next t
        ∧ CoreBecomes s t k { c with unseen := m, pc := c.pc + 4 } ∧ (∀ b, t.coreByte k b = s.coreByte k b)
        ∧ Stored s t (memAddr .core k base) n bs
        ∧ t = { s with cores := t.cores, regs := t.regs, mem := t.mem, poison := t.poison, upsets := t.upsets }
    (at_ % 4 = 0 → is at_ 4 (fun j => y.extractLsb' (8 * j) 8) (.sw k d a imm))
    ∧ (at_ % 2 = 0 → is at_ 2 (fun j => y.extractLsb' (8 * j) 8) (.sh k d a imm))
    ∧ is at_ 1 (fun _ => y.extractLsb' 0 8) (.sb k d a imm)
    ∧ (d.getLsbD 0 = false → at_ % 4 = 0 → is at_ 64 (fun j => v.extractLsb' (8 * j) 8) (.vst k d a imm))
    ∧ (∀ f : BitVec 5, fmtListed f.toNat = true → fmtStored f.toNat ≤ 16 →
        let w := fmtStored f.toNat
        ∃ bs : Nat → Byte,
          (∀ m i, m < 2 * w → i < 8 → (bs m).getLsbD i
            = (decide ((8 * m + i) % w < fmtWidth f.toNat) && (lane v ((8 * m + i) / w)).getLsbD ((8 * m + i) % w)))
          ∧ is (c.sget a).toNat (2 * w) bs (.vste k d a (0#11 ++ f)))

/-- VLD and VLDE load 64 bytes or 16 elements from local SRAM into v(d[4:1]) (R187, R189, R194, R87). -/
def Obligations.VectorLoads : Prop :=
  ∀ (s : State) (k : Nat) (d a : BitVec 5) (imm : BitVec 16),
    let c := s.core k
    let at_ := ((c.sget a) + imm.signExtend 32).toNat
    let el := (c.sget a).toNat
    let n := d.extractLsb' 1 4
    (d.getLsbD 0 = false → at_ % 4 = 0 → at_ + 64 ≤ 0x20000 → s.sound (memAddr .core k at_) 64 →
      ∃ v : BitVec 512, (∀ j, j < 64 → v.extractLsb' (8 * j) 8 = s.rdByte (memAddr .core k (at_ + j)))
        ∧ Runs s k { c.vset n v with pc := c.pc + 4 } (.vld k d a imm))
    ∧ (∀ f : BitVec 5, fmtListed f.toNat = true → fmtStored f.toNat ≤ 16 →
        let w := fmtStored f.toNat
        el + 2 * w ≤ 0x20000 → s.sound (memAddr .core k el) (2 * w) →
        ∃ v : BitVec 512,
          (∀ j i, j < 16 → i < 32 → (lane v j).getLsbD i
            = (decide (i < fmtWidth f.toNat) && (s.rdByte (memAddr .core k (el + (w * j + i) / 8))).getLsbD ((w * j + i) % 8)))
          ∧ Runs s k { c.vset n v with pc := c.pc + 4 } (.vlde k d a (0#11 ++ f)))

/-- Each vector operation writes the enabled lanes of vd with the function of R192's table and leaves the others
(R191). -/
def Obligations.VectorLaneResults : Prop :=
  ∀ (s : State) (k : Nat) (vd va : BitVec 4) (b : BitVec 5) (bs : BitVec 1) (p : BitVec 3),
    (bs = 1 ∨ b.getLsbD 4 = false) →
    let c := s.core k
    let m := c.pget p
    let o := c.vget vd
    let u := c.vget va
    let w (j : Nat) : Word := if bs = 1 then c.sget b else lane (c.vget (b.extractLsb' 0 4)) j
    let made (g : Nat → Word) (i : Instr) : Prop := Runs s k { c.vset vd (ofLanes g) with pc := c.pc + 4 } i
    let is (g : Word → Word → Word → Word) (i : Instr) : Prop :=
      made (fun j => if m.getLsbD j then g (lane o j) (lane u j) (w j) else lane o j) i
    let sat (x : Int) : Word := BitVec.ofInt 32 (max (-(2 ^ 31)) (min (2 ^ 31 - 1) x))
    is (fun _ x y => sat (x.toInt + y.toInt)) (.vadd k vd va b bs p)
    ∧ is (fun _ x y => sat (x.toInt - y.toInt)) (.vsub k vd va b bs p)
    ∧ is (fun _ x y => x * y) (.vmul k vd va b bs p)
    ∧ is (fun _ x y => BitVec.ofInt 32 (min x.toInt y.toInt)) (.vmin k vd va b bs p)
    ∧ is (fun _ x y => BitVec.ofInt 32 (max x.toInt y.toInt)) (.vmax k vd va b bs p)
    ∧ is (fun _ x y => x &&& y) (.vand k vd va b bs p)
    ∧ is (fun _ x y => x ||| y) (.vor k vd va b bs p)
    ∧ is (fun _ x y => x ^^^ y) (.vxor k vd va b bs p)
    ∧ is (fun _ x y => x <<< (y.toNat % 32)) (.vsll k vd va b bs p)
    ∧ is (fun _ x y => x >>> (y.toNat % 32)) (.vsrl k vd va b bs p)
    ∧ is (fun _ x y => BitVec.ofInt 32 (x.toInt.tdiv (2 ^ (y.toNat % 32)))) (.vsra k vd va b bs p)
    ∧ is (fun _ x _ => sat x.toInt.natAbs) (.vabs k vd va b bs p)
    ∧ is (fun _ x y => toF32 (addVal (f32 x) (f32 y))) (.vfadd k vd va b bs p)
    ∧ is (fun _ x y => toF32 (subVal (f32 x) (f32 y))) (.vfsub k vd va b bs p)
    ∧ is (fun _ x y => toF32 (mulVal (f32 x) (f32 y))) (.vfmul k vd va b bs p)
    ∧ is (fun z x y => toF32 (addVal (f32 z) (mulVal (f32 x) (f32 y)))) (.vfma k vd va b bs p)
    ∧ is (fun _ x _ => toF32 (sqrtVal (f32 x))) (.vfsqrt k vd va b bs p)
    ∧ is (fun _ x y => toF32 (scaleVal y.toInt (f32 x))) (.vfscl k vd va b bs p)
    ∧ is (fun _ x _ => if f32 x = .nan then nan32 else x &&& 0x7FFFFFFF) (.vfabs k vd va b bs p)
    ∧ made (fun j => if m.getLsbD j then lane u j else w j) (.vsel k vd va b bs p)
    ∧ made (fun j => if m.getLsbD j then c.sget b else lane o j) (.vbcst k vd 0 b 1 p)
    ∧ made (fun j => if m.getLsbD j then lane u ((w j).toNat % 16) else lane o j) (.vperm k vd va b bs p)
    ∧ made (fun j => if m.getLsbD j then lane u ((j + (c.sget b).toNat) % 16) else lane o j)
        (.vrot k vd va b 1 p)

/-- VFMIN and VFMAX choose between their operands and VFDIV divides, on the enabled lanes only (R191, R192, R90). -/
def Obligations.VectorChoiceResults : Prop :=
  ∀ (s : State) (k : Nat) (vd va : BitVec 4) (b : BitVec 5) (bs : BitVec 1) (p : BitVec 3),
    (bs = 1 ∨ b.getLsbD 4 = false) →
    let c := s.core k
    let m := c.pget p
    let o := c.vget vd
    let u := c.vget va
    let w (j : Nat) : Word := if bs = 1 then c.sget b else lane (c.vget (b.extractLsb' 0 4)) j
    let is (good : Word → Word → Word → Prop) (i : Instr) : Prop :=
      ∃ v : BitVec 512, RunsFree s k { c.vset vd v with pc := c.pc + 4 } i
        ∧ ∀ j, j < 16 → if m.getLsbD j then good (lane u j) (w j) (lane v j) else lane v j = lane o j
    let pick (lt : Word → Word → Prop) (x y z : Word) : Prop :=
      (isNan x = true → z = canon y) ∧ (isNan y = true → z = canon x) ∧ (z = canon x ∨ z = canon y)
      ∧ (isNan x = false → isNan y = false → (lt x y → z = x) ∧ (lt y x → z = y))
    is (pick (fun x y => ltVal (f32 x) (f32 y) = true)) (.vfmin k vd va b bs p)
    ∧ is (pick (fun x y => ltVal (f32 y) (f32 x) = true)) (.vfmax k vd va b bs p)
    ∧ is (fun x y z => ∀ q, divVal (f32 x) (f32 y) = some q → z = toF32 q) (.vfdiv k vd va b bs p)

/-- Vector compares write predicate vd[2:0], 0 in disabled lanes; VPMASK writes s_b[15:0] (R191, R192). -/
def Obligations.VectorPredicateResults : Prop :=
  ∀ (s : State) (k : Nat) (vd : BitVec 3) (va : BitVec 4) (b : BitVec 5) (bs : BitVec 1) (p : BitVec 3),
    (bs = 1 ∨ b.getLsbD 4 = false) →
    let c := s.core k
    let m := c.pget p
    let u := c.vget va
    let w (j : Nat) : Word := if bs = 1 then c.sget b else lane (c.vget (b.extractLsb' 0 4)) j
    let is (g : Word → Word → Bool) (i : Instr) : Prop :=
      ∃ q : BitVec 16, (∀ j, j < 16 → q.getLsbD j = (m.getLsbD j && g (lane u j) (w j)))
        ∧ Runs s k { c.pset vd q with pc := c.pc + 4 } i
    is (fun x y => decide (x = y)) (.vcmpeq k (0#1 ++ vd) va b bs p)
    ∧ is (fun x y => decide (x.toInt < y.toInt)) (.vcmplt k (0#1 ++ vd) va b bs p)
    ∧ is (fun x y => decide (x.toInt ≤ y.toInt)) (.vcmple k (0#1 ++ vd) va b bs p)
    ∧ is (fun x y => eqVal (f32 x) (f32 y)) (.vfcmpeq k (0#1 ++ vd) va b bs p)
    ∧ is (fun x y => ltVal (f32 x) (f32 y)) (.vfcmplt k (0#1 ++ vd) va b bs p)
    ∧ is (fun x y => ltVal (f32 x) (f32 y) || eqVal (f32 x) (f32 y)) (.vfcmple k (0#1 ++ vd) va b bs p)
    ∧ Runs s k { c.pset vd ((c.sget b).extractLsb' 0 16) with pc := c.pc + 4 } (.vpmask k (0#1 ++ vd) va b 1 p)

/-- Reductions take the enabled lanes, write lane 0 of vd and leave the other lanes (R191, R192). -/
def Obligations.VectorReductionResults : Prop :=
  ∀ (s : State) (k : Nat) (vd va : BitVec 4) (b : BitVec 5) (bs : BitVec 1) (p : BitVec 3),
    (bs = 1 ∨ b.getLsbD 4 = false) →
    let c := s.core k
    let o := c.vget vd
    let xs := ((List.range 16).filter (fun j => (c.pget p).getLsbD j)).map (lane (c.vget va))
    let is (good : Word → Prop) (i : Instr) : Prop :=
      ∃ v : Word, good v
        ∧ RunsFree s k { c.vset vd (ofLanes (fun j => if j = 0 then v else lane o j)) with pc := c.pc + 4 } i
    let best (le : Word → Word → Prop) (v : Word) : Prop := xs ≠ [] → v ∈ xs ∧ ∀ x ∈ xs, le x v
    let num := xs.filter (fun x => !isNan x)
    let bestF (le : Word → Word → Prop) (v : Word) : Prop := if num = [] then v = 0 else v ∈ num ∧ ∀ x ∈ num, le x v
    is (fun v => v = BitVec.ofInt 32 (max (-(2 ^ 31)) (min (2 ^ 31 - 1) ((xs.map BitVec.toInt).sum))))
        (.vrsum k vd va b bs p)
    ∧ is (best (fun x v => x.toInt ≤ v.toInt)) (.vrmax k vd va b bs p)
    ∧ is (best (fun x v => v.toInt ≤ x.toInt)) (.vrmin k vd va b bs p)
    ∧ is (fun v => ∀ x ys, xs = x :: ys → v = ys.foldl (fun t y => toF32 (addVal (f32 t) (f32 y))) (canon x))
        (.vfrsum k vd va b bs p)
    ∧ is (bestF (fun x v => ltVal (f32 v) (f32 x) = false)) (.vfrmax k vd va b bs p)
    ∧ is (bestF (fun x v => ltVal (f32 x) (f32 v) = false)) (.vfrmin k vd va b bs p)

/-- VCVT and SCVT convert by R98; an SR instruction takes one draw for every element, its lane enabled or not (R97). -/
def Obligations.ConversionResults : Prop :=
  ∀ (s : State) (k : Nat) (vd va : BitVec 4) (d a src dst : BitVec 5) (p : BitVec 3),
    fmtConv src.toNat = true → fmtConv dst.toNat = true →
    let c := s.core k
    let m := c.pget p
    let conv (x : Word) (r : Option Nat) : Word :=
      inLane dst.toNat (encodeElem dst.toNat c.zp.toNat (decodeElem src.toNat c.zp.toNat x.toNat) r)
    let vec (r : Nat → Option Nat) : BitVec 512 :=
      ofLanes (fun j => if m.getLsbD j then conv (lane (c.vget va) j) (r j) else lane (c.vget vd) j)
    let state (n : Nat) : Word := Nat.repeat (fun x => (draw16 x).1) n c.lfsr
    let draw (n : Nat) : Nat := (draw16 (state n)).2
    Runs s k { c.vset vd (vec (fun _ => none)) with pc := c.pc + 4 } (.vcvt k vd va src dst 0 p 0)
    ∧ Runs s k { c.vset vd (vec (fun j => some (draw j))) with lfsr := state 16, pc := c.pc + 4 }
        (.vcvt k vd va src dst 1 p 0)
    ∧ Runs s k { c.sset d (conv (c.sget a) none) with pc := c.pc + 4 } (.scvt k d a src dst 0 0)
    ∧ Runs s k { c.sset d (conv (c.sget a) (some (draw 0))) with lfsr := state 1, pc := c.pc + 4 }
        (.scvt k d a src dst 1 0)

/-- The word of every S-profile instruction decodes to it with every operand, and the decoding of every word is encoded by that
word; a major opcode that is not listed decodes to nothing (R188, R189, R190, R192, R195). -/
def Obligations.CoreWordsRoundTrip : Prop :=
  ∀ (i : Instr) (k : Nat) (w : BitVec 32),
    (encodeCore i = some (k, w) ↔ decodeCore k w = some i)
    ∧ ((field w 26 6).toNat = 0 ∨ 0x22 ≤ (field w 26 6).toNat → decodeCore k w = none)

/-- A conversion to a floating-point format by RTZ gives the representable value of largest magnitude not above the
exact one; a draw of the rounding generator gives R95's first draw and state, and the generator never holds 0 (R93, R95). -/
def Obligations.RoundingResults : Prop :=
  (draw16 1 = (0xB6F6B6C3, 0xDB6D)
    ∧ (∀ x : Word, x ≠ 0 → (draw16 x).1 ≠ 0)
    ∧ (∀ x : Word, lfsrStore x ≠ 0) ∧ (∀ i k : Nat, lfsrSeed i k ≠ 0))
  ∧ ∀ c ∈ [fmtFP4, fmtE4M3, fmtE5M2, fmtBF16, fmtFP16, fmtFP32], ∀ (neg : Bool) (m : Nat) (e : Int),
    let f := floatFmt c
    let k := floatMag f m e none
    let mag (n : Nat) : Rat := match floatVal f n with | .fin _ m' e' => (m' : Rat) * (2 : Rat) ^ e' | _ => 0
    encodeFloat c (.fin neg m e) none = signBit f neg + k ∧ k ≤ f.top
    ∧ mag k ≤ (m : Rat) * (2 : Rat) ^ e ∧ (k < f.top → (m : Rat) * (2 : Rat) ^ e < mag (k + 1))

/-- Words that are no instruction, illegal encodings and illegal accesses stop the core with their cause before the instruction
changes any state; a poisoned fetch stops it with cause 9 (R187, R188, R189, R199, R201). -/
def Obligations.CoreStopCauses : Prop :=
  ∀ (s : State) (k : Nat) (d a b : BitVec 5) (imm : BitVec 16) (z : BitVec 3) (q : BitVec 14),
    let c := s.core k
    let at_ := (c.sget a + imm.signExtend 32).toNat
    let fetch := memAddr .core k c.pc.toNat
    let stops (n : Nat) (i : Instr) : Prop := s.ready k i → exec i s = .next (s.coreStop k n)
    (z ≠ 0 → stops 2 (.add k d a b z) ∧ stops 2 (.popc k d a b z))
    ∧ (a ≠ 0 → stops 2 (.lui k d a imm))
    ∧ (at_ % 4 ≠ 0 → stops 3 (.lw k d a imm) ∧ stops 3 (.sw k d a imm))
    ∧ (at_ % 2 ≠ 0 → stops 3 (.lh k d a imm) ∧ stops 3 (.sh k d a imm))
    ∧ (at_ % 4 = 0 → 0x20000 ≤ at_ → stops 4 (.lw k d a imm) ∧ stops 4 (.sw k d a imm))
    ∧ (s.coreQueue k q = none → stops 5 (.qwait k d q 0) ∧ stops 5 (.qcnt k d q 0))
    ∧ ((∀ g, s.stageOfCoreK k = some g → hasBit g.engines (q.toNat % 64) = false) → stops 6 (.efill k d q 0))
    ∧ (ctrlReg (q.toNat % 4096) = none → stops 7 (.crd k d q 0) ∧ stops 7 (.cwr k d q 0))
    ∧ (q.toNat % 4096 ≤ 8 → stops 8 (.cwr k d q 0))
    ∧ (fmtConv a.toNat = false → stops 1 (.scvt k d b a b 0 0))
    ∧ (c.active = true → s.sound fetch 4 → Sys2Proof.decodeCore k (s.fetchWord k) = none →
        exec (.add k d a b z) s = .next (s.coreStop k 1) ∧ exec (.lw k d a imm) s = .next (s.coreStop k 1))
    ∧ (c.active = true → (∀ w ∈ wordsOf fetch 4, SMap.find s.upsets w = none) → s.poisoned fetch 4 = true →
        exec (.add k d a b z) s = .next (s.coreStop k 9) ∧ exec (.lw k d a imm) s = .next (s.coreStop k 9))

/-- A stop records the cause and the pc in SVC_K_ERR, sets SVC_K_EVT and changes no register of the core (R201). -/
def Obligations.CoreStopEffect : Prop :=
  ∀ (s : State) (k cause : Nat), k < 128 → cause < 16 →
    (∀ i, s.coreOwner k = some i → (s.inst i).stageOfCore k = none) →
    let t := s.coreStop k cause
    t.rd (Reg.SVC_K_ERR k) = BitVec.ofNat 4 cause ++ 0#11 ++ (s.core k).pc
    ∧ (t.rd (Reg.SVC_K_EVT k)).getLsbD (causeBit cause) = true
    ∧ t.core k = { s.core k with st := .stopped, waitTick := none } ∧ (∀ j, j ≠ k → t.core j = s.core j)
    ∧ t.mem = s.mem ∧ t.queues = s.queues ∧ t.engines = s.engines ∧ t.tiles = s.tiles ∧ t.hostMem = s.hostMem
    ∧ (∀ i, s.coreOwner k = some i → (t.inst i).adp.stopped = true)

/-- CRD reads and CWR writes the control registers of R199 (R199). -/
def Obligations.ControlRegisterResults : Prop :=
  (∀ (s : State) (k : Nat) (x : BitVec 5) (i : Nat), s.coreOwner k = some i →
    let c := s.core k
    let is (v : Word) (c : Core) (q : BitVec 14) : Prop := Runs s k { c.sset x v with pc := c.pc + 4 } (.crd k x q 0)
    is (BitVec.ofNat 32 k) c 0 ∧ is (BitVec.ofNat 32 i) c 1
    ∧ is (BitVec.ofNat 32 (match (s.inst i).stageOfCore k with | some d => d.id | none => 0)) c 2
    ∧ (∀ d g, (s.inst i).stageOfCore k = some d → (s.inst i).stage d.id = some g → is (g.epoch.setWidth 32) c 3)
    ∧ is c.line c 4
    ∧ is (BitVec.ofNat 32 (s.inst i).ticks) { c with tickHi := BitVec.ofNat 32 ((s.inst i).ticks / 2 ^ 32) } 5
    ∧ is c.tickHi c 6
    ∧ (∃ lo hi : Word, RunsFree s k { ({ c with cycHi := hi } : Core).sset x lo with pc := c.pc + 4 } (.crd k x 7 0))
    ∧ is c.cycHi c 8 ∧ is c.lfsr c 0x10 ∧ is (c.zp.setWidth 32) c 0x11
    ∧ Runs s k { c with lfsr := if c.sget x = 0 then 1 else c.sget x, pc := c.pc + 4 } (.cwr k x 0x10 0)
    ∧ Runs s k { c with zp := (c.sget x).extractLsb' 0 8, pc := c.pc + 4 } (.cwr k x 0x11 0))
  ∧ (∀ (s : State) (k : Nat) (x : BitVec 5) (q : BitVec 14), ctrlReg (q.toNat % 4096) = none →
      (s.ready k (.crd k x q 0) → exec (.crd k x q 0) s = .next (s.coreStop k 7))
      ∧ (s.ready k (.cwr k x q 0) → exec (.cwr k x q 0) s = .next (s.coreStop k 7)))
  ∧ (∀ (s : State) (k : Nat) (x : BitVec 5) (q : BitVec 14), s.ready k (.cwr k x q 0) → ctrlReg (q.toNat % 4096) = some false →
      exec (.cwr k x q 0) s = .next (s.coreStop k 8))

/-- QPOP moves the head token, or a VOID in place of a poisoned entry, into lanes 0 to 3, QWAIT returns or waits, and QCNT
counts without waiting; a reserved control code stops the core, with the cause that log entry 69 chooses (R160, R195, R196,
R222, R225, R226). -/
def Obligations.QueueReadInstructions : Prop :=
  ∀ (s : State) (k n : Nat) (x : BitVec 5) (v : BitVec 4) (q : BitVec 14), s.coreQueue k q = some n →
    let c := s.core k
    let y := s.queue n
    let pop (pe : BitVec 4) : Instr := .qpop k (0#1 ++ v) q 0 pe
    let open_ : Queue := { y with discard := y.discard && !y.markerPast }
    let one (t : State) (z : Queue) : Prop := t.queue n = z ∧ (∀ m, m ≠ n → t.queue m = s.queue m)
    let sound : Prop := s.sound (s.tileAddr (queueCol n) (queueRow n) (s.slotAddr n (y.rd % y.depth))) 16
    (∀ e es, s.delivers n e es → sound →
      (s.ready k (pop 0) →
        ((e.kind = kindControl → codeListed e.code = true) →
          ∃ t w, exec (pop 0) s = .next t ∧ CoreBecomes s t k { c.vset v w with pc := c.pc + 4 }
            ∧ w.extractLsb' 0 64 = e.w0 ∧ w.extractLsb' 64 64 = e.w1
            ∧ (∀ j, 4 ≤ j → j < 16 → lane w j = lane (c.vget v) j)
            ∧ one t { open_ with entries := es, rd := (y.rd + 1) % y.ptrMod, lastLine := e.tokLine }
            ∧ t = { s with cores := t.cores, regs := t.regs, queues := t.queues })
        ∧ (e.kind = kindControl → codeListed e.code = false → exec (pop 0) s = .next (s.coreStop k 1)))
      ∧ (s.ready k (.qwait k x q 0) → s.isOutput k n = false →
          ∃ t, exec (.qwait k x q 0) s = .next t ∧ CoreBecomes s t k { c with pc := c.pc + 4 } ∧ one t open_
            ∧ t = { s with cores := t.cores, regs := t.regs, queues := t.queues }))
    ∧ (y.qkind = qToken → sound → ∀ e es pe, y.entries = e :: es → pe ≠ 0 →
        (e.bad = true ∨ (e.kind ≠ kindMarker ∧ y.judge e = .deliver)) → s.ready k (pop 0) →
        let z := voidToken y.epoch 0 (if e.badLine || pe.getLsbD 0 then y.lastLine + 1 else e.tokLine) s.now
        ∃ t w, exec (pop pe) s = .next t ∧ (t.core k).vget v = w ∧ (t.core k).pc = c.pc + 4
          ∧ w.extractLsb' 0 64 = z.w0 ∧ w.extractLsb' 64 64 = z.w1 ∧ (t.queue n).entries = es
          ∧ (t.queue n).perr = satAdd y.perr 1)
    ∧ (y.qkind = qH2D → ∀ e es, y.entries = e :: es → e.bad = false → s.ready k (pop 0) →
        ∃ t w, exec (pop 0) s = .next t ∧ CoreBecomes s t k { c.vset v w with pc := c.pc + 4 }
          ∧ w.extractLsb' 0 64 = e.w0 ∧ w.extractLsb' 64 64 = e.w1
          ∧ one t { y with entries := es, rd := (y.rd + 1) % y.ptrMod, lastLine := e.tokLine })
    ∧ (y.qkind = qToken → y.entries = [] → y.emptyMode = false → s.isOutput k n = false →
        ∀ i pe, i = pop pe ∧ s.ready k (pop 0) ∨ i = .qwait k x q 0 ∧ s.ready k i →
          ∃ t, exec i s = .next t ∧ (t.core k).st = .waiting ∧ (t.core k).pc = c.pc ∧ (∀ j, j ≠ k → t.core j = s.core j)
            ∧ one t open_ ∧ t = { s with cores := t.cores, queues := t.queues })
    ∧ (s.isOutput k n = true → s.ready k (.qwait k x q 0) →
        (y.full = false → Retires s k { c with pc := c.pc + 4 } (exec (.qwait k x q 0) s))
        ∧ (y.full = true → ∃ t, exec (.qwait k x q 0) s = .next t ∧ (t.core k).st = .waiting ∧ (t.core k).pc = c.pc
            ∧ t = { s with cores := t.cores }))
    ∧ (s.isOutput k n = true →
        Runs s k { c.sset x (BitVec.ofNat 32 (y.depth - y.fill)) with pc := c.pc + 4 } (.qcnt k x q 0))
    ∧ (s.isOutput k n = false → y.qkind = qToken → (∀ e ∈ y.entries, e.bad = false) →
        Runs s k { c.sset x (BitVec.ofNat 32 (y.entries.countP (fun e => e.kind != kindMarker))) with pc := c.pc + 4 }
          (.qcnt k x q 0))

/-- QPUSH, ENQE, EFILL, XSUB and XLIT append exactly one entry, descriptor or request, or wait for room (R52, R130, R166, R187,
R195, R216, R222, R230, R235, R241). -/
def Obligations.QueueIssueInstructions : Prop :=
  ∀ (s : State) (k n : Nat) (x : BitVec 5) (q : BitVec 14),
    let c := s.core k
    let y := s.queue n
    let i := s.instOfCore k
    let v := c.vget (x.extractLsb' 0 4)
    let word (j : Nat) : DWord := v.extractLsb' (64 * j) 64
    let done (t : State) : Prop :=
      t.core k = { c with pc := c.pc + 4, st := .running, waitTick := none } ∧ (∀ j, j ≠ k → t.core j = s.core j)
      ∧ RegsKept s t (Reg.HIF_MSG_DROP :: retiredRegs k)
    let pushed (t : State) (e : Entry) : Prop :=
      (t.queue n).entries = y.entries ++ [e] ∧ (t.queue n).wr = (y.wr + 1) % y.ptrMod ∧ (t.queue n).rd = y.rd
      ∧ (∀ m, m ≠ n → t.queue m = s.queue m) ∧ t.engines = s.engines
    let waits (r : Res) : Prop := ∃ t, r = .next t ∧ (t.core k).st = .waiting ∧ (t.core k).pc = c.pc
      ∧ (∀ j, j ≠ k → t.core j = s.core j) ∧ t.queues = s.queues ∧ t.engines = s.engines ∧ t.mem = s.mem
    (s.coreQueue k q = some n → s.ready k (.qpush k x q 0) →
      (y.qkind = qToken → y.full = false → s.stoppedReader n = none →
        ∃ t e, exec (.qpush k x q 0) s = .next t ∧ done t ∧ pushed t e ∧ e.w1 = word 1
          ∧ e.w0 = (((word 0) ||| ((s.coreTaint k).setWidth 64 <<< 39)) &&& 0xCFFFFFFFFFFFFFFF) ||| (y.epoch.setWidth 64 <<< 60))
      ∧ (y.qkind = qD2H → y.full = false → s.stoppedReader n = none → s.follows = false →
          ∃ t, exec (.qpush k x q 0) s = .next t ∧ done t ∧ (t.queue n).wr = (y.wr + 1) % y.ptrMod
            ∧ t.hostBytes (y.base.toNat + 64 * (y.wr % y.depth)) 64
              = some (leBytes 8 (word 0).toNat ++ leBytes 8 (word 1).toNat ++ List.replicate 48 0)
            ∧ t.hostBytes (y.base.toNat + 64 * y.depth) 4 = some (leBytes 4 ((y.wr + 1) % y.ptrMod)))
      ∧ (y.full = true → s.stoppedReader n = none → waits (exec (.qpush k x q 0) s)))
    ∧ (q.toNat < 64 → s.engineCause k q.toNat = none →
        let g := s.engine q.toNat
        let d : Descr := { words := [word 0, word 1, word 2, word 3], seq := g.entered, core := k, line := c.line }
        (s.ready k (.enqe k x q 0) →
          (g.queue.length < 32 → s.tagFree i = true →
            ∃ t m, exec (.enqe k x q 0) s = .next t ∧ done t ∧ t.queues = s.queues
              ∧ t.engine q.toNat = { g with queue := g.queue ++ [d], entered := g.entered + 1, scaleSlots := m }
              ∧ ∀ f, f ≠ q.toNat → t.engine f = s.engine f)
          ∧ (32 ≤ g.queue.length ∨ s.tagFree i = false → waits (exec (.enqe k x q 0) s)))
        ∧ (s.ready k (.efill k x q 0) →
          (s.tagFree i = true →
            ∃ t, exec (.efill k x q 0) s = .next t ∧ done t ∧ t.queues = s.queues
              ∧ t.engine q.toNat = { g with
                  fills := g.fills ++ [{ words := [word 0, word 1, word 2, word 3], after := g.entered, core := k }] }
              ∧ ∀ f, f ≠ q.toNat → t.engine f = s.engine f)
          ∧ (s.tagFree i = false → waits (exec (.efill k x q 0) s))))
    ∧ (s.coreQueue k q = some n → y.qkind = qTask → s.ready k (.xsub k x q 0) →
        ∀ a, s.progAddr k ((c.sget x).toNat % 65536) = some a → s.sound (memAddr .core k a) 128 →
          (y.full = false → s.tagFree i = true → ∃ t e, exec (.xsub k x q 0) s = .next t ∧ done t ∧ pushed t e
            ∧ e.bytes = (List.range 128).map (fun j => s.coreByte k (a + j))
            ∧ e.k = (c.sget x).extractLsb' 16 16 ∧ e.core = k ∧ e.line = c.line)
          ∧ (y.full = true ∨ s.tagFree i = false → waits (exec (.xsub k x q 0) s)))
    ∧ (s.coreQueue k q = some n → y.qkind = qLight → s.ready k (.xlit k x q 0) →
        (y.full = false → s.tagFree i = true → ∃ t e, exec (.xlit k x q 0) s = .next t ∧ done t ∧ pushed t e
          ∧ e.w0 = word 0 ∧ e.w1 = word 1 ∧ e.core = k ∧ e.line = c.line)
        ∧ (y.full = true ∨ s.tagFree i = false → waits (exec (.xlit k x q 0) s)))

/-- TICKWAIT returns at the stage's next line start, or at the next accepted tick for a core of the plan, and FENCE when the
conditions of its mask hold; else they wait. FENCE bit 0 makes the core's stores seen (R187, R195, R197, R198, R251). -/
def Obligations.TickwaitAndFence : Prop :=
  (∀ (s : State) (k : Nat) (x : BitVec 5), s.ready k (.tickwait k x 0 0) →
    let c := s.core k
    let y := s.inst (s.instOfCore k)
    let r := exec (.tickwait k x 0 0) s
    let waits (n : Nat) : Prop := ∃ t, r = .next t ∧ (t.core k).st = .tickwait ∧ (t.core k).pc = c.pc ∧ (t.core k).starts = n
      ∧ (∀ j, j ≠ k → t.core j = s.core j) ∧ t = { s with cores := t.cores }
    (∀ d g, s.stageOfCoreK k = some d → y.stage d.id = some g →
      (c.starts < g.starts → Retires s k
        { ({ c with starts := g.starts, line := g.lastLine } : Core).sset x g.lastLine with pc := c.pc + 4 } r)
      ∧ (g.starts ≤ c.starts → waits c.starts))
    ∧ (s.stageOfCoreK k = none →
        (c.st ≠ .tickwait → waits y.ticks)
        ∧ (c.st = .tickwait → (y.ticks ≤ c.starts ∨ (s.markOpen = true ∧ y.marked = false)) → waits c.starts)
        ∧ (c.st = .tickwait → c.starts < y.ticks → (s.markOpen = false ∨ y.marked = true) → ∀ h hs, y.hist = h :: hs →
            Retires s k { ({ c with starts := y.ticks, line := h.line } : Core).sset x h.line with pc := c.pc + 4 } r)))
  ∧ (∀ (s : State) (k : Nat) (x : BitVec 5) (m : BitVec 4), s.ready k (.fence k x (0#10 ++ m) 0) →
      let c := s.core k
      let r := exec (.fence k x (0#10 ++ m) 0) s
      let open_ : Prop := (m.getLsbD 2 = true ∧ s.coreTransfers k = true) ∨ (m.getLsbD 3 = true ∧ s.coreCommands k = true)
      (¬open_ → Retires s k { c with unseen := if m.getLsbD 0 = true then [] else c.unseen, pc := c.pc + 4 } r)
      ∧ (open_ → ∃ t, r = .next t ∧ (t.core k).st = .waiting ∧ (t.core k).pc = c.pc
          ∧ (∀ j, j ≠ k → t.core j = s.core j) ∧ t = { s with cores := t.cores }))

/-- The ALU slot of a bundle writes the lanes of R203's table, under the lane flags when pr is 1 (R156, R202, R203). -/
def Obligations.TileAluResults : Prop :=
  ∀ (s : State) (c r : Nat) (d a b : BitVec 5) (pr : BitVec 1) (pe : BitVec 4) (ro : Option (Nat × Nat)),
    let x := s.tile c r
    let on (j : Nat) : Bool := pr == 0 || x.lf.getLsbD j
    let A (j : Nat) := lane16 (x.lget a.toNat) j
    let B (j : Nat) := lane16 (x.lget b.toNat) j
    let next := x.pc + 1
    let word (op : BitVec 6) (d a b : BitVec 5) (v : BitVec 2) : DWord := op ++ d ++ a ++ b ++ pr ++ v ++ 0#40
    let runs (y : Tile) (w : DWord) : Prop :=
      s.tileReady c r w → TileSteps s c r { y with pc := next } (exec (.bundle c r w pe ro) s)
    let is (op : BitVec 6) (b : BitVec 5) (v : BitVec 2) (g : Nat → BitVec 16) : Prop :=
      runs (x.lset d.toNat (ofLanes16 (fun j => if on j then g j else lane16 (x.lget d.toNat) j))) (word op d a b v)
    let sats (n : Int) : BitVec 16 := BitVec.ofInt 16 (max (-32768) (min 32767 n))
    let satu (n : Int) : BitVec 16 := BitVec.ofInt 16 (max 0 (min 65535 n))
    let acc (op : BitVec 6) (a b : BitVec 5) (v : BitVec 2) (g : Nat → Word) : Prop :=
      runs { x with la := ofLanesLa (fun j => if on j then g j else laneLa x.la j) } (word op 0 a b v)
    let flag (op : BitVec 6) (v : BitVec 2) (g : Nat → Bool) : Prop :=
      ∃ f : Byte, (∀ j, j < 8 → f.getLsbD j = if on j then g j else x.lf.getLsbD j)
        ∧ runs { x with lf := f } (word op 0 a b v)
    is 0x01 b 0 (fun j => sats ((A j).toInt + (B j).toInt)) ∧ is 0x01 b 1 (fun j => satu ((A j).toNat + (B j).toNat))
    ∧ is 0x01 b 2 (fun j => A j + B j)
    ∧ is 0x02 b 0 (fun j => sats ((A j).toInt - (B j).toInt)) ∧ is 0x02 b 1 (fun j => satu ((A j).toNat - (B j).toNat))
    ∧ is 0x02 b 2 (fun j => A j - B j)
    ∧ (∀ v, is 0x03 0 v (fun j => sats (-(A j).toInt)) ∧ is 0x04 0 v (fun j => sats (A j).toInt.natAbs))
    ∧ is 0x05 b 0 (fun j => BitVec.ofInt 16 (min (A j).toInt (B j).toInt))
    ∧ is 0x06 b 1 (fun j => BitVec.ofNat 16 (max (A j).toNat (B j).toNat))
    ∧ (∀ v, is 0x07 b v (fun j => A j &&& B j) ∧ is 0x08 b v (fun j => A j ||| B j) ∧ is 0x09 b v (fun j => A j ^^^ B j)
        ∧ is 0x17 b v (fun j => if x.lf.getLsbD j then A j else B j))
    ∧ (b.toNat < 16 → is 0x0B b 0 (fun j => sats ((A j).toInt * 2 ^ b.toNat)) ∧ is 0x0B b 2 (fun j => A j <<< b.toNat)
        ∧ is 0x0C b 0 (fun j => BitVec.ofInt 16 ((A j).toInt.tdiv (2 ^ b.toNat))) ∧ is 0x0C b 1 (fun j => A j >>> b.toNat))
    ∧ acc 0x10 a b 0 (fun j => BitVec.ofInt 32 ((A j).toInt * (B j).toInt))
    ∧ acc 0x10 a b 1 (fun j => BitVec.ofNat 32 ((A j).toNat * (B j).toNat))
    ∧ (∀ v, acc 0x11 a b v (fun j => BitVec.ofInt 32
        (max (-(2 ^ 31)) (min (2 ^ 31 - 1) ((laneLa x.la j).toInt + (A j).toInt * (B j).toInt)))))
    ∧ (∀ v, acc 0x13 0 0 v (fun _ => 0))
    ∧ flag 0x14 0 (fun j => A j == B j) ∧ flag 0x15 0 (fun j => decide ((A j).toInt < (B j).toInt))
    ∧ flag 0x15 1 (fun j => decide ((A j).toNat < (B j).toNat)) ∧ flag 0x16 0 (fun j => decide ((A j).toInt ≤ (B j).toInt))
    ∧ (∀ imm : BitVec 10, runs (x.lset d.toNat (ofLanes16 (fun j => if on j then imm.signExtend 16 else lane16 (x.lget d.toNat) j)))
        (0x1E#6 ++ d ++ imm ++ pr ++ 0#2 ++ 0#40))

/-- Branches of a tile act on its counters, lane flags and select register as R205's table says (R165, R202, R205). -/
def Obligations.TileControlResults : Prop :=
  ∀ (s : State) (c r : Nat) (k : BitVec 3) (to_ : BitVec 11) (pe : BitVec 4) (ro : Option (Nat × Nat)),
    let x := s.tile c r
    let n := x.counter k.toNat
    let word (op : BitVec 5) : DWord := 0#44 ++ op ++ k ++ to_ ++ 0#1
    let runs (y : Tile) (w : DWord) : Prop := s.tileReady c r w → TileSteps s c r y (exec (.bundle c r w pe ro) s)
    runs { x with pc := x.pc + 1 } 0
    ∧ runs { x with pc := to_ } (word 0x05)
    ∧ runs (if n.value = 0 then { x.setCounter k.toNat { n with value := n.reload } with pc := to_ } else { x with pc := x.pc + 1 })
        (word 0x06)
    ∧ runs (if n.value = 0 then { x.setCounter k.toNat { n with value := n.reload } with pc := x.pc + 1 }
        else { x.setCounter k.toNat { n with value := n.value - 1 } with pc := to_ }) (word 0x07)
    ∧ (to_.toNat + x.sel.toNat < 2048 → runs { x with pc := to_ + x.sel.setWidth 11 } (word 0x08))
    ∧ runs { x with pc := if x.lf ≠ 0 then to_ else x.pc + 1 } (word 0x09)
    ∧ (∀ q : BitVec 3, q ≠ 6 →
        runs { x.setCounter k.toNat { n with bound := if q = 7 then none else some q.toNat } with pc := x.pc + 1 }
          (0#44 ++ 0x0A#5 ++ q ++ 0#5 ++ k ++ 0#1 ++ 0#3))

/-- RECV moves the head token, or a VOID for a poisoned entry, into l(r), and a reserved control code stops the tile; SEND
puts one token into its target queue; a router fault on the way parks the instance (R160, R165, R166, R182, R202, R205, R206,
R226). -/
def Obligations.TileTokenResults : Prop :=
  ∀ (s : State) (c r : Nat) (q : BitVec 3) (n : BitVec 5) (ro : Option (Nat × Nat)),
    let x := s.tile c r
    let dev := 192 * c + 6 * r + q.toNat
    let y := s.queue dev
    let counted : SMap Counter := (countDown q.toNat x.ctr).1
    let recv : DWord := 0#44 ++ 0x01#5 ++ q ++ n ++ 0#3 ++ 0#1 ++ 0#3
    let send : DWord := 0#44 ++ 0x02#5 ++ q ++ n ++ 0#7
    let open_ : Queue := { y with discard := y.discard && !y.markerPast }
    (q.toNat < 6 → y.qkind = qToken → s.tileReady c r recv →
      (s.sound (s.tileAddr (queueCol dev) (queueRow dev) (s.slotAddr dev (y.rd % y.depth))) 16 →
        (∀ e es, s.delivers dev e es →
          ((e.kind = kindControl → codeListed e.code = true) →
            ∃ t, exec (.bundle c r recv 0 ro) s = .next t
              ∧ TileBecomes s t c r { x.lset n.toNat (e.w1 ++ e.w0) with ctr := counted, pc := x.pc + 1 }
              ∧ (∀ j, j < 8 → SMap.get {} counted j = if (x.counter j).bound = some q.toNat
                  then { x.counter j with value := (x.counter j).value - 1 } else x.counter j)
              ∧ t.queue dev = { open_ with entries := es, rd := (y.rd + 1) % y.ptrMod, lastLine := e.tokLine }
              ∧ (∀ m, m ≠ dev → t.queue m = s.queue m))
          ∧ (e.kind = kindControl → codeListed e.code = false → c < 64 → r < 32 →
            ∃ t, exec (.bundle c r recv 0 ro) s = .next t ∧ bits (t.rd (Reg.TIL_C_ERR c)) 31 28 = 2))
        ∧ (∀ e es pe, y.entries = e :: es → pe ≠ 0 → (e.bad = true ∨ (e.kind ≠ kindMarker ∧ y.judge e = .deliver)) →
          let v := voidToken y.epoch 0 (if e.badLine || pe.getLsbD 0 then y.lastLine + 1 else e.tokLine) s.now
          ∃ t, exec (.bundle c r recv pe ro) s = .next t
            ∧ (t.tile c r).lget n.toNat = v.w1 ++ v.w0 ∧ (t.queue dev).entries = es ∧ (t.queue dev).perr = satAdd y.perr 1))
      ∧ (∀ pe, y.entries = [] → y.emptyMode = false →
        ∃ t, exec (.bundle c r recv pe ro) s = .next t
          ∧ (t.tile c r).pc = x.pc ∧ (t.tile c r).l = x.l ∧ (t.tile c r).ctr = x.ctr ∧ (t.tile c r).waitKind = 1
          ∧ t.queue dev = open_ ∧ ∀ m, m ≠ dev → t.queue m = s.queue m))
    ∧ (let g := x.target q.toNat
       let to_ := 192 * tgtCol g + 6 * tgtRow g + tgtQueue g
       tgtKind g = 0 → tgtQueue g < 6 → s.inRun c (tgtCol g) = true → (s.queue to_).qkind = qToken →
        (s.queue to_).full = false → s.stoppedReader to_ = none → s.tileReady c r send →
        (∀ p row i col, s.passes c r g p row = true → (if p < 64 then col = p else s.colLogical p = some col) →
          s.colOwner col = some i → (s.inst i).st = .running → s.flt.fenced.length < 1024 →
          ∃ t, exec (.bundle c r send 0 (some (p, row))) s = .next t ∧ t.isFenced 1 p = true ∧ (t.inst i).st = .kickstand)
        ∧ ∃ t e, exec (.bundle c r send 0 none) s = .next t
          ∧ t.tile c r = { x with pc := x.pc + 1, waitTick := none, waitKind := 0 }
          ∧ (t.queue to_).entries = (s.queue to_).entries ++ [e] ∧ e.w1 = (x.lget n.toNat).extractLsb' 64 64
          ∧ e.w0 = ((((x.lget n.toNat).extractLsb' 0 64) ||| ((s.tileTaint c).setWidth 64 <<< 39)) &&& 0xCFFFFFFFFFFFFFFF)
              ||| ((s.queue to_).epoch.setWidth 64 <<< 60)
          ∧ ∀ m, m ≠ to_ → t.queue m = s.queue m)

/-- A task copies its run byte by byte and waits for its acknowledgement; its completion frees the context and posts
its token; one that fails its checks or its entry's parity aborts with a VOID and its cause (R187, R226, R229, R232, R236, R238,
R239, R243, R244). -/
def Obligations.TransferTasks : Prop :=
  ∀ s : State, s.clean → (∀ v ∈ s.tasks, v.id < s.nextTask ∧ v.inst < 8 ∧ v.eng < 16) →
    let seen (k : MemKind) (a : Nat) : Byte := if k = .core then s.coreByte (unitOf a).1 (unitOf a).2 else s.rdByte a
    let run (i : Nat) (p : List Byte) (k : BitVec 16) (n : Nat) (u : State) (more : Prop) : Prop :=
      ∀ (ka kb : MemKind) (a b : Nat),
        (∀ j, j < progRun p → s.locOf i (progSrc p) (srcOffset p k n j) false = .ok (.mem ka (a + j))
          ∧ s.locOf i (progDst p) (dstOffset p k n j) true = .ok (.mem kb (b + j)) ∧ s.locWritable (.mem kb (b + j)) = true) →
        (a + progRun p ≤ b ∨ b + progRun p ≤ a) →
        (∀ j, j < progRun p → u.rdByte (b + j) = seen ka (a + j)) ∧ BytesKept s u b (progRun p) ∧ more
    let posts (i l : Nat) (u : State) (code : Nat) (value : Word) (line : Word) : Prop :=
      ∀ m, s.localQueue i l = some m → (s.queue m).qkind = qToken → (s.queue m).full = false → s.stoppedReader m = none →
        ∃ v, (u.queue m).entries = (s.queue m).entries ++ [v] ∧ v.kind = kindControl ∧ v.code = code
          ∧ v.value = value ∧ v.tokLine = line ∧ v.epoch = (s.queue m).epoch
    (∀ q e es, (s.queue q).entries = e :: es → (s.queue q).qkind = qTask → s.mayStart q = true → s.firstWaiting q = true →
      (s.queue q).owner < 8 →
      (State.taskCause (s.queue q) e = none → progRuns e.bytes = 1 → progWaitPrev e.bytes = false →
        leField e.bytes 0x0A 2 < 0x8000 → leField e.bytes 0x0C 2 < 0x8000 →
        ∃ u, exec (.taskStart q false) s = .next u ∧ run (s.queue q).owner e.bytes e.k 0 u
          ((u.queue q).entries = es ∧ (u.queue q).rd = ((s.queue q).rd + 1) % (s.queue q).ptrMod ∧ u.nextTask = s.nextTask + 1
            ∧ ∃ t, u.tasks = s.tasks ++ [t] ∧ t.id = s.nextTask ∧ t.q = q ∧ t.done = true ∧ t.marked = false
              ∧ t.line = e.line ∧ t.core = e.core))
      ∧ (∀ bad c, State.taskCause (s.queue q) { e with bad := e.bad || bad } = some c →
          ∃ u, exec (.taskStart q bad) s = .next u
            ∧ (u.queue q).perr = (if (e.bad || bad) = true then satAdd (s.queue q).perr 1 else (s.queue q).perr)
            ∧ bits (u.rd (Reg.XFR_I_ERR_AT (s.queue q).owner)) 31 28 = c ∧ u.mem = (if progNotify e.bytes = true then u.mem else s.mem)
            ∧ (∀ t ∈ u.tasks, t ∈ s.tasks) ∧ ((s.inst (s.queue q).owner).st = .running → (u.inst (s.queue q).owner).st = .kickstand)
            ∧ (progNotify e.bytes = true → posts (s.queue q).owner (progNotifyQ e.bytes) u codeVoid 0 e.line)))
    ∧ (∀ x t, s.tasks.find? (fun t => t.id == x) = some t →
        (t.marked = true → s.depHolds t t.pos = true → exec (.depMark x) s = .next s)
        ∧ (t.marked = true → s.depHolds t t.pos = false → t.pos + 1 = progRuns t.prog →
          ∃ u, exec (.depMark x) s = .next u ∧ run t.inst t.prog t.k t.pos u
            (∃ v, u.tasks.find? (fun t => t.id == x) = some v ∧ v.done = true ∧ v.marked = false))
        ∧ (t.done = true → ∃ u, exec (.taskComplete x) s = .next u ∧ u.tasks = s.tasks.filter (fun v => v.id != x)
          ∧ u.rd (Reg.XFR_I_TASKS t.inst) = satAdd (s.rd (Reg.XFR_I_TASKS t.inst)) 1
          ∧ (progNotify t.prog = false → u.queues = s.queues ∧ u.mem = s.mem)
          ∧ (progNotify t.prog = true → posts t.inst (progNotifyQ t.prog) u codeUser (progUser t.prog) t.line)))

/-- A light request moves up to 64 bytes between a core's SRAM and its far side, and posts its USER token; one whose
entry fails parity moves none and posts its VOID (R187, R226, R229, R239, R241, R242). -/
def Obligations.LightRequests : Prop :=
  ∀ (s : State) (q : Nat) (e : Entry) (es : List Entry), s.clean → (s.queue q).entries = e :: es →
    let x := s.queue q
    let i := x.owner
    let n := bits64 e.w0 57 52 + 1
    let a := bits64 e.w0 37 21
    let near := memAddr .core e.core a
    let far := lightFar e.w0 e.w1
    let load := bits64 e.w0 63 60 = 1
    let posts (u : State) (code : Nat) (value : Word) : Prop :=
      ∀ m, s.localQueue i (bits64 e.w0 51 38) = some m → m ≠ q → (s.queue m).qkind = qToken → (s.queue m).full = false →
        s.stoppedReader m = none → ∃ v, (u.queue m).entries = (s.queue m).entries ++ [v] ∧ v.kind = kindControl
          ∧ v.code = code ∧ v.value = value ∧ v.tokLine = e.line
    x.qkind = qLight → i < 8 → s.bit Reg.XFR_CTRL 0 = true → bits x.cap 15 0 ≠ 0 →
    (∃ u, exec (.lightComplete ⟨q, true⟩) s = .next u ∧ (u.queue q).perr = satAdd x.perr 1
      ∧ bits (u.rd (Reg.XFR_I_ERR_AT i)) 31 28 = 8 ∧ posts u codeVoid 0)
    ∧ (State.lightCause x e = none → s.ownsCore i e.core = true → a + n ≤ 0x20000 →
      ∀ (k : MemKind) (b : Nat), (∀ j : Nat, j < n → s.locOf i far j (if load then false else true) = .ok (.mem k (b + j))
          ∧ s.locWritable (if load then .mem .core (near + j) else .mem k (b + j)) = true) →
        (near + n ≤ b ∨ b + n ≤ near) →
        ∃ u, exec (.lightComplete ⟨q, false⟩) s = .next u
          ∧ (load → ∀ j, j < n → u.rdByte (near + j)
              = if k = .core then s.coreByte (unitOf (b + j)).1 (unitOf (b + j)).2 else s.rdByte (b + j))
          ∧ (¬load → ∀ j, j < n → u.rdByte (b + j) = s.coreByte e.core (a + j))
          ∧ u.rd (Reg.XFR_I_TASKS i) = satAdd (s.rd (Reg.XFR_I_TASKS i)) 1
          ∧ (s.localQueue i (bits64 e.w0 51 38) = none →
              BytesKept s u (if load then near else b) n
              ∧ u.queues = (s.setQueue q { x with entries := es, rd := (x.rd + 1) % x.ptrMod }).queues)
          ∧ posts u codeUser (e.w1.extractLsb' 0 32))

/-- Flush empties the selected queue, clr clears its counters, a doorbell moves its ring, and clr_max clears the
wait maxima (R222, R227, R230, R231, R245, R409). -/
def Obligations.QueueCommands : Prop :=
  ∀ (s : State) (f : Nat),
    (let q := s.queSel f
     let x := s.queue q
     s.direct f Reg.QUE_CMD → s.queDenied f q = false →
      (s.mayFlush q = true → ∃ u, exec (.flush f) s = .next u
        ∧ u.queue q = { x with entries := [], rd := x.wr, evt := x.evt ||| 16 } ∧ (∀ m, m ≠ q → u.queue m = s.queue m)
        ∧ Events { s with queues := u.queues } u [])
      ∧ (s.mayFlush q = false → exec (.flush f) s = .fault (.unpredictable 227))
      ∧ exec (.queClr f) s = .next (s.setQueue q { x with drop := 0, under := 0, perr := 0 }))
    ∧ (∀ l v, s.fnOn f = true → s.tdm.st ≠ 2 → s.tdm.takeover = false → l < 16384 →
        (s.ringOf f l = none → exec (.doorbell f l v []) s = .next ((s.count Reg.HIF_DB_BAD).event Reg.HIF_EVT 1))
        ∧ ∀ q, s.ringOf f l = some q →
          let x := s.queue q
          let p := bits v 15 0 % x.ptrMod
          (x.qkind = qD2H → (x.wr + x.ptrMod - p) % x.ptrMod ≤ x.depth →
            exec (.doorbell f l v []) s = .next (s.setQueue q { x with rd := p }))
          ∧ (x.qkind = qD2H → x.depth < (x.wr + x.ptrMod - p) % x.ptrMod →
            exec (.doorbell f l v []) s = .next (s.queueEvent q 5))
          ∧ (∀ bs, x.qkind = qH2D → x.rd < x.ptrMod → p = (x.rd + x.fill + 1) % x.ptrMod → x.fill < x.depth →
            s.hostBytes (x.base.toNat + 64 * (x.wr % x.depth)) 64 = some bs →
            ∃ u e, exec (.doorbell f l v []) s = .next u ∧ (u.queue q).entries = x.entries ++ [e] ∧ e.bytes = bs
              ∧ (u.queue q).wr = (x.wr + 1) % x.ptrMod ∧ (u.queue q).rd = x.rd ∧ ∀ m, m ≠ q → u.queue m = s.queue m))
    ∧ (s.direct f Reg.XFR_CMD → ∃ t, exec (.xfrClrMax f) s = .next t ∧ (∀ p, p < 10 → t.rd (Reg.XFR_P_WAIT_MAX p) = 0)
        ∧ RegsKept s t ((List.range 10).map Reg.XFR_P_WAIT_MAX) ∧ t = { s with regs := t.regs })

/-- ADP_I_CMD keeps its boundary bits, orders checkpoints and restores at once, and a checkpoint's commit gives its
number (R264, R267, R268, R269). -/
def Obligations.AdaptationCommands : Prop :=
  ∀ (s : State) (f n : Nat), n < 8 → (s.inst n).plan.isSome = true →
    let c := Reg.ADP_I_CMD n
    let a := (s.inst n).adp
    let evt := Reg.ADP_I_EVT n
    (s.direct f c →
      exec (.promote f n) s = .next (s.wr c (s.rd c ||| 1))
      ∧ exec (.rollback f n) s = .next (s.wr c (s.rd c ||| 2))
      ∧ exec (.discard f n) s = .next (s.wr c (s.rd c ||| 4))
      ∧ (a.ckptBusy = true →
          exec (.checkpoint f n) s = .next ((s.wr c (s.rd c ||| 8)).modAdp n (fun x => { x with ckptOrdered := true })))
      ∧ (a.ckptBusy = false → s.partOf n = none → ∃ t, exec (.checkpoint f n) s = .next t ∧ t.rd c = s.rd c &&& ~~~8
          ∧ RegsKept s t [c] ∧ (t.inst n).adp = { a with ckptBusy := true, ckptOrdered := false, ckptTxn := none }
          ∧ t = { s with regs := t.regs, insts := t.insts })
      ∧ (∀ k, a.ckptBusy = false → s.clean → s.partOf n = some k → s.storeOpen = true →
          ∃ t, exec (.checkpoint f n) s = .next t ∧ t.rd c = s.rd c &&& ~~~8
            ∧ (t.inst n).adp = { a with ckptBusy := true, ckptOrdered := false, ckptTxn := some s.store.nextTxn }
            ∧ t.store.nextTxn = s.store.nextTxn + 1)
      ∧ ((s.inst n).st ≠ .held → exec (.restore f n) s = .next (s.wr c (s.rd c)))
      ∧ (∀ im p, (s.inst n).image = some im → im.plan = some p → (s.inst n).st = .held →
          (s.findCkpt n im p = none → ∃ t, exec (.restore f n) s = .next t ∧ t.rd c = s.rd c &&& ~~~16
            ∧ t.rd evt = s.rd evt ||| 0x200 ∧ Events s t [c, evt])
          ∧ ∀ x, s.findCkpt n im p = some x → ∃ t j, exec (.restore f n) s = .next t ∧ t.rd c = s.rd c ||| 16
            ∧ RegsKept s t [c] ∧ j.op = 0x11 ∧ j.fn = n ∧ j.txn = x.num ∧ j.length = x.payload.length
            ∧ j.pages.map (·.1) = x.pages
            ∧ t = { s with regs := t.regs, store := { s.store with jobs := s.store.jobs ++ [j] } }))
    ∧ (∀ (be : BitVec 4) (v : Word),
        let m := Reg.ADP_I_MARGIN n
        let k := 0xFFFF &&& beMask be
        let nv := merge (s.rd m) v k
        s.direct f m → k ≠ 0 →
        (marginOk (bits nv 15 0) = true → exec (.marginWrite f n be v) s = .next ((s.wr m (nv &&& 0xFFFF)).healIf (· == m)))
        ∧ (marginOk (bits nv 15 0) = false → exec (.marginWrite f n be v) s = .next (s.event evt 11)))
    ∧ (∀ k x, a.ckptBusy = true → a.ckptOrdered = false → a.ckptTxn = some k → s.txn k = some x →
        (x.phase = 2 → exec (.checkpointCommit n true) s = .next (((s.wr (Reg.ADP_I_CKPT_SEQ n)
            (BitVec.ofNat 32 (leField x.payload 8 4))).event evt 7).modAdp n (fun y => { y with ckptBusy := false, ckptTxn := none })))
        ∧ (x.phase = 3 → exec (.checkpointCommit n false) s
            = .next ((s.event evt 8).modAdp n (fun y => { y with ckptBusy := false, ckptTxn := none }))))

/-- OUT commits a result into its line's slot, valid last; ACT answers a request with COUNT, or a VOID with a VOID; a record
joins the transaction of its sheet, opens it where it is the first, or is dropped whole when the share is full; so is, as log
entry 70 chooses, one of whose entries fails parity (R270, R271, R272, R274, R321). -/
def Obligations.ResultsAndRequests : Prop :=
  ∀ (s : State) (n q : Nat) (e : Entry) (es : List Entry), n < 8 →
    (∀ t, s.clean → s.tdm.st ≠ 2 → (∀ w ∈ s.tdm.waiting, w.1.inst ≠ n) → (s.inst n).st = .running → s.delivers q e es →
      s.localQueue n (s.fld (Reg.OUT_I_QUEUES n) 13 0) = some q →
      (∀ r, s.localQueue n (s.fld (Reg.ACT_I_QUEUES n) 13 0) = some r → r ≠ q ∧ ∀ v ∈ (s.queue r).entries, ¬v.ord < e.ord) →
      (∀ sl w b, e.kind = kindData → (s.inst n).slotOf e.tokLine = some sl → sl.admitted = true → sl.lost = false →
        s.resultSlot n e.tokLine = some (w, b) → b + 0x40 ≤ w.size →
        ∃ u, exec (.resultCommit n t) s = .next u ∧ (u.queue q).entries = es
          ∧ u.rd (Reg.OUT_I_RESULTS n) = satAdd (s.rd (Reg.OUT_I_RESULTS n)) 1
          ∧ u.rdBytes (memAddr .bulk w.die (w.base + b)) 4 = leBytes 4 e.tokLine.toNat
          ∧ u.rdByte (memAddr .bulk w.die (w.base + b) + 0x10)
              = s.resultFlags n e sl (decide (sl.tick + (s.inst n).dueOffset < e.at_)) ||| flagValid)
      ∧ (e.kind = kindControl → e.code = codeVoid → ∃ u, exec (.resultCommit n t) s = .next u ∧ (u.queue q).entries = es
          ∧ (∀ m, m ≠ q → u.queue m = s.queue m) ∧ u = { s with
              now := max s.now t, queues := u.queues
              insts := (s.setInst n { (s.inst n).setSlot e.tokLine (fun l => { l with voided := true }) with resGap := true }).insts }))
    ∧ (∀ p, s.clean → (s.inst n).live = true → s.delivers q e es → p ≠ q → s.takes p →
        s.localQueue n (s.fld (Reg.ACT_I_QUEUES n) 13 0) = some q →
        s.localQueue n (s.fld (Reg.ACT_I_QUEUES n) 29 16) = some p →
        let answers (u : State) (code : Nat) (value : Word) : Prop :=
          exec (.actRequest n) s = .next u ∧ (u.queue q).entries = es ∧ ∃ v, (u.queue p).entries = (s.queue p).entries ++ [v]
            ∧ v.kind = kindControl ∧ v.code = code ∧ v.value = value ∧ v.tokLine = e.tokLine ∧ v.flags = e.flags
        (e.kind = kindData → ∃ u, answers u codeCount (BitVec.ofNat 32 (min e.pxCount 64))
          ∧ u.rd (Reg.ACT_I_BOXES n) = satAdd (s.rd (Reg.ACT_I_BOXES n)) (min e.pxCount 64)
          ∧ u.rd (Reg.ACT_I_BOX_DROP n) = satAdd (s.rd (Reg.ACT_I_BOX_DROP n)) (e.pxCount - min e.pxCount 64))
        ∧ (e.kind = kindControl → e.code = codeVoid → ∃ u, answers u codeVoid 0 ∧ RegsKept s u [Reg.HIF_MSG_DROP] ∧ u.insts = s.insts))
    ∧ (let y := s.queue q
       let len := max 64 (leField e.bytes 4 4)
       let k := recordEntries len
       let bs := ((y.entries.take k).flatMap (·.bytes)).take len
       let room := 1024 * s.fld (Reg.STO_I_BUF n) 13 0
       let s' := s.setQueue q { y with entries := y.entries.drop k, rd := (y.rd + k) % y.ptrMod }
       y.qkind = qRecord → y.owner = n → y.entries = e :: es → k ≤ y.entries.length →
       (∀ bad, (bad = true ∨ ∃ x ∈ y.entries.take k, x.bad = true) → ∃ u, exec (.recordIn ⟨q, bad⟩) s = .next u ∧ (u.queue q).entries = y.entries.drop k
         ∧ (u.queue q).perr = satAdd y.perr 1 ∧ u.rd (Reg.STO_I_REC_DROP n) = satAdd (s.rd (Reg.STO_I_REC_DROP n)) 1 ∧ u.store = s.store)
       ∧ ((∀ x ∈ y.entries.take k, x.bad = false) →
         (room < s.bufUsed n + bs.length →
           exec (.recordIn ⟨q, false⟩) s = .next ((s'.count (Reg.STO_I_REC_DROP n)).event (Reg.STO_I_EVT n) 1))
         ∧ (∀ h p, s.bufUsed n + bs.length ≤ room → s.partOf n = some p →
             (s.inst n).recordSheet (BitVec.ofNat 24 (leField e.bytes 0x10 4)) = some h →
             (∀ m x, h.txn = some m → s.txn m = some x →
               ∃ u v, exec (.recordIn ⟨q, false⟩) s = .next u ∧ u.queues = s'.queues ∧ u.txn m = some v ∧ v.records = x.records ++ [bs])
             ∧ (h.txn = none → s.storeOpen = true → s.txn s.store.nextTxn = none →
               ∃ u v, exec (.recordIn ⟨q, false⟩) s = .next u ∧ u.queues = s'.queues ∧ u.store.nextTxn = s.store.nextTxn + 1
                 ∧ u.txn s.store.nextTxn = some v ∧ v.records = [bs] ∧ v.kind = 1 ∧ v.part = p ∧ v.inst = n))))

/-- Seals that come too late only count, one in time composes its sheet's edition once those before are out, deadlines seal
without a map, an edition that stands whole is published, and a segment leaves its lane encoded and scrambled (R281, R282,
R285, R286, R287, R288, R428). -/
def Obligations.EditionsAndOutlet : Prop :=
  ∀ (s : State) (n : Nat), n < 8 →
    let evt := Reg.OUT_I_EVT n
    (∀ q e es, (s.inst n).live = true → s.delivers q e es → s.localQueue n (s.fld (Reg.OUT_I_QUEUES n) 29 16) = some q →
      s.headSound q → e.kind = kindControl → e.code = codeUser →
      let fits (h : Sheet) : Prop := h.num = e.tokLine.setWidth 24 ∧ ∃ t, h.ended = some t ∧ (s.inst n).ticks ≤ t + 256
      ((∀ h ∈ (s.inst n).unsealed, ¬fits h) → ∃ u, exec (.sealToken n) s = .next u ∧ (u.queue q).entries = es
        ∧ u.rd (Reg.OUT_I_LATE_SEAL n) = satAdd (s.rd (Reg.OUT_I_LATE_SEAL n)) 1 ∧ u.rd evt = s.rd evt ||| 8
        ∧ Events { s with queues := u.queues } u [Reg.OUT_I_LATE_SEAL n, evt])
      ∧ (∀ h hs, (s.inst n).unsealed = h :: hs → fits h → (s.inst n).editions ≠ [] →
          ∃ u, exec (.sealToken n) s = .next u ∧ (u.queue q).entries = es
            ∧ u.inst n = (s.inst n).modSheet h.ord (fun g => { g with sealReq := some { map := none, missed := false } })
            ∧ u = { s with queues := u.queues, insts := u.insts })
      ∧ (∀ h hs, (s.inst n).unsealed = h :: hs → fits h → (s.inst n).editions = [] →
          (s.inst n).sheets.find? (fun g => g.ended.isSome && !g.sealed_) = some h →
          ∃ u d, exec (.sealToken n) s = .next u ∧ (u.queue q).entries = es ∧ (u.inst n).editions = [d] ∧ d.sheet = h.num
            ∧ d.num = ((s.rd (Reg.OUT_I_ED_NUM n)).toNat + 1) % 2 ^ 32 ∧ d.status = h.status { map := none, missed := false }))
    ∧ (∀ h hs t, (s.inst n).live = true → (s.inst n).unsealed = h :: hs → h.ended = some t → t + 256 < (s.inst n).ticks →
        exec (.publicationDeadline n) s
          = .next (((s.count (Reg.OUT_I_DEADLINE n)).event evt 1).seal n h.ord { map := none, missed := true }))
    ∧ (∀ d, (s.inst n).editions = [d] → s.editionReady d = true → ((s.inst n).sheets.all (fun h => h.sealReq.isNone)) = true →
        ∃ u, exec (.editionPublish n) s = .next u ∧ u.rd (Reg.OUT_I_ED_NUM n) = BitVec.ofNat 32 d.num
          ∧ u.rd (Reg.OUT_I_ED_SHEET n) = d.sheet.setWidth 32 ∧ u.rd (Reg.OUT_I_ED_FLAGS n) = d.status.setWidth 32
          ∧ (u.rd evt).getLsbD 0 = true ∧ (u.inst n).editions = [] ∧ (u.inst n).lastEdition = some { d with stamp := (s.inst n).ticks }
          ∧ u.mem = s.mem ∧ u.store = s.store)
    ∧ (∀ f, s.direct f (Reg.OUT_I_CMD n) →
        let cs := [Reg.OUT_I_RESULTS n, Reg.OUT_I_MIRROR_DROP n, Reg.OUT_I_DEADLINE n, Reg.OUT_I_LATE_SEAL n]
        (∃ u, exec (.outClr f n) s = .next u ∧ (∀ a ∈ cs, u.rd a = 0) ∧ RegsKept s u cs ∧ u = { s with regs := u.regs })
        ∧ ((s.inst n).lastEdition = none → exec (.remirror f n) s = .next s)
        ∧ ∀ d, (s.inst n).lastEdition = some d → exec (.remirror f n) s = .next (s.mirrorEdition n d))
    ∧ (∀ j g gs, s.outSegs = g :: gs → g.lane = j → g.sending = true → (∀ o ∈ gs, ¬(o.lane = j ∧ o.sending = true)) →
        ∃ u r, exec (.outletSegmentSent j) s = .next u ∧ SMap.find u.outTx j = some (scramble (txFrame g.words) r)
          ∧ u = { s with free := u.free, outSegs := startSeg j gs, outTx := u.outTx })
    ∧ (∀ k at_ t, SMap.find s.sig.gpioEnd k = some at_ → at_ ≤ max s.now t →
        ∃ u, exec (.gpioPulseEnd k t) s = .next u ∧ u.sig.gpioLevel.getLsbD k = false
          ∧ u = { s with now := max s.now t, sig := { s.sig with gpioLevel := u.sig.gpioLevel, gpioEnd := u.sig.gpioEnd } })

/-- Assignments and the load source hold while unloaded, and one that names a unit of another instance is not taken, as log
entry 63 chooses; a load begins from host memory or a boot image, and ends held or unloaded (R53, R85, R220, R290, R295, R298). -/
def Obligations.LoadingInstances : Prop :=
  ∀ (s : State) (f n : Nat) (be : BitVec 4) (v : Word), n < 8 →
    let x := s.inst n
    let evt := Reg.INS_I_EVT n
    let cmd := Reg.INS_I_CMD n
    let src := Reg.INS_I_LOAD_SRC n
    (∀ a d, Reg.INS_I_ENGINES_LO n ≤ a → a ≤ Reg.INS_I_TAGS n → a ≠ Reg.INS_I_COLS n → regAt a = some d → s.direct 0 a →
      let m := wd d.prv &&& beMask be
      m ≠ 0 →
      (x.st ≠ .unloaded → exec (.assignmentWrite 0 a be v) s = .next (s.event evt 7))
      ∧ (x.st = .unloaded → s.unitTaken n a (merge (s.rd a) v m) = true → exec (.assignmentWrite 0 a be v) s = .next s)
      ∧ (x.st = .unloaded → s.unitTaken n a (merge (s.rd a) v m) = false →
          exec (.assignmentWrite 0 a be v) s = .next (((s.wr a (merge (s.rd a) v m)).healIf (· == a)).pendSync)))
    ∧ (∀ d, regAt (Reg.INS_I_COLS n) = some d → s.direct 0 (Reg.INS_I_COLS n) →
        let a := Reg.INS_I_COLS n
        let nv := merge (s.rd a) v (wd d.prv &&& beMask be)
        wd d.prv &&& beMask be ≠ 0 →
        (x.st ≠ .unloaded → exec (.assignmentWrite 0 a be v) s = .next (s.event evt 7))
        ∧ (x.st = .unloaded → s.unitTaken n a nv = true → exec (.assignmentWrite 0 a be v) s = .next s)
        ∧ (x.st = .unloaded → s.unitTaken n a nv = false → ∃ u, exec (.assignmentWrite 0 a be v) s = .next u ∧ u.rd a = nv
            ∧ RegsKept s u [a, Reg.HIF_MSG_DROP] ∧ u.insts = s.insts
            ∧ ∀ q, q < 12288 → 192 * bits nv 5 0 ≤ q → q < 192 * (bits nv 5 0 + bits nv 14 8) →
                (u.queue q).assign = wd (0x80000000 + 0x1000000 * n)))
    ∧ (let m := 0x800000FF &&& beMask be
       s.direct f src → m ≠ 0 →
       (x.st = .unloaded → exec (.loadSrcWrite f n be v) s = .next ((s.wr src (merge (s.rd src) v m)).healIf (· == src)))
       ∧ (x.st ≠ .unloaded → exec (.loadSrcWrite f n be v) s = .next s))
    ∧ (∀ host, s.direct f cmd →
        let s0 := s.placeHost host
        (x.st ≠ .unloaded ∨ s.instExists n = false → exec (.insLoad f n host) s = .next s0)
        ∧ (x.st = .unloaded → s.instExists n = true → s.flt.down = false → s.sig.mapped = false →
            exec (.insLoad f n host) s = .next (s0.setFld cmd 0 0 1))
        ∧ (x.st = .unloaded → s.instExists n = true → s.flt.down = false → s.sig.mapped = true → s.tdm.takeover = false →
            (s.bit src 31 = false → ∃ u, exec (.insLoad f n host) s = .next u
              ∧ u.inst n = { x with st := .loading, resetDone := false, load := some (s0.hostSource n) }
              ∧ (∀ m, m ≠ n → u.inst m = s.inst m) ∧ RegsKept s u [cmd]
              ∧ u = { s0 with regs := u.regs, insts := u.insts })
            ∧ ∀ t, s.bit src 31 = true → s.bootImage (s.fld src 7 0) = some t → ∃ u j, exec (.insLoad f n host) s = .next u
              ∧ u.inst n = { x with st := .loading, resetDone := false, load := none }
              ∧ u.store.jobs = s.store.jobs ++ [j] ∧ j.op = 0x10 ∧ j.fn = n ∧ j.txn = t.num ∧ j.pages.map (·.1) = t.pages))
    ∧ (x.st = .loading → (n ≠ 0 ∨ s.sig.boot = 0) →
        let fails (code : Nat) : Prop := ∃ u, exec (.loadComplete n) s = .next u
          ∧ u.inst n = { x with st := .unloaded, load := none, image := none, loadCode := BitVec.ofNat 8 code }
          ∧ u.rd evt = s.rd evt ||| 2
        (x.load = some none → fails 0x0D)
        ∧ ∀ bs, x.load = some (some bs) →
          (∀ code, s.checkImage n bs = .error code → fails code)
          ∧ ∀ im t, s.checkImage n bs = .ok (im, t) → ∃ u, exec (.loadComplete n) s = .next u ∧ (u.inst n).st = .held
            ∧ (u.inst n).image = some im ∧ (u.inst n).load = none ∧ (u.inst n).loadCode = 0 ∧ (u.rd evt).getLsbD 0 = true)

/-- A release takes two steps to running, a reset holds and then unloads, a reload is copied, checked and armed, and
functions go (R289, R297, R298, R300, R302, R303, R415, R424). -/
def Obligations.ReleaseResetReload : Prop :=
  ∀ (s : State) (f n t : Nat), n < 8 →
    let x := s.inst n
    let evt := Reg.INS_I_EVT n
    let cmd := Reg.INS_I_CMD n
    let stat := Reg.INS_I_RELOAD_STAT n
    (s.direct f cmd →
      (x.st = .held → x.relStep = 0 → exec (.insRelease f n) s = .next (s.setInst n { x with relStep := 1 }))
      ∧ (x.st = .loading → exec (.insRelease f n) s = .fault (.unpredictable 297))
      ∧ (x.st ≠ .held → x.st ≠ .loading → exec (.insRelease f n) s = .next s)
      ∧ (x.st ≠ .unloaded → x.st ≠ .resetting → ∃ u, exec (.insReset f n) s = .next u ∧ (u.inst n).st = .resetting
          ∧ (u.inst n).image = x.image ∧ (∀ k ∈ u.tasks, k.inst ≠ n) ∧ ∀ m, m ≠ n → u.inst m = s.inst m)
      ∧ (∀ host, (x.live = true ∨ x.st = .held) → s.bit cmd 3 = false → s.tdm.takeover = false →
          let s0 := s.placeHost host
          let off := s.fld (Reg.INS_I_RELOAD_OFF n) 31 6 * 64
          let at_ := (s.fld (Reg.INS_I_RELOAD n) 15 8, off, s.fld (Reg.INS_I_RELOAD n) 29 16)
          let beats := (List.range 16).flatMap (fun e => [Reg.XFR_E_BEATS_LO e, Reg.XFR_E_BEATS_HI e])
          (s0.hostSource n = none → ∃ u, exec (.insReload f n host) s = .next u
            ∧ u.inst n = { x with reload := some none, reloadAt := at_ })
          ∧ ∀ b w, s0.hostSource n = some b → s.window n at_.1 = some w → off + b.length ≤ w.size →
            ∃ u, exec (.insReload f n host) s = .next u ∧ u.inst n = { x with reload := some (some b), reloadAt := at_ }
              ∧ u.rdBytes (memAddr .bulk w.die (w.base + off)) b.length = b
              ∧ BytesKept s u (memAddr .bulk w.die (w.base + off)) b.length
              ∧ u.bit cmd 3 = true ∧ u.rd stat = wd (256 * s.fld (Reg.INS_I_RELOAD n) 7 0)
              ∧ RegsKept s u (cmd :: stat :: beats)))
    ∧ (∀ im, x.st = .held → x.image = some im →
        (x.relStep = 1 → exec (.releaseStep n t) s = .next ((s.at_ t).setInst n { x with relStep := 2 }))
        ∧ (x.relStep = 2 → ∃ u, exec (.releaseStep n t) s = .next u ∧ (u.inst n).st = .running ∧ (u.inst n).image = some im
            ∧ (u.inst n).curLine = none ∧ (u.inst n).adp = x.adp
            ∧ (u.inst n).stages.map (fun g => (g.id, g.st, g.epoch)) = im.stages.map (fun d => (d.id, .running, 0))
            ∧ (u.rd evt).getLsbD 2 = true))
    ∧ (x.st = .resetting → s.programsLeft n = false → s.swapBusy n = false → ∃ u, exec (.resetDone n) s = .next u
        ∧ u.inst n = { loadCode := x.loadCode, resetDone := true } ∧ (∀ m, m ≠ n → u.inst m = s.inst m)
        ∧ u.rd (Reg.INS_I_RESETS n) = satAdd (s.rd (Reg.INS_I_RESETS n)) 1 ∧ u.rd evt = s.rd evt ||| 16)
    ∧ (x.reload = some none → ∃ u, exec (.patchCheck n) s = .next u ∧ u.inst n = { x with reload := none }
        ∧ u.fld stat 7 0 = 0x0D ∧ u.bit cmd 3 = false ∧ u.rd evt = s.rd evt ||| 0x40)
    ∧ (∀ bs w off p g, s.clean → x.reload = some (some bs) → s.reloadPlace n bs.length = some (w, off) → off < w.size →
        let sid := s.fld stat 15 8
        let a := memAddr .bulk w.die (w.base + off)
        x.stage sid = some g → g.armed = none → s.reloadReady n x.reloadAt.2.2 = true →
        (∀ c, s.checkPatch n sid (s.rdBytes a bs.length) = .error c → exec (.patchCheck n) s = .next (s.reloadFail n c))
        ∧ (s.checkPatch n sid (s.rdBytes a bs.length) = .ok p → ∃ u, exec (.patchCheck n) s = .next u
          ∧ (u.inst n).reload = none ∧ u.bit cmd 3 = false
          ∧ (x.st ≠ .held → (u.inst n).stage sid = some { g with armed := some { patch := some p, src := a, queue := x.reloadAt.2.2 } })
          ∧ (x.st = .held → u.rd (Reg.INS_I_RELOADS n) = satAdd (s.rd (Reg.INS_I_RELOADS n)) 1 ∧ u.rd evt = s.rd evt ||| 32)))
    ∧ (∀ sid g, x.stage sid = some g → g.relStep = 3 → g.change.isSome = true → x.live = true → x.plan = none →
        exec (.reloadDone n sid) s = .next (((s.modInst n (fun y => y.modStage sid (fun h =>
          { h with change := none, relStep := 0 }))).count (Reg.INS_I_RELOADS n)).event evt 5))
    ∧ (s.fnOn (n + 1) = true →
        let gone (u : State) : Prop := (x.st ≠ .unloaded → (u.inst n).st = .resetting) ∧ (∀ k ∈ u.hif.vecOpen, k / 256 ≠ n + 1)
          ∧ ∀ a, a < 2 ^ 26 → SMap.get 0 u.hif.readShadow (2 ^ 26 * (n + 1) + a) = 0
        (∃ u, exec (.functionLevelReset (n + 1)) s = .next u ∧ gone u ∧ u.hif.vfEnabled = s.hif.vfEnabled)
        ∧ (∃ u, exec (.vfDisable (n + 1)) s = .next u ∧ gone u ∧ u.hif.vfEnabled.getLsbD n = false
            ∧ ∀ k, k ≠ n → u.hif.vfEnabled.getLsbD k = s.hif.vfEnabled.getLsbD k))
    ∧ (∀ m, m ≤ 8 → ∃ u, exec (.vfEnable m) s = .next u
        ∧ (∀ k, k < 8 → u.hif.vfEnabled.getLsbD k = (decide (k < m) || s.hif.vfEnabled.getLsbD k))
        ∧ u = { s with hif := { s.hif with vfEnabled := u.hif.vfEnabled, vfWritten := true } })

/-- A stage finishes its line, drains, is written and released in steps; a repair takes the lowest spare, copies,
and maps it in; one that finds no spare escalates (R19, R46, R47, R168, R171, R172, R180, R303, R305, R306). -/
def Obligations.StagesAndSpares : Prop :=
  ∀ (s : State) (n sid t : Nat), n < 8 →
    let x := s.inst n
    let setStage (u : State) (g : Stage) : Prop := (u.inst n).stage sid = some g
    (∀ g, x.stage sid = some g → g.working.isSome = true → g.st = .running → (∀ h ∈ x.stages, h.marks = []) →
      ∃ u, exec (.stageLineFinish n sid t) s = .next u
        ∧ setStage u (Stage.start { g with working := none, finish := some (max s.now t) })
        ∧ (∀ m, m ≠ n → u.inst m = s.inst m) ∧ u = { s.at_ t with insts := u.insts })
    ∧ (∀ g d, x.stage sid = some g → x.stageDesc sid = some d → s.drained n sid = true →
        ∃ u, exec (.drainComplete n sid) s = .next u ∧ setStage u { g with st := .reloading, relStep := 0 } ∧ u.regs = s.regs
          ∧ u.mem = s.mem)
    ∧ (∀ g d im p, x.stage sid = some g → x.stageDesc sid = some d → x.image = some im → g.st = .reloading →
        (∀ c, s.clean → g.relStep = 0 → g.change = some c → c.patch = some p → p.stage = sid → s.reloadReady n c.queue = true →
          ∃ u, exec (.configWriteDone n sid) s = .next u ∧ setStage u { g with workCycles := p.workCycles, relStep := 1 }
            ∧ (u.inst n).image = some (im.patched p)
            ∧ (p.weights = [] → p.addrProgs = [] →
                (p.programs = none → u.regs = s.regs ∧ u.mem = s.mem)
                ∧ ∀ y, p.programs = some [y] → y.profile = 1 → y.count = 1 →
                    u.rdBytes (memAddr .core y.first 0) y.bytes.length = s.rdBytes (c.src + (p.progAt + y.pos)) y.bytes.length
                    ∧ BytesKept s u (memAddr .core y.first 0) y.bytes.length))
        ∧ (g.relStep = 1 → ∃ u, exec (.stageReleaseStep n sid) s = .next u ∧ setStage u { g with relStep := 2 }
            ∧ u = { s with insts := u.insts })
        ∧ (g.relStep = 2 → ∃ u h, exec (.stageReleaseStep n sid) s = .next u ∧ setStage u h ∧ h.st = .running
            ∧ h.relStep = 3 ∧ h.epoch = g.epoch ∧ (g.waiting = [] → h.starts = g.starts)))
    ∧ (∀ f c, c < 64 → s.direct f Reg.INS_REPAIR → s.repairBusy = false →
        let stat := Reg.INS_REPAIR_STAT
        let escalates (kind : Nat) (u : State) : Prop := u.rd stat = 0x02000000
          ∧ (s.unitStage kind c = none → u.flt = s.flt ∧ u.insts = s.insts)
          ∧ ∀ i d, s.unitStage kind c = some (i, d) → (u.inst i).st = .kickstand ∧ (u.rd (Reg.FLT_I_EVT i)).getLsbD 3 = true
        (s.flt.engFree = [] → ∃ u, exec (.engineRepair f c) s = .next u ∧ escalates 0 u)
        ∧ (∀ p ps, s.flt.engFree = p :: ps → ∃ u, exec (.engineRepair f c) s = .next u ∧ u.rd stat = wd (0x80000000 + p)
            ∧ u.flt = { s.flt with engFree := ps, engRepair := some (c, p) })
        ∧ (s.flt.colFree = [] → ∃ u, exec (.columnRepair f c) s = .next u ∧ escalates 1 u)
        ∧ (∀ p ps, s.flt.colFree = p :: ps → ∃ u, exec (.columnRepair f c) s = .next u ∧ u.rd stat = wd (0x80000000 + p)
            ∧ u.flt = { s.flt with colFree := ps, takeover := some { col := c, toCol := p, back := false, on := false } }))
    ∧ (∀ c p, s.flt.engRepair = some (c, p) → s.flt.repairWait = [] → c < 64 → p < 68 →
        s.engPhys c < 68 → s.engPhys c ≠ p →
        (s.copyMayStart 0 c = true → (s.engine c).swap < 2 → (s.engine c).epis = [] →
          exec (.engineCopyStart c) s = .next (s.modEngine c (fun g => { g with swap := 2 })))
        ∧ ((s.engine c).swap = 2 → ∃ u, exec (.engineSwapDone c) s = .next u ∧ u.engPhys c = p
            ∧ (∀ m, m ≠ c → u.engPhys m = s.engPhys m) ∧ u.engine c = { s.engine c with swap := 0 }
            ∧ u.rd Reg.INS_REPAIR_STAT = wd (0x01000000 + p)
            ∧ (Memory.wf s = true → ∀ k ∈ [MemKind.weight, MemKind.staging, MemKind.acc], ∀ b, b < k.size →
                u.rdByte (memAddr k p b) = s.rdByte (memAddr k (s.engPhys c) b))))
    ∧ (∀ c p on, s.flt.takeover = some { col := c, toCol := p, back := false, on := on } → s.flt.repairWait = [] → c < 64 →
        p < 66 → s.colPhys c < 66 → s.colPhys c ≠ p →
        (on = false → s.copyMayStart 1 c = true → exec (.columnTakeover c) s
          = .next (s.modFlt (fun f => { f with takeover := some { col := c, toCol := p, back := false, on := true } })))
        ∧ (on = true → ∃ u, exec (.takeoverDone c) s = .next u ∧ u.colPhys c = p ∧ (∀ m, m ≠ c → u.colPhys m = s.colPhys m)
            ∧ u.flt.takeover = none ∧ c ∈ u.flt.proxy ∧ u.rd Reg.INS_REPAIR_STAT = wd (0x01000000 + p)
            ∧ (u.rd (Reg.TIL_C_EVT c)).getLsbD 8 = true
            ∧ (Memory.wf s = true → ∀ b, b < MemKind.tile.size →
                u.rdByte (memAddr .tile p b) = s.rdByte (memAddr .tile (s.colPhys c) b))))

/-- Mount and close move the store's state; programs, erases and reads of the medium do what the rules of pages and
blocks say (R308, R309, R315, R318, R320, R322, R325, R326, R327, R328, R330, R334). -/
def Obligations.StoreMediumEvents : Prop :=
  ∀ (s : State) (f p : Nat),
    let y := s.store
    let b := blockOf p
    (s.direct f Reg.STO_CMD →
      (y.st = 1 ∨ y.st = 2 ∨ s.flt.down = true → exec (.stoMount f) s = .next s)
      ∧ (y.st ≠ 1 → y.st ≠ 2 → s.flt.down = false → exec (.stoMount f) s = .next (s.modStore (fun z => { z with st := 1, unread := [] })))
      ∧ (y.st = 1 ∨ y.st = 3 → exec (.stoClose f) s = .next (s.modStore (fun z => { z with st := 4 })))
      ∧ (y.st = 0 ∨ 4 ≤ y.st → exec (.stoClose f) s = .next s)
      ∧ (y.st = 2 → ∃ u, exec (.stoClose f) s = .next u ∧ u.store.st = 4
          ∧ ∀ a c, y.todo = [] → y.unplaced = [] → y.txns = [] → y.jbuf = [] → y.jopen = some (a, c) → a % 4096 + 1 < s.geo.pages →
              u.store.closing = none ∧ u.store.todo.map (·.addr) = [a, c]
              ∧ ∀ k ∈ u.store.todo, k.page.kind = 2 ∧ k.page.payload = (JEntry.plain 10 0 [2]).bytes))
    ∧ (∀ ch ce, y.initing = true → ch < 8 → ce < 4 → ∃ u, exec (.targetTimeout ch ce) s = .next u
        ∧ u.targetOn (4 * ch + ce) = false ∧ (∀ k, k < 32 → (u.targetOn k = true ↔ k ∈ arrayTargets u.store.silent))
        ∧ RegsKept s u [Reg.STO_TARGETS])
    ∧ (y.st = 1 → y.todo = [] → y.unplaced = [] → ∃ u, exec .mountDone s = .next u ∧ u.sig.mapped = true
        ∧ (s.targets = [] → u.store.st = 0)
        ∧ (s.targets ≠ [] → s.rebuild y.unread = none → u.store.st = 5)
        ∧ ∀ z k, s.targets ≠ [] → s.rebuild y.unread = some (z, k) →
            u.store.st = (if (s.setStore z).countBlocks 3 = 0 then 3 else 2) ∧ (u.rd Reg.STO_EVT).getLsbD 0 = true
            ∧ (z.jpages ≤ 64 → z.jopen.isSome = true → u.store.txns = z.txns ∧ ∀ t ∈ u.store.txns, t.phase = 2))
    ∧ (∀ j t, y.todo.find? (fun k => k.addr == p) = some j → s.startable j = true →
        (∀ k ∈ y.todo, blockOf k.addr = b → p ≤ k.addr) → y.hold ≠ 3 → y.hold ≠ 4 →
        (∃ u, exec (.pageProgramDone p ⟨true, t⟩) s = .next u ∧ SMap.find u.store.pages p = some j.page
          ∧ (∀ n x, j.page.kind = 2 → j.old = none → (∀ k ∈ y.todo, k.addr ≠ p → k.page.kind = 2 → k.page.seq ≠ j.page.seq) →
              j.commits = [n] → s.txn n = some x → n < y.nextTxn → y.closing = none → ∃ v, u.txn n = some v ∧ v.phase = 2)
          ∧ (∀ x, j.page.kind = 3 → j.old = none → j.commits = [] → s.txn j.page.txn = some x →
              ∃ v, u.txn j.page.txn = some v ∧ v.onMedium = x.onMedium + j.page.payload.length))
        ∧ ∃ u, exec (.pageProgramDone p ⟨false, t⟩) s = .next u ∧ (u.blk b).st = 2
            ∧ u.rd Reg.STO_BAD_GROWN = satAdd (s.rd Reg.STO_BAD_GROWN) 1)
    ∧ (s.eraseable b = true →
        (∃ u, exec (.blockEraseDone p true) s = .next u ∧ (u.blk b).erases = (s.blk b).erases + 1
          ∧ ∀ q ∈ u.store.pages, blockOf q.1 ≠ b)
        ∧ ∃ u, exec (.blockEraseDone p false) s = .next u ∧ (u.blk b).st = 2
            ∧ u.rd Reg.STO_BAD_GROWN = satAdd (s.rd Reg.STO_BAD_GROWN) 1)
    ∧ (∀ g, s.bit Reg.STO_CTRL 8 = true → (y.st = 2 ∨ y.st = 3) → SMap.find y.pages p = some g → s.livePage p = true →
        exec (.backgroundScan p) s = .next (s.readPage 0x12 p none))
    ∧ (∀ raw j n c, s.readerOf p = some (j, n) → j.op = 0x12 → j.pages = [(p, c)] →
        let r := decodePage raw
        let x := s.blk b
        (x.reads + 1 < (s.rd Reg.STO_RD_LIMIT).toNat → b ∉ y.halving →
          (r.programmed = false ∧ r.uncorrectable = 0
            ∨ r.bad = false ∧ (s.storeOpen = false ∨ x.st = 2 ∨ r.most ≤ s.fld Reg.STO_REFRESH 21 16)) →
          exec (.pageReadDone p raw) s = .next ((((s.modStore (fun z => { z with jobs := y.jobs.eraseIdx n })).setBlk b
            { x with reads := x.reads + 1 }).countBy Reg.STO_CE r.corrected).countBy Reg.STO_UE r.uncorrectable))
        ∧ (r.bad = true → (r.programmed = true ∨ r.uncorrectable ≠ 0) → ∃ u, exec (.pageReadDone p raw) s = .next u
            ∧ u.rd Reg.STO_UE = satAdd (s.rd Reg.STO_UE) r.uncorrectable
            ∧ (s.storeOpen = true → (u.blk b).st = 2)
            ∧ ∀ m v, s.txn m = some v → p ∈ v.pages → ∃ w, u.txn m = some w ∧ w.uncorrectable = true))
    ∧ (∀ g raw, y.st = 1 → s.readerOf p = none → SMap.find y.pages p = some g →
        let r := decodePage raw
        ∃ u, exec (.pageReadDone p raw) s = .next u ∧ (p ∈ u.store.unread ↔ r.bad = true)
          ∧ u.rd Reg.STO_CE = satAdd (s.rd Reg.STO_CE) r.corrected ∧ u.rd Reg.STO_UE = satAdd (s.rd Reg.STO_UE) r.uncorrectable)

/-- A store command leaves its queue, and completes with the status of its outcome, or starts the reads or the boot
write it asks for; the places in a LIST descriptor are those of log entry 75 (R323, R324, R328, R334, R335, R336). -/
def Obligations.StoreCommands : Prop :=
  ∀ (s : State) (f q : Nat) (c : StoCmd), s.stoHead f = some (q, c) →
    let s' := s.stoTake q
    let y := s.store
    let ends (r : Res) (u : State) (status n : Nat) : Prop := r = .next (u.stoComplete f c.tag status n c.txn)
    (stoOpListed c.op = false → ends (exec (.stoList f) s) s' 2 0)
    ∧ (f ≠ 0 → (c.op = 5 → s.follower = false → ends (exec (.stoWriteBoot f) s) s' 2 0)
        ∧ (c.op = 6 → ends (exec (.stoFormat f) s) s' 2 0))
    ∧ (c.op = 2 → s.mayName f c.part = false → ends (exec (.stoRead f) s) s' 2 0)
    ∧ (s.mayName f c.part = true →
        let mine (t : Txn) : Bool := t.phase == 2 && t.part == c.part
        let open_ := y.st = 2
        let reads := y.st = 2 ∨ y.st = 3 ∨ y.st = 4
        (c.op = 1 →
          (¬reads → ends (exec (.stoList f) s) s' 5 0)
          ∧ (reads → s.follows = false →
              let ts := y.txns.filter (fun t => mine t && decide (c.txn ≤ t.num))
              let n := min ts.length (c.length / 32)
              ∃ flags : Nat → Nat, ends (exec (.stoList f) s) (({ s' with free := s'.free + n } : State).wrHost c.addr
                ((ts.take n).zipIdx.flatMap (fun x => x.1.descriptor (flags x.2)))) 0 (32 * n)))
        ∧ (c.op = 2 →
          (¬reads → ends (exec (.stoRead f) s) s' 5 0)
          ∧ (reads → (∀ t ∈ y.txns, ¬(mine t = true ∧ t.num = c.txn)) → ends (exec (.stoRead f) s) s' 3 0)
          ∧ (∀ t, reads → y.txns.find? (fun t => mine t && t.num == c.txn) = some t →
              (c.length = 0 ∨ t.bytes.length ≤ c.offset) → ends (exec (.stoRead f) s) s' 0 0)
          ∧ (∀ t, reads → y.txns.find? (fun t => mine t && t.num == c.txn) = some t → 0 < c.length → c.offset < t.bytes.length →
              ∃ j, exec (.stoRead f) s = .next (s'.modStore (fun z => { z with jobs := z.jobs ++ [j] })) ∧ j.op = 2 ∧ j.fn = f
                ∧ j.tag = c.tag ∧ j.txn = c.txn ∧ j.addr = c.addr ∧ j.length = min c.length (t.bytes.length - c.offset)
                ∧ j.pages = (pagesFor (s.layout t) 0 c.offset j.length).1 ∧ j.got = []))
        ∧ (c.op = 3 →
          (¬open_ → ends (exec (.stoTrim f) s) s' 5 0)
          ∧ (open_ → ∃ u, ends (exec (.stoTrim f) s) u 0 0 ∧ ∀ t ∈ u.store.txns, ¬(mine t = true ∧ t.num ≤ c.txn)))
        ∧ (c.op = 4 →
          (¬open_ → ends (exec (.stoSync f) s) s' 5 0)
          ∧ (open_ → (∃ t ∈ y.txns, t.part = c.part ∧ t.phase = 1) → exec (.stoSync f) s = .next s)
          ∧ (open_ → (∀ t ∈ y.txns, ¬(t.part = c.part ∧ t.phase = 1)) → ends (exec (.stoSync f) s) s' 0 0))
        ∧ (f = 0 → c.op = 5 → s.tdm.st ≠ 2 →
          let cfg := Reg.STO_P_CFG 1
          let quota := 0x100000 * s.fld cfg 15 0
          (¬open_ → ends (exec (.stoWriteBoot f) s) s'.txnLost 5 0)
          ∧ (open_ → s.hostBytes c.addr c.length = none → ∃ k u, ends (exec (.stoWriteBoot f) s) u k 0 ∧ u.store = s'.store)
          ∧ ∀ bs, open_ → s.hostBytes c.addr c.length = some bs →
            (s.bit cfg 31 = true → quota < s.partBytes 1 + bs.length → (s.bit cfg 23 = false ∨ quota < bs.length) →
              ∃ u, ends (exec (.stoWriteBoot f) s) u 4 0 ∧ u.rd Reg.STO_EVT = s.rd Reg.STO_EVT ||| 16 ∧ u.store = s'.store)
            ∧ ((s.bit cfg 31 = false ∨ s.partBytes 1 + bs.length ≤ quota ∨ s.bit cfg 23 = true ∧ bs.length ≤ quota) →
              ∃ u, exec (.stoWriteBoot f) s = .next u ∧ u.store.nextTxn = y.nextTxn + 1
                ∧ ∃ j ∈ u.store.jobs, j.op = 5 ∧ j.txn = y.nextTxn ∧ j.length = bs.length)))
    ∧ (f = 0 → c.op = 6 →
        (y.st = 2 → ends (exec (.stoFormat f) s) s' 2 0)
        ∧ (y.st ≠ 2 → (y.st = 1 ∨ s.flt.down = true ∨ s.targets = []) → ends (exec (.stoFormat f) s) s' 5 0)
        ∧ (y.st ≠ 2 → y.st ≠ 1 → s.flt.down = false → s.targets ≠ [] →
            ∃ u, ends (exec (.stoFormat f) s) u 0 0 ∧ u.store.st = 4 ∧ u.store.pages = []
              ∧ (y.st = 3 ∨ y.st = 4 → u.store.fences = y.fences
                  ∧ u.store.nextTxn = y.nextTxn + 1 + (if y.fences = [] then 0 else 1))))

/-- A fall of main power parks everything and runs the hold-up commit on VHOLD; a cold start keeps the flash and
reports the outcome (R6, R318, R329, R330, R331, R393). -/
def Obligations.PowerAndHoldUp : Prop :=
  ∀ (s : State) (t : Nat),
    let s' := s.at_ t
    let main := s.bit Reg.PWR_STAT 31 = true
    let hold := s.bit Reg.PWR_STAT 30 = true
    let low := (s'.setBit Reg.PWR_STAT 31 false).modStore (fun y => { y with mainRise := none })
    let high := (s'.setBit Reg.PWR_STAT 31 true).modStore (fun y => { y with mainRise := some s'.now })
    (main → s.store.hold ≠ 0 → (s.store.hold ≠ 1 ∨ hold) → exec (.mainOkFall t) s = .next low)
    ∧ (main → s.store.hold = 1 → ¬hold → ∃ u, exec (.mainOkFall t) s = .next u ∧ u.store.hold = 4 ∧ u.store.todo = []
        ∧ u.store.jbuf = [] ∧ u.store.pages = s.store.pages ∧ u.bit Reg.PWR_STAT 31 = false)
    ∧ (main → s.store.hold = 0 → ∃ u, exec (.mainOkFall t) s = .next u ∧ u.bit Reg.PWR_STAT 31 = false ∧ u.bit Reg.HIF_EVT 3 = true
        ∧ u.flt.down = true ∧ (∀ n, n < 8 → (s.inst n).st.parks = true → (u.inst n).st = .kickstand)
        ∧ (¬hold → u.store.hold = 3 ∧ u.rd Reg.STO_HOLD = 0x80000000)
        ∧ (hold → (u.store.hold = 1 ∨ u.store.hold = 2) ∧ u.store.holdFrom = s'.now ∧ (s.store.st = 1 ∨ s.store.st = 2 ∨ s.store.st = 3 → u.store.st = 4)))
    ∧ (¬main → exec (.mainOkRise t) s = .next (if s.bit Reg.PWR_STAT 30 then high else high.event Reg.PWR_EVT 1))
    ∧ (∀ r, s.store.mainRise = some r → main → 2 ≤ s.store.hold → r + 10000000 ≤ s'.now →
        ∃ u, exec (.mainStableExpiry t) s = .next u ∧ u.store.pages = s.store.pages ∧ u.store.maps = s.store.maps
          ∧ u.store.jchain = s.store.jchain ∧ u.store.txns = [] ∧ u.store.st = 0 ∧ u.hostMem = s.hostMem ∧ u.insts = [] ∧ u.mem = [] ∧ u.queues = []
          ∧ u.rd Reg.STO_HOLD = s.rd Reg.STO_HOLD ∧ (u.bit Reg.STO_EVT 6 = true ↔ s.fld Reg.STO_HOLD 31 30 ≠ 1))
    ∧ (hold → main → exec (.holdOkFall t) s = .next ((s'.setBit Reg.PWR_STAT 30 false).event Reg.PWR_EVT 1))
    ∧ (hold → ¬main → s.store.hold ≠ 1 → exec (.holdOkFall t) s = .next (s'.setBit Reg.PWR_STAT 30 false))
    ∧ (hold → ¬main → s.store.hold = 1 → ∃ u, exec (.holdOkFall t) s = .next u ∧ u.store.hold = 4 ∧ u.store.todo = []
        ∧ u.store.jbuf = [] ∧ u.store.pages = s.store.pages
        ∧ u.rd Reg.STO_HOLD = wd (0xC0000000 + min ((s'.now - s.store.holdFrom) / 1000) 0xFFFF))
    ∧ (¬hold → exec (.holdOkRise t) s = .next ((s'.setBit Reg.PWR_STAT 30 true).event Reg.PWR_EVT 0))

/-- Gating, ramps, the reference monitor and its fallback, PLL locks, the brake and the thermal samples change what
their rules say (R67, R309, R382, R384, R385, R386, R387, R388, R394, R395, R396, R423). -/
def Obligations.ClocksBrakeHeat : Prop :=
  ∀ (s : State) (t : Nat),
    let s' := s.at_ t
    let lost (u : State) : Prop := u.clk.onRc = true ∧ u.clk.refLost = true ∧ u.flt.down = true
      ∧ u.rd Reg.CLK_FALLBACKS = satAdd (s.rd Reg.CLK_FALLBACKS) 1
      ∧ ∀ d, d < 116 → survives (s.bit Reg.CLK_STAT 28) d = false → (u.dom d).stopped = true
    (∀ d, gateable d = true → (s.dom d).stopped = false →
      let x := s.dom d
      let target := s.fld (Reg.CLK_D_CFG d) 1 0
      (s.bit Reg.CLK_CTRL 0 = true → s.kept d = false → s.domIdle d = true → x.gated = false → x.ramp = 0 →
        exec (.gate d t) s = .next (s'.setDom d { x with ramp := 2 }))
      ∧ (s.bit Reg.PWR_STAT 28 = false → x.gated = true →
          let v := (s'.setDom d { x with gated := false, ratio := 3, ramp := if target = 3 then 0 else 1 }).count (Reg.CLK_D_WAKES d)
          exec (.wake d t) s = .next (v.checkParity d)
          ∧ ((∀ k ∈ s.hif.parityBad, k ∈ s.hif.parityReported ∨ regDomain (k % 2 ^ 26) ≠ d) → v.checkParity d = v))
      ∧ (s.bit Reg.PWR_STAT 28 = false → x.gated = false → x.ramp = 2 →
          let up := s'.setDom d { x with ramp := if x.ratio = target then 0 else 1 }
          exec (.wake d t) s = .next up
          ∧ ((s.kept d = true ∨ s.bit Reg.CLK_CTRL 0 = false) → exec (.rampStep d t) s = .next up))
      ∧ (x.ramp = 2 → (s.bit Reg.PWR_STAT 28 = true ∨ s.kept d = false ∧ s.bit Reg.CLK_CTRL 0 = true) →
          exec (.rampStep d t) s = .next (s'.setDom d (if x.ratio < 3 then { x with ratio := x.ratio + 1 }
            else { x with ramp := 0, gated := true })))
      ∧ (x.ramp ≠ 0 → x.ramp ≠ 2 → let r := stepRatio x.ratio target
          exec (.rampStep d t) s = .next (s'.setDom d { x with ratio := r, ramp := if r = target then 0 else x.ramp }))
      ∧ (∀ be v, let a := Reg.CLK_D_CFG d
          let m := 0x103 &&& beMask be
          let nv := merge (s.rd a) v m
          s.direct 0 a → m ≠ 0 → x.gated = true → nv.getLsbD 8 = false →
            exec (.dividerWrite 0 d be v t) s = .next ((s'.wr a (nv &&& 0x103)).healIf (· == a)))
      ∧ (∀ be v, let a := Reg.CLK_D_CFG d
          let m := 0x103 &&& beMask be
          let nv := merge (s.rd a) v m
          s.direct 0 a → m ≠ 0 → x.gated = false → x.ramp = 0 → x.ratio ≠ bits nv 1 0 → nv.getLsbD 8 = false →
            exec (.dividerWrite 0 d be v t) s
              = .next (((s'.wr a (nv &&& 0x103)).setDom d { x with ramp := 3 }).healIf (· == a))))
    ∧ (∀ n, let lim (hi lo : Nat) := s.fld Reg.CLK_MON_LIM hi lo
        (lim 11 0 ≤ n → n ≤ lim 27 16 → ∃ u, exec (.monitorWindow n t) s = .next u ∧ u.clk.good = s.clk.good + 1
          ∧ u.rd Reg.CLK_MON = wd (min n 0xFFFF)
          ∧ u.bit Reg.CLK_STAT 30 = (s.bit Reg.CLK_STAT 30 || decide ((if s.clk.refLost then 16 else 4) ≤ s.clk.good + 1)))
        ∧ ((n < lim 11 0 ∨ lim 27 16 < n) → ∃ u, exec (.monitorWindow n t) s = .next u ∧ u.clk.good = 0
            ∧ (u.rd Reg.CLK_EVT).getLsbD 1 = true ∧ (s.bit Reg.CLK_STAT 30 = true → s.clk.onRc = false → lost u)))
    ∧ (∀ p, p < 10 → s.bit Reg.CLK_STAT p = true → ∃ u, exec (.pllUnlock p t) s = .next u ∧ u.bit Reg.CLK_STAT p = false
        ∧ u.rd (Reg.CLK_PLL p) = 0 ∧ (u.rd Reg.CLK_EVT).getLsbD 2 = true
        ∧ (¬(p = 7 ∧ s.bit Reg.CLK_STAT 28 = true) → s.clk.onRc = false → lost u))
    ∧ (∀ locks, s.bit Reg.CLK_STAT 30 = true → ∃ u, exec (.pllLock locks t) s = .next u ∧ u.fld Reg.CLK_STAT 9 0 = locks.toNat
        ∧ (∀ p, p < 10 → u.bit (Reg.CLK_PLL p) 31 = locks.getLsbD p) ∧ u.clk.refLost = false
        ∧ (s.clk.refLost = true → (u.rd Reg.CLK_EVT).getLsbD 3 = true))
    ∧ (s.sig.released = false → s.fld Reg.CLK_STAT 9 0 = 0x3FF → ∃ u, exec (.internalResetRelease t) s = .next u
        ∧ u.sig.released = true
        ∧ u.store.initing = true ∧ (∀ k, k < 32 → (u.targetOn k = true ↔ k ∈ arrayTargets []))
        ∧ (s.bit Reg.STO_CTRL 0 = true → s.store.st = 0 → s.flt.down = false → u.store.st = 1 ∧ u.sig.mapped = s.sig.mapped)
        ∧ (s.bit Reg.STO_CTRL 0 = false → u.store.st = s.store.st ∧ u.sig.mapped = true))
    ∧ (∀ n mv, n < 16 →
        (mv < s.fld Reg.PWR_DROOP 9 0 → s.clk.braking.getLsbD n = false → ∃ u, exec (.brakeEngage n mv t) s = .next u
          ∧ u.clk.braking.getLsbD n = true ∧ u.bit Reg.PWR_STAT n = true ∧ (u.rd Reg.PWR_EVT).getLsbD 2 = true
          ∧ u.rd (Reg.PWR_S_BRAKES n) = satAdd (s.rd (Reg.PWR_S_BRAKES n)) 1
          ∧ ∀ d, d < 92 → s.covers n d = true → (s.dom d).stopped = false → (u.dom d).braked = true)
        ∧ (s.clk.braking.getLsbD n = true → s.fld Reg.PWR_DROOP 9 0 + s.fld Reg.PWR_DROOP 23 16 ≤ mv →
            ∃ u, exec (.brakeRelease n mv t) s = .next u ∧ u.clk.braking.getLsbD n = false ∧ u.bit Reg.PWR_STAT n = false
              ∧ ∀ d, d < 92 → (s.dom d).stopped = false →
                  (∀ m, m < 16 → m ≠ n → s.clk.braking.getLsbD m = true → s.covers m d = false) → (u.dom d).braked = false))
    ∧ (∀ temps : List (BitVec 16), temps.length = 16 →
        let tj := hottest temps
        let hot := quarterDegrees (s.fld Reg.PWR_THERM 23 16) ≤ tj.toInt
        ∃ u, exec (.thermalSample temps t) s = .next u ∧ u.rd Reg.PWR_TJ = tj.setWidth 32
          ∧ (∀ n x, temps[n]? = some x → u.rd (Reg.PWR_S_TEMP n) = x.setWidth 32)
          ∧ u.clk.parkCount = (if hot then s.clk.parkCount + 1 else 0)
          ∧ (hot → 1 ≤ s.clk.parkCount → s.bit Reg.PWR_STAT 28 = false → u.bit Reg.PWR_STAT 28 = true ∧ u.flt.down = true))
    ∧ (∀ f be v, let m := beMask be
        (s.direct f Reg.PWR_CMD → ∃ u, exec (.pwrClrMax f) s = .next u ∧ u.rd Reg.PWR_TJ_MAX = s.rd Reg.PWR_TJ
          ∧ (∀ n, n < 16 → u.fld (Reg.PWR_S_VOLT n) 25 16 = s.fld (Reg.PWR_S_VOLT n) 9 0)
          ∧ RegsKept s u (Reg.PWR_TJ_MAX :: (List.range 16).map Reg.PWR_S_VOLT) ∧ u = { s with regs := u.regs })
        ∧ (let nv := merge (s.rd Reg.PWR_DROOP) v (0xFF03FF &&& m)
           let ok (a b : Nat) : Prop := 650 ≤ a ∧ a ≤ 740 ∧ 2 ≤ b ∧ b ≤ 50
           s.direct f Reg.PWR_DROOP → ok (bits nv 9 0) (bits nv 23 16) → ∃ u, exec (.droopWrite f be v) s = .next u
             ∧ u.fld Reg.PWR_DROOP 9 0 = bits nv 9 0 ∧ u.fld Reg.PWR_DROOP 23 16 = bits nv 23 16
             ∧ RegsKept s u [Reg.PWR_DROOP])
        ∧ (let nv := merge (s.rd Reg.PWR_THERM) v (0xFF00FF &&& m)
           let ok (a b : Nat) : Prop := 60 ≤ a ∧ a ≤ 105 ∧ 80 ≤ b ∧ b ≤ 110
           s.direct f Reg.PWR_THERM → ok (bits nv 7 0) (bits nv 23 16) → ∃ u, exec (.thermWrite f be v) s = .next u
             ∧ u.fld Reg.PWR_THERM 7 0 = bits nv 7 0 ∧ u.fld Reg.PWR_THERM 23 16 = bits nv 23 16
             ∧ RegsKept s u [Reg.PWR_THERM]))

/-- Tests queue, start and end as transient or lasting, repairs of poisoned pieces are fetched or have no path, and
logs clear and move (R339, R345, R346, R347, R348, R349, R350, R351, R352, R354, R359, R360). -/
def Obligations.FaultsTestsRepairs : Prop :=
  ∀ (s : State) (t : Nat),
    let s' := s.at_ t
    (∀ f, s.direct f Reg.FLT_CMD →
      let v := s.rd Reg.FLT_TEST
      let k := bits v 31 28
      let u := bits v 15 0
      let job : TestJob := ⟨if k = 3 then 21 else if k = 4 then 22 else k, u, 3, 0xFFFF, false⟩
      (∀ j, s.testNamed v = some j → exec (.fltTest f) s = .next (s.queueTest j))
      ∧ (s.testNamed v = none → exec (.fltTest f) s = .next s)
      ∧ (s.isFenced k u = true → exec (.fltRetest f) s = .next (s.queueTest job))
      ∧ (s.isFenced k u = false → exec (.fltRetest f) s = .next s)
      ∧ exec (.clrLog f) s = .next (s.clearRing 0))
    ∧ (∀ j : TestJob, (∀ k ∈ s.flt.testQ ++ s.flt.testing, ¬(k.kind = j.kind ∧ k.unit = j.unit)) → s.flt.testQ.length < 64 →
        (s.queueTest j).flt = { s.flt with testQ := s.flt.testQ ++ [j] })
    ∧ (∀ j js, s.flt.testQ = j :: js → j ∉ js → s.testFree j = true → s.serves j = none →
        ∃ u, exec (.testStart t) s = .next u ∧ u.flt = { s.flt with testQ := js, testing := s.flt.testing ++ [j] }
          ∧ u.bit Reg.FLT_TEST_STAT 31 = true ∧ u.fld Reg.FLT_TEST_STAT 22 16 = js.length % 128)
    ∧ (∀ j, s.flt.testing = [j] → (∀ n, SMap.find s.tdm.verdictMine n = none) →
        (j.spoiled = false → j.cause ≠ 3 → j.kind ≠ 1 →
          (s.flt.history.filter (fun h => h.1 == j.kind && h.2.1 == j.unit && decide (s'.now ≤ h.2.2 + 600000000000))).length < 2 →
          ∃ u, exec (.testComplete j.kind j.unit true t) s = .next u ∧ u.flt.testing = []
            ∧ u.rd Reg.FLT_TRANSIENTS = satAdd (s.rd Reg.FLT_TRANSIENTS) 1 ∧ u.fld Reg.FLT_TEST_STAT 9 8 = 1
            ∧ u.flt.history = (j.kind, j.unit, s'.now) :: s.flt.history ∧ u.flt.fenced = s.flt.fenced
            ∧ (j.kind = 0 → j.unit ∈ u.flt.engFree))
        ∧ (s.flt.fenced.length < 1024 → ∃ u, exec (.testComplete j.kind j.unit false t) s = .next u ∧ u.flt.testing = []
            ∧ u.rd Reg.FLT_LASTING = satAdd (s.rd Reg.FLT_LASTING) 1 ∧ u.fld Reg.FLT_TEST_STAT 9 8 = 2
            ∧ u.isFenced (fenceTarget j.kind j.unit).1 (fenceTarget j.kind j.unit).2 = true))
    ∧ (∀ die bank n, s.flt.remapping = [(die, bank, n)] → exec (.bankRemapCopyDone die bank) s = .next (s.modFlt (fun f =>
        { f with remapping := [], remapReady := SMap.put (512 * die + bank) n f.remapReady })))
    ∧ (∀ f n, n < 8 → s.direct f (Reg.FLT_I_CMD n) → exec (.instanceClrLog f n) s = .next (s.clearRing (1 + n)))
    ∧ (∀ f n v, n < 9 →
        let a := if n = 0 then Reg.FLT_LOG_TAIL else Reg.FLT_I_LOG_TAIL (n - 1)
        let x := s.ring n
        let p := v.toNat % ringMod n
        s.direct f a → x.tail < ringMod n →
        ((p + ringMod n - x.tail) % ringMod n ≤ x.fill n →
          exec (.logTailWrite f n 0xF v) s = .next ((s.setRing n { x with tail := p }).healIf (· == a)))
        ∧ (x.fill n < (p + ringMod n - x.tail) % ringMod n → exec (.logTailWrite f n 0xF v) s = .next (s.healIf (· == a))))
    ∧ (∀ n r rs im d, (s.inst n).repairs = r :: rs → (s.inst n).image = some im → im.repairs[r.desc]? = some d →
        let stuck := s.noPath n r.stage 0xFFFF (BitVec.ofNat 32 (d.piece r.piece).1)
        (r.phase = 1 → d.source = 1 → exec (.repairFetchDone n true) s = .next (s.setRepair n 3 r.bytes)
          ∧ exec (.repairFetchDone n false) s = .next (s.setRepair n 2 []))
        ∧ (r.phase = 1 → d.source = 0 → exec (.repairFetchDone n false) s = .next stuck
            ∧ (∀ bs, s.bootPiece im d r.piece = some bs → exec (.repairFetchDone n true) s = .next (s.setRepair n 3 bs))
            ∧ (s.bootPiece im d r.piece = none → exec (.repairFetchDone n true) s = .next stuck))
        ∧ (∀ host q e es bs, r.phase = 2 → d.source = 1 → s.localQueue n d.ref = some q → (s.queue q).entries = e :: es →
            s.tdm.st ≠ 2 → leField e.bytes 0 2 = r.desc → leField e.bytes 4 4 = d.pieceOffset r.piece →
            (s.placeHost host).hostBytes (leField e.bytes 16 8) (d.piece r.piece).2 = some bs →
            exec (.repairEntry n host) s = .next ((((s.placeHost host).readQueue q).1).setRepair n 1 bs)))
    ∧ (∀ n, (∀ sid, s.repairExpired n = some sid → ∃ u, exec (.repairWaitExpiry n) s = .next u
          ∧ u = s.noPath n sid 0xFFFF 0 ∧ ((s.inst n).st.parks = true → (u.inst n).st = .kickstand))
        ∧ (s.repairExpired n = none → exec (.repairWaitExpiry n) s = .next s))

/-- Pairing starts, completes, fails or times out; frames are kept until acknowledged, taken in order and replayed;
a lost pair goes solo (R365, R366, R367, R374, R375, R377). -/
def Obligations.TandemLink : Prop :=
  ∀ (s : State) (t : Nat),
    let s' := s.at_ t
    let y := s.tdm
    let linked := y.st = 1 ∨ y.st = 2
    let ended (u : State) (st : Nat) : Prop := u.tdm.st = st ∧ u.tdm.waiting = [] ∧ u.tdm.partner = [] ∧ u.tdm.unacked = []
    let solo (u : State) : Prop := ended u 3 ∧ (u.rd Reg.TDM_EVT).getLsbD 4 = true
      ∧ (if y.role = 2 then u.tdm.takeover = true ∧ u.tdm.delayed = true
         else u.tdm.takeover = y.takeover ∧ u.tdm.delayed = y.delayed)
    (∀ f, s.direct f Reg.TDM_CMD →
      (s.allUnloaded = false → exec (.pair f t) s = .next (s'.event Reg.TDM_EVT 1))
      ∧ (s.allUnloaded = true → (y.strap = 1 ∨ y.strap = 2) → y.st ≠ 1 → ∃ u, exec (.pair f t) s = .next u ∧ u.tdm.st = 1
          ∧ u.tdm.prev = y.st ∧ u.tdm.pairAt = s'.now ∧ u.tdm.txSeq = 1 ∧ u.tdm.rxSeq = 0 ∧ u.tdm.unacked = []
          ∧ u.tdm.inbox = [] ∧ u = { s' with tdm := u.tdm })
      ∧ (s.allUnloaded = true → (y.strap = 0 ∨ y.strap = 3 ∨ y.st = 1) → exec (.pair f t) s = .next s')
      ∧ exec (.leaveCmd f t) s = .next s')
    ∧ (∀ f, s.fnOn f = true → s.owns f Reg.TDM_CMD = true → (s.dom 110).stopped = false → y.st = 2 →
        (y.role = 2 ∨ s.tickDue = false) → ∃ u, exec (.leaveCmd f t) s = .next u ∧ ended u 4
          ∧ (u.rd Reg.TDM_EVT).getLsbD 2 = true)
    ∧ (y.st = 1 → y.pairAt + 100000000 ≤ s'.now → exec (.pairTimeout t) s
        = .next (({ s' with tdm := { y with st := y.prev } } : State).event Reg.TDM_EVT 1))
    ∧ (linked → y.lastTx + 250 ≤ s'.now → ∃ u fr, exec (.helloSend t) s = .next u ∧ fr.seq = y.txSeq ∧ fr.ack = y.rxSeq
        ∧ fr.msgs = [s.hello] ∧ u.tdm.unacked = y.unacked ++ [fr] ∧ u.tdm.sent = fr :: y.sent ∧ u.tdm.txSeq = y.txSeq + 1
        ∧ u.tdm.lastTx = s'.now ∧ u = { s' with tdm := u.tdm })
    ∧ (∀ fr : Frame, fr.lane < 8 → s.bit Reg.TDM_LANE_EN fr.lane = true → s.isFenced 7 fr.lane = false →
        (∀ j ∈ s.flt.testing, ¬(j.kind = 7 ∧ j.unit = fr.lane)) →
        let up := { y with lanesUp := y.lanesUp ||| BitVec.ofNat 8 (2 ^ fr.lane) }
        let discards : Prop := ∃ u, exec (.tandemFrame fr t) s = .next u ∧ Logged { s' with tdm := up, free := s.free + 1 } u []
          ∧ u.rd Reg.FLT_SRC_SUM = s.rd Reg.FLT_SRC_SUM ||| 0x10000
        (parseFrame fr = none → discards)
        ∧ ∀ v, parseFrame fr = some v →
          ((v.crc.toNat ≠ bits64 v.trailer 31 0 ∨ v.linkOk = false) → discards)
          ∧ (v.crc.toNat = bits64 v.trailer 31 0 → v.linkOk = true → ¬linked → exec (.tandemFrame fr t) s = .next { s' with tdm := up })
          ∧ (v.crc.toNat = bits64 v.trailer 31 0 → v.linkOk = true → linked →
              let left := y.unacked.filter (fun g => isAfter g.seq v.stamp)
              let acked : Tandem := { up with unacked := left, lastRx := s'.now
                                              lastAck := if left.length < y.unacked.length then s'.now else y.lastAck }
              (v.seq = y.rxSeq → exec (.tandemFrame fr t) s = .next { s' with tdm := acked })
              ∧ (v.seq = y.rxSeq + 1 → y.ahead = [] → exec (.tandemFrame fr t) s
                  = .next { s' with tdm := { acked with rxSeq := v.seq, inbox := v.messages.foldl takeMessage y.inbox } })))
    ∧ (linked → y.unacked ≠ [] → y.lastAck + 500 ≤ s'.now → ∃ u, exec (.replayTimeout t) s = .next u
        ∧ u.tdm = { y with sent := y.unacked.reverse ++ y.sent, lastTx := s'.now, lastAck := s'.now }
        ∧ u.rd Reg.TDM_REPLAYS = satAdd (s.rd Reg.TDM_REPLAYS) y.unacked.length ∧ RegsKept s u [Reg.TDM_REPLAYS])
    ∧ (∀ m ms, y.inbox = m :: ms →
        let got := { s' with tdm := { y with inbox := ms } }
        (leField m 0 1 = 8 →
          (y.st ≠ 1 → exec (.helloMsg t) s = .next got)
          ∧ (y.st = 1 → s.helloFits m = false → exec (.helloMsg t) s
              = .next (({ s' with tdm := { y with inbox := ms, st := y.prev } } : State).event Reg.TDM_EVT 1))
          ∧ (y.st = 1 → s.helloFits m = true → ∃ u, exec (.helloMsg t) s = .next u ∧ u.tdm.st = 2
              ∧ (u.rd Reg.TDM_EVT).getLsbD 0 = true ∧ (y.role = 2 → 2 ≤ s.store.st → u.store.st = 2)))
        ∧ (leField m 0 1 = 9 → (y.st ≠ 2 → exec (.leaveMsg t) s = .next got)
            ∧ (y.st = 2 → ∃ u, exec (.leaveMsg t) s = .next u ∧ solo u)))
    ∧ (y.st = 2 → (y.lastRx + s.fld Reg.TDM_LOSS 15 0 ≤ s'.now ∨ y.lanesUp = 0) →
        ∃ u, exec (.partnerLoss t) s = .next u ∧ solo u)

/-- The messages of the pair take effect in order: ticks, writes and data, signatures, tests and verdicts, marks,
faults and repairs (R369, R370, R371, R372, R375, R376). -/
def Obligations.TandemMessages : Prop :=
  ∀ (s : State) (t : Nat) (m : List Byte) (ms : List (List Byte)), s.tdm.inbox = m :: ms →
    let s' := s.at_ t
    let y := s.tdm
    let got : State := { s' with tdm := { y with inbox := ms } }
    let n := leField m 1 1
    let line : Word := BitVec.ofNat 32 (leField m 4 4)
    let is (code : Nat) : Prop := leField m 0 1 = code
    (is 1 →
      let at_ := s'.now + s.fld Reg.TDM_DELAY 11 0 - s.fld Reg.TDM_LINK_NS 11 0
      let own := s.cad.tickSrc == 0 && s.cad.sheetSrc == 0
      let mark := leField m 16 1 % 2 == 1 || (own && s.cad.wide)
      let edge := if own then s.cad.lastEdge else none
      (s.follower = false → exec (.tdmTick t) s = .next got)
      ∧ (s.follower = true → s'.now ≤ at_ → exec (.tdmTick t) s
          = .next (got.modCad (fun c => { c with due := c.due ++ [{ at_ := at_, src := 3, mark := mark, edge := edge }] })))
      ∧ (s.follower = true → at_ < s'.now → exec (.tdmTick t) s
          = .next (((got.count Reg.TDM_LATE_TICKS).event Reg.TDM_EVT 5).deliver mark edge)))
    ∧ (is 3 →
        let bar := leField m 1 1
        let off := leField m 4 4
        (s.tickDue = true → exec (.writeMsg t) s = .next s')
        ∧ (s.tickDue = false → s.follower = true → toTdm bar off = false → exec (.writeMsg t) s
            = got.apply (leField m 2 1) bar off (BitVec.ofNat 4 (leField m 8 1)) (wd (leField m 16 4)))
        ∧ (s.tickDue = false → s.follower = true → toTdm bar off = true → exec (.writeMsg t) s = .next got))
    ∧ (is 4 → dataOpen m = false →
        let id := leField m 2 2
        let bs := (m.drop 64).take (dataUnits m)
        (s.tickDue = true → exec (.dataMsg t) s = .next s')
        ∧ (s.tickDue = false → n = 0 → exec (.dataMsg t) s = .next (got.queueLanded id bs))
        ∧ (s.tickDue = false → n ≠ 0 →
            let took : State := { got with tdm := { got.tdm with
              dataIn := addData y.dataIn { kind := n, id := id, off := leField m 8 8, bytes := bs } } }
            let len := s.fld (Reg.INS_I_LOAD_LEN id) 29 0
            (n = 3 ∨ n = 4 ∧ id < 256 ∨ 4 < n → exec (.dataMsg t) s = .next took)
            ∧ ∀ b, n = 1 → id < 8 → (s.inst id).st = .loading → (s.inst id).load = none → s.bit (Reg.INS_I_LOAD_SRC id) 31 = false →
                len ≠ 0 → took.dataBytes 1 id 0 len = some b → ∃ u, exec (.dataMsg t) s = .next u
                  ∧ u.inst id = { s.inst id with load := some (some b) } ∧ ∀ k, k ≠ id → u.inst k = s.inst k))
    ∧ (is 2 →
        let p : Sign := { inst := n, void := leField m 2 1 == 1, line := line, sig := BitVec.ofNat 32 (leField m 8 4)
                          flags := BitVec.ofNat 8 (leField m 12 1) }
        ((∀ w ∈ y.waiting, ¬(w.1.inst = n ∧ w.1.line = line)) → exec (.sigMsg t) s
          = .next { got with tdm := { got.tdm with partner := y.partner ++ [p] } })
        ∧ (∀ g at_, y.waiting = [(g, at_)] → g.inst = n → g.line = line → exec (.sigMsg t) s
            = .next (({ got with tdm := { got.tdm with waiting := [] } } : State).resolve g (g.classify p))))
    ∧ (is 5 → n < 8 → ∃ u, exec (.tdmTest t) s = .next u ∧ u.bit (Reg.TDM_I_STAT n) 31 = true
        ∧ u.fld (Reg.TDM_I_STAT n) 13 8 = (s.fld (Reg.TDM_I_STAT n) 13 8 + 1) % 64 ∧ RegsKept s u [Reg.TDM_I_STAT n]
        ∧ u.tdm.tests = y.tests ++ [(n, leField m 2 1, leField m 3 1, leField m 8 8)])
    ∧ (is 6 →
        let kept : State := { got with tdm := { got.tdm with verdictTheirs := SMap.put n (leField m 2 1 % 2) y.verdictTheirs } }
        (SMap.find y.verdictMine n = none → exec (.verdictMsg t) s = .next kept)
        ∧ (∀ v, n < 8 → SMap.find y.verdictMine n = some v → v.engLeft = false → v.colLeft = false → v.failed = false →
            leField m 2 1 % 2 = 0 → ∃ u, exec (.verdictMsg t) s = .next u ∧ u.bit (Reg.TDM_I_STAT n) 31 = false
              ∧ u.rd (Reg.TDM_I_TRANSIENT n) = satAdd (s.rd (Reg.TDM_I_TRANSIENT n)) 1
              ∧ (u.rd (Reg.TDM_I_EVT n)).getLsbD 2 = true ∧ SMap.find u.tdm.verdictMine n = none ∧ u.tdm.st = y.st))
    ∧ (is 7 → ∃ u, exec (.markMsg t) s = .next u ∧ SMap.find u.tdm.markLine n = some line
        ∧ u.inst n = { s.inst n with unmarked := (s.inst n).unmarked.filter (fun d =>
            isAfter (BitVec.ofNat 32 d.num) (BitVec.ofNat 32 (leField m 8 4))) }
        ∧ (∀ k, k ≠ n → u.inst k = s.inst k) ∧ u.regs = s.regs)
    ∧ (is 10 →
        ((∃ f ∈ y.faults, f.1 = n) → exec (.faultMsg t) s
          = .next { got with tdm := { got.tdm with faults := y.faults.filter (fun f => f.1 != n) } })
        ∧ ((∀ f ∈ y.faults, f.1 ≠ n) → exec (.faultMsg t) s
            = .next { got with tdm := { got.tdm with theirs := y.theirs ++ [n] } }))
    ∧ (is 11 → ∀ im d b k, (s.inst n).image = some im → im.repairs[leField m 2 1]? = some d → s.descBase n d = some b →
        (List.range (d.length / 4096 + 2)).find? (fun j => d.pieceOffset j == leField m 4 4) = some k →
        let off := leField m 4 4
        let len := (d.piece k).2
        (s.poisoned (b + off) len = true → exec (.tdmRepair t) s = .next (got.tdmFrame (dataMessage 3 n off [])))
        ∧ (s.poisoned (b + off) len = false → exec (.tdmRepair t) s
            = .next (State.postData 3 n (len / 960 + 1) off (s.rdBytes (b + off) len) got)))
    ∧ (∀ k g at_, y.waiting = [(g, at_)] → g.inst = k → at_ + s.fld Reg.TDM_CTRL 11 0 ≤ s'.now →
        exec (.cmpWaitExpiry k t) s = .next (({ s' with tdm := { y with waiting := [] } } : State).resolve g
          (if y.st = 2 then .timing else .agree)))
    ∧ (∀ k f, f ∈ y.faults → f.1 = k → f.2 + 2 ≤ s.devTick → exec (.faultWaitExpiry k t) s = .next (s'.leavePair 2))

/-- Host writes reach the fields they may write, aliases set, clear and toggle, reads latch shadows, and parity
faults are contained (R3, R370, R399, R400, R403, R404, R405, R406, R407, R408, R411). -/
def Obligations.HostAccess : Prop :=
  ∀ (s : State) (f a : Nat) (be : BitVec 4) (v : Word) (d : RegDesc),
    let plain := regAt a = some d ∧ plainReg a = true ∧ s.noPlan a = false ∧ a % 4 = 0 ∧ a < 0x4000000 ∧ d.w1c = 0 ∧ d.cmd = 0
      ∧ (∀ h ∈ hooks, rowOf h.base h.stride h.count a = none) ∧ evtReg a = false ∧ evtReg (a - 4) = false
    let b := v &&& beMask be
    let old := s.rd a
    let alias_ (c : Instr) (n : Word) : Prop := wd d.rw ≠ 0 →
      exec c s = .next ((s.wr a (merge old n (wd d.rw))).healIf (· == a))
    (plain → s.direct 0 a →
      (let m := (wd d.rw ||| wd d.prv ||| wd d.cnt ||| (if s.lckOpen a then wd d.lck else 0)) &&& beMask be
       (m &&& (wd d.rw ||| wd d.lck ||| wd d.prv) ≠ 0 →
         exec (.registerWrite 0 a be v) s = .next ((s.wr a (merge old v m)).healIf (· == a)))
       ∧ (m = 0 → exec (.registerWrite 0 a be v) s = .next s))
      ∧ alias_ (.setAlias 0 a be v) (old ||| b) ∧ alias_ (.clearAlias 0 a be v) (old &&& ~~~b)
      ∧ alias_ (.toggleAlias 0 a be v) (old ^^^ b))
    ∧ (regAt a = none → aliasOf a = 0 → a % 4 = 0 → a + 0xC000 < 0x4000000 → s.tdm.st ≠ 2 → (s.dom (regDomain a)).stopped = false →
        ∀ c ∈ [Instr.setAlias 0 a be v, .clearAlias 0 a be v, .toggleAlias 0 a be v], exec c s = .fault (.unpredictable 406))
    ∧ (a % 4 = 0 → a < 0x100000 →
        (s.fnOn f = false → exec (.registerWrite f a be v) s = .next s)
        ∧ (s.fnOn f = true → 1 ≤ f → s.tdm.st ≠ 2 → aliasOf a = 0 → gateable (regDomain (0x100000 + a)) = false →
            s.owns f (0x100000 + a) = false → regAt (0x100000 + a) ≠ none → exec (.registerWrite f a be v) s = .next s)
        ∧ (s.tdm.st = 2 → s.tdm.role = 2 → exec (.registerWrite 0 a be v) s = .next (s.count Reg.TDM_HOSTWR_DROP))
        ∧ (s.tdm.st = 2 → s.tdm.role = 1 → s.tickDue = true → ∃ u h, exec (.registerWrite 0 a be v) s = .next u
            ∧ u.tdm.held = s.tdm.held ++ [h] ∧ h.off = a ∧ h.be = be ∧ h.v = v ∧ u.regs = s.regs
            ∧ u.tdm.unacked.length = s.tdm.unacked.length + 1))
    ∧ (s.fnOn f = true → exec (.unsupportedRequest f) s = .next (s.event Reg.HIF_EVT 2)
        ∧ (a % 4 ≠ 0 → a < 0x100000 → ∀ c ∈ [Instr.registerWrite f a be v, .counterHighWrite f a be v, .counterLowWrite f a be v,
            .assignmentWrite f a be v, .readShadowLatch f a], exec c s = .next (s.event Reg.HIF_EVT 2)))
    ∧ (aliasOf a = 0 → a % 4 = 0 → a < 0x4000000 → gateable (regDomain a) = false → (s.dom (regDomain a)).stopped = false →
        (latched a = false → ∃ u, exec (.readShadowLatch 0 a) s = .next u ∧ u.hif.lastRead = s.regVal 0 a
          ∧ (∀ r ∈ latches a, SMap.get 0 u.hif.readShadow r = s.regVal 0 r)
          ∧ u = { s with free := u.free, hif := { s.hif with lastRead := u.hif.lastRead, readShadow := u.hif.readShadow } })
        ∧ (latched a = true → exec (.readShadowLatch 0 a) s
            = .next { s with hif := { s.hif with lastRead := SMap.get 0 s.hif.readShadow a } }))
    ∧ (wideLow a = true → s.direct 0 a →
        let w := s.wakeFor a
        exec (.counterLowWrite 0 a 0xF v) s = .next ((w.wr a v).wr (a + 4) (SMap.get 0 s.hif.writeShadow (a + 4)))
        ∧ exec (.counterHighWrite 0 (a + 4) 0xF v) s
          = .next { w with hif := { w.hif with writeShadow := SMap.set 0 (a + 4) v w.hif.writeShadow } })
    ∧ (a < 2 ^ 26 → hasParity a = true →
        let x := s.dom (regDomain a)
        (a ∈ s.hif.parityReported → exec (.parityFault a) s = .next s)
        ∧ (a ∉ s.hif.parityReported → x.gated = true ∨ x.stopped = true → exec (.parityFault a) s = .next (s.parityStands a))
        ∧ (a ∉ s.hif.parityReported → x.gated = false → x.stopped = false → ∃ u, exec (.parityFault a) s = .next u
            ∧ a ∈ u.hif.parityReported
            ∧ u.rd Reg.HIF_PAR_COUNT = satAdd (s.rd Reg.HIF_PAR_COUNT) 1 ∧ u.bit Reg.HIF_EVT 0 = true
            ∧ (s.bit Reg.HIF_PAR_ADDR 31 = false → u.rd Reg.HIF_PAR_ADDR = wd (2 ^ 31 + a))
            ∧ (∀ n, s.parityOwner a = some n → (s.inst n).st.parks = true → (u.inst n).st = .kickstand)
            ∧ (s.parityOwner a = none → u.flt.down = true))
        ∧ (s.direct f Reg.HIF_PAR_INJ → v.getLsbD 31 = true → bits v 25 2 * 4 = a → queReg a = false → a ≠ Reg.HIF_PAR_INJ →
            ∃ u, exec (.parityInject f v) s = .next u ∧ (a ∈ u.hif.parityBad ↔ a ∉ s.hif.parityBad)
              ∧ RegsKept s u [Reg.HIF_PAR_INJ]))
    ∧ (∀ vec, s.fnOn f = true → vec < (if f = 0 then 256 else 32) → ∃ u, exec (.msiXUnmask f vec) s = .next u
        ∧ u.hif.fnMask.getLsbD f = false ∧ 256 * f + vec ∈ u.hif.vecOpen ∧ 256 * f + vec ∉ u.hif.pba
        ∧ (256 * f + vec ∈ s.hif.pba → (f, vec) ∈ u.hif.msgs)
        ∧ (∀ k, k / 256 ≠ f → (k ∈ u.hif.pba ↔ k ∈ s.hif.pba)) ∧ u.regs = s.regs)

/-- Straps, resets, the flash boot, the SMBus, boundary scan, the debug access, the memory window and the probes do
what their rules say (R355, R366, R378, R415, R418, R419, R422, R423, R424, R426, R429, R430). -/
def Obligations.BootPinsAndDebug : Prop :=
  ∀ (s : State) (t : Nat),
    let s' := s.at_ t
    (∀ straps : BitVec 8, s.sig.straps = none →
      let b (n : Nat) : Nat := if straps.getLsbD n then 1 else 0
      let pair := b 3 + 2 * b 4
      ∃ u, exec (.strapSample straps t) s = .next u ∧ u.sig.straps = some straps ∧ u.tdm.strap = pair
        ∧ u.rd Reg.HIF_STRAPS = wd (b 0 + 2 * b 1 + 16 * b 2 + 256 * pair + 4096 * b 5)
        ∧ u.bit Reg.CLK_STAT 28 = straps.getLsbD 2 ∧ u.tdm.role = (if pair = 3 then 0 else pair)
        ∧ RegsKept s u [Reg.HIF_STRAPS, Reg.CLK_STAT])
    ∧ exec (.perstRise t) s = .next { s' with sig := { s.sig with perst := true } }
    ∧ (s.store.hold ≠ 0 → exec (.managerFunctionLevelReset t) s = .next s')
    ∧ (s.store.hold = 0 →
        let cleared (u : State) : Prop := u.queues = [] ∧ u.engines = [] ∧ u.tiles = [] ∧ u.insts = [] ∧ u.tasks = []
          ∧ (∀ a, a ∉ Reg.STO_TARGETS :: domNums.map Reg.CLK_D_BRAKED ++ shownRegs → u.rd a = resetValue a)
          ∧ (∀ d, d < 116 → (s.dom d).braked = false → u.rd (Reg.CLK_D_BRAKED d) = 0)
        (∃ u, exec (.managerFunctionLevelReset t) s = .next u ∧ cleared u ∧ u.hif.vfEnabled = s.hif.vfEnabled)
        ∧ (s.sig.perst = true → ∃ u, exec (.perstFall t) s = .next u ∧ cleared u ∧ u.hif.vfEnabled = 0 ∧ u.hif.vecOpen = []
            ∧ u.sig.perst = false))
    ∧ (s.sig.mapped = true → s.flashStrap = true → s.flt.down = false → (s.inst 0).st = .unloaded → s.sig.boot = 0 →
        (s.bootImage 0 = none → s.bootImage 1 = none → ∃ u, exec .flashBoot s = .next u ∧ u.sig.boot = 3
          ∧ u.fld Reg.DBG_BOOT 31 30 = 2 ∧ u.fld Reg.DBG_BOOT 15 8 = 0x0D ∧ u.fld Reg.DBG_BOOT 7 0 = 0x0D
          ∧ u.bit Reg.DBG_EVT 4 = true)
        ∧ (∀ x v, s.bootImage (s.bootIndex 1) = some x → s.hif.vfWritten = false →
            ({ s with sig := { s.sig with bootAgain := false } } : State).bootAssign
              (parseResources (secBytes x.payload (directory x.payload) 1)) = some v →
            ∃ u, exec .flashBoot s = .next u ∧ u.sig.boot = 1 ∧ (u.inst 0).st = .loading))
    ∧ (let p := s.sig.smbPtr
       let next (u : State) : State := { u with sig := { u.sig with smbPtr := p + 4 } }
       (∀ v, exec (.smbSetPointer v) s = .next { s with sig := { s.sig with smbPtr := v } })
       ∧ (smbReads p.toNat = true → exec .smbBlockRead s = .next { s.readReg 0 p.toNat with sig := { (s.readReg 0 p.toNat).sig with
           smbPtr := (s.readReg 0 p.toNat).sig.smbPtr + 4 } })
       ∧ (smbReads p.toNat = false → exec .smbBlockRead s = .next (next { s with hif := { s.hif with lastRead := 0 } }))
       ∧ (∀ v, p.toNat = Reg.CLK_EVT ∨ p.toNat = Reg.PWR_EVT → (s.dom 114).stopped = false →
           ∃ u, exec (.smbEventWrite v) s = .next u
             ∧ u.rd p.toNat = s.rd p.toNat &&& ~~~(v &&& (if p.toNat = Reg.CLK_EVT then 0xF
                 else if s.bit Reg.PWR_STAT 31 = true ∧ s.bit Reg.PWR_STAT 30 = false then 0x1D else 0x1F))
             ∧ RegsKept s u [p.toNat, Reg.HIF_MSG_DROP])
       ∧ (∀ v, p.toNat ∉ [Reg.HIF_EVT, Reg.CLK_EVT, Reg.PWR_EVT] → exec (.smbEventWrite v) s = .next s)
       ∧ exec .alertResponse s = .next { s with sig := { s.sig with alert := false } })
    ∧ (let quiet := s.allUnloaded = true ∧ (s.store.st = 0 ∨ s.store.st = 4 ∨ s.store.st = 5)
       (∀ c n, (c, n) ∈ [(Instr.extest, (0x00 : Byte)), (.highz, 0x03), (.clamp, 0x04)] →
         (quiet → exec c s = .next (s.jtag n n 0)) ∧ (¬quiet → exec c s = .next ((s.jtag n 0xFF 0).event Reg.DBG_EVT 0)))
       ∧ exec .samplePreload s = .next (s.jtag 0x02 0xFF 0) ∧ exec .bypass s = .next (s.jtag 0xFF 0xFF 0)
       ∧ exec .idcode s = .next (s.jtag 0x01 0xFF Machine.idcode) ∧ exec .testLogicReset s = .next (s.jtag 0x01 0xFF Machine.idcode))
    ∧ (∀ off v : Word,
        (s.bit Reg.HIF_STRAPS 12 = true → exec (.dbgaccRead off) s = .next (s.jtag 0xFF 0xFF 0)
          ∧ exec (.dbgaccWrite off v) s = .next (s.jtag 0xFF 0xFF 0))
        ∧ (s.bit Reg.HIF_STRAPS 12 = false →
          (dbgBad off = true → exec (.dbgaccRead off) s = .next (s.dbgDone true 1 off (s.sig.dr.setWidth 32))
            ∧ exec (.dbgaccWrite off v) s = .next (s.dbgDone true 2 off v))
          ∧ (dbgBad off = false → exec (.dbgaccRead off) s
              = .next ((s.readReg 0 off.toNat).dbgDone false 1 off (s.readReg 0 off.toNat).hif.lastRead)
            ∧ (∀ d, s.direct 0 off.toNat → regAt off.toNat = some d → wd d.rw ≠ 0 → d.lck = 0 → d.prv = 0 → d.cnt = 0 → d.w1c = 0 →
                d.cmd = 0 → plainReg off.toNat = true → s.noPlan off.toNat = false → evtReg off.toNat = false →
                (∀ h ∈ hooks, rowOf h.base h.stride h.count off.toNat = none) → evtReg (off.toNat - 4) = false →
                exec (.dbgaccWrite off v) s = .next (((s.dbgDone false 2 off v).wr off.toNat (merge (s.rd off.toNat) v (wd d.rw))).healIf
                  (· == off.toNat))))))
    ∧ (∀ f, s.direct f Reg.DBG_MEM_CMD → s.sig.memOp = none →
        let failed := (s.setBit Reg.DBG_MEM_STAT 1 true).event Reg.DBG_EVT 2
        (s.debugWord = none → exec (.dbgMemRead f) s = .next failed ∧ exec (.dbgMemWrite f) s = .next failed)
        ∧ ∀ m n off, s.debugWord = some (m, n, off) →
          let busy (w : Option DWord) : State := { s.wr Reg.DBG_MEM_STAT 0x80000000 with
            sig := { s.sig with memOp := some { memory := m, unit := n, off := off, word := w } } }
          exec (.dbgMemRead f) s = .next (busy none)
          ∧ exec (.dbgMemWrite f) s = .next (busy (some (s.rd Reg.DBG_MEM_DATA_HI ++ s.rd Reg.DBG_MEM_DATA_LO))))
    ∧ (∀ o k, s.clean → s.sig.memOp = some o → memOf o.memory = some k →
        let a := memAddr k o.unit o.off
        (∀ w, o.word = some w → ∃ u, exec .memAccessDone s = .next u ∧ u.rdBytes a 8 = leBytes 8 w.toNat ∧ BytesKept s u a 8
          ∧ u.sig.memOp = none ∧ u.bit Reg.DBG_EVT 3 = true ∧ u.rd Reg.DBG_MEM_STAT = 0)
        ∧ (o.word = none → ∃ u, exec .memAccessDone s = .next u ∧ u.mem = s.mem ∧ u.bit Reg.DBG_EVT 3 = true
            ∧ u.rd64 Reg.DBG_MEM_DATA_LO Reg.DBG_MEM_DATA_HI = leNat (s.rdBytes a 8) ∧ u.rd Reg.DBG_MEM_STAT = 0))
    ∧ (∀ f k be v, k < 4 →
        let m := 0xFFFF &&& beMask be
        let nv := merge (s.rd (Reg.DBG_P_CNT k)) v m &&& 0xFFFF
        s.direct f (Reg.DBG_P_CNT k) → m ≠ 0 → ∃ u, exec (.probeArm f k be v) s = .next u ∧ u.rd (Reg.DBG_P_CNT k) = nv
          ∧ u.rd (Reg.DBG_P_STAT k) = nv ∧ u.sig.probeArmed.getLsbD k = true
          ∧ RegsKept s u [Reg.DBG_P_CNT k, Reg.DBG_P_STAT k])
    ∧ (∀ k a b once, k < 4 → a ≤ b → s.sig.windows = [(k, a, b, once)] → ∃ u, exec (.probeWindowEdge k t) s = .next u
        ∧ u.sig.probeB.getLsbD k = decide (a ≤ s'.now ∧ s'.now < b)
        ∧ (b ≤ s'.now → u.sig.windows = [])
        ∧ (b ≤ s'.now → once = true → u.bit (Reg.DBG_P_STAT k) 31 = true ∧ u.bit Reg.DBG_EVT 1 = true))
end

