-- ==== Sys2Proof/Laws/Dispatch.lean ====
section
/-! SUPPORT. What `exec` does with each command: it calls that command's meaning. -/

namespace Sys2Proof.Machine

variable (s : State)

@[simp] theorem exec_cadenceInEdge (e) : exec (.cadenceInEdge e) s = execCadenceInEdge e s := rfl
@[simp] theorem exec_cadenceInPulseEnd (e) : exec (.cadenceInPulseEnd e) s = execCadenceInPulseEnd e s := rfl
@[simp] theorem exec_sheetWidthExpiry (t) : exec (.sheetWidthExpiry t) s = execSheetWidthExpiry t s := rfl
@[simp] theorem exec_tick (t) : exec (.tick t) s = execTick t s := rfl
@[simp] theorem exec_stageLineFinish (n sid t) : exec (.stageLineFinish n sid t) s = execStageLineFinish n sid t s := rfl
@[simp] theorem exec_cadPeriodWrite (f be v) : exec (.cadPeriodWrite f be v) s = execCadPeriodWrite f be v s := rfl
@[simp] theorem exec_srcSwitch (f be v t) : exec (.srcSwitch f be v t) s = execSrcSwitch f be v t s := rfl
@[simp] theorem exec_cadStep (f sheet t) : exec (.cadStep f sheet t) s = execCadStep f sheet t s := rfl
@[simp] theorem exec_hostMark (f) : exec (.hostMark f) s = execHostMark f s := rfl
@[simp] theorem exec_cadClrMax (f) : exec (.cadClrMax f) s = execCadClrMax f s := rfl
@[simp] theorem exec_emptyLimitWrite (f n be v) : exec (.emptyLimitWrite f n be v) s = execEmptyLimitWrite f n be v s := rfl
@[simp] theorem exec_tickTimeout (t) : exec (.tickTimeout t) s = execTickTimeout t s := rfl
@[simp] theorem exec_blockLockLost (j) : exec (.blockLockLost j) s = execBlockLockLost j s := rfl
@[simp] theorem exec_highBer (j) : exec (.highBer j) s = execHighBer j s := rfl
@[simp] theorem exec_blockLockGained (j) : exec (.blockLockGained j) s = execBlockLockGained j s := rfl
@[simp] theorem exec_invalidBlock (j) : exec (.invalidBlock j) s = execInvalidBlock j s := rfl
@[simp] theorem exec_vlfFrame (fr t) : exec (.vlfFrame fr t) s = execVlfFrame fr t s := rfl
@[simp] theorem exec_inlLaneEnWrite (f be v) : exec (.inlLaneEnWrite f be v) s = execInlLaneEnWrite f be v s := rfl
@[simp] theorem exec_resync (f n) : exec (.resync f n) s = execResync f n s := rfl
@[simp] theorem exec_inlClr (f) : exec (.inlClr f) s = execInlClr f s := rfl
@[simp] theorem exec_streamMapWrite (f k r be v) : exec (.streamMapWrite f k r be v) s = execStreamMapWrite f k r be v s := rfl
@[simp] theorem exec_loadw (e) : exec (.loadw e) s = execLoadw e s := rfl
@[simp] theorem exec_tapsum (e) : exec (.tapsum e) s = execTapsum e s := rfl
@[simp] theorem exec_matmul (e) : exec (.matmul e) s = execMatmul e s := rfl
@[simp] theorem exec_dwdiag (e) : exec (.dwdiag e) s = execDwdiag e s := rfl
@[simp] theorem exec_chain (e) : exec (.chain e) s = execChain e s := rfl
@[simp] theorem exec_lutcol (e) : exec (.lutcol e) s = execLutcol e s := rfl
@[simp] theorem exec_bwd (e) : exec (.bwd e) s = execBwd e s := rfl
@[simp] theorem exec_scrubw (e) : exec (.scrubw e) s = execScrubw e s := rfl
@[simp] theorem exec_epilogue (e) : exec (.epilogue e) s = execEpilogue e s := rfl
@[simp] theorem exec_fillDone (e) : exec (.fillDone e) s = execFillDone e s := rfl
@[simp] theorem exec_engineScrub (u hits) : exec (.engineScrub u hits) s = execEngineScrub u hits s := rfl
@[simp] theorem exec_tileScrub (c r hits) : exec (.tileScrub c r hits) s = execTileScrub c r hits s := rfl
@[simp] theorem exec_coreScrub (u hits) : exec (.coreScrub u hits) s = execCoreScrub u hits s := rfl
@[simp] theorem exec_bulkScrub (u hits) : exec (.bulkScrub u hits) s = execBulkScrub u hits s := rfl
@[simp] theorem exec_bundle (c r w pe ro) : exec (.bundle c r w pe ro) s = execBundle c r w pe ro s := rfl
@[simp] theorem exec_drainComplete (n sid) : exec (.drainComplete n sid) s = execDrainComplete n sid s := rfl
@[simp] theorem exec_configWriteDone (n sid) : exec (.configWriteDone n sid) s = execConfigWriteDone n sid s := rfl
@[simp] theorem exec_stageReleaseStep (n sid) : exec (.stageReleaseStep n sid) s = execStageReleaseStep n sid s := rfl
@[simp] theorem exec_columnTakeover (c) : exec (.columnTakeover c) s = execColumnTakeover c s := rfl
@[simp] theorem exec_takeoverDone (c) : exec (.takeoverDone c) s = execTakeoverDone c s := rfl
@[simp] theorem exec_add (k d a b z) : exec (.add k d a b z) s = execAdd k d a b z s := rfl
@[simp] theorem exec_sub (k d a b z) : exec (.sub k d a b z) s = execSub k d a b z s := rfl
@[simp] theorem exec_and (k d a b z) : exec (.and k d a b z) s = execAnd k d a b z s := rfl
@[simp] theorem exec_or (k d a b z) : exec (.or k d a b z) s = execOr k d a b z s := rfl
@[simp] theorem exec_xor (k d a b z) : exec (.xor k d a b z) s = execXor k d a b z s := rfl
@[simp] theorem exec_sll (k d a b z) : exec (.sll k d a b z) s = execSll k d a b z s := rfl
@[simp] theorem exec_srl (k d a b z) : exec (.srl k d a b z) s = execSrl k d a b z s := rfl
@[simp] theorem exec_sra (k d a b z) : exec (.sra k d a b z) s = execSra k d a b z s := rfl
@[simp] theorem exec_sraf (k d a b z) : exec (.sraf k d a b z) s = execSraf k d a b z s := rfl
@[simp] theorem exec_slt (k d a b z) : exec (.slt k d a b z) s = execSlt k d a b z s := rfl
@[simp] theorem exec_sltu (k d a b z) : exec (.sltu k d a b z) s = execSltu k d a b z s := rfl
@[simp] theorem exec_mul (k d a b z) : exec (.mul k d a b z) s = execMul k d a b z s := rfl
@[simp] theorem exec_mulh (k d a b z) : exec (.mulh k d a b z) s = execMulh k d a b z s := rfl
@[simp] theorem exec_mulhu (k d a b z) : exec (.mulhu k d a b z) s = execMulhu k d a b z s := rfl
@[simp] theorem exec_div (k d a b z) : exec (.div k d a b z) s = execDiv k d a b z s := rfl
@[simp] theorem exec_divu (k d a b z) : exec (.divu k d a b z) s = execDivu k d a b z s := rfl
@[simp] theorem exec_rem (k d a b z) : exec (.rem k d a b z) s = execRem k d a b z s := rfl
@[simp] theorem exec_remu (k d a b z) : exec (.remu k d a b z) s = execRemu k d a b z s := rfl
@[simp] theorem exec_min (k d a b z) : exec (.min k d a b z) s = execMin k d a b z s := rfl
@[simp] theorem exec_max (k d a b z) : exec (.max k d a b z) s = execMax k d a b z s := rfl
@[simp] theorem exec_clz (k d a b z) : exec (.clz k d a b z) s = execClz k d a b z s := rfl
@[simp] theorem exec_popc (k d a b z) : exec (.popc k d a b z) s = execPopc k d a b z s := rfl
@[simp] theorem exec_addi (k d a imm) : exec (.addi k d a imm) s = execAddi k d a imm s := rfl
@[simp] theorem exec_andi (k d a imm) : exec (.andi k d a imm) s = execAndi k d a imm s := rfl
@[simp] theorem exec_ori (k d a imm) : exec (.ori k d a imm) s = execOri k d a imm s := rfl
@[simp] theorem exec_xori (k d a imm) : exec (.xori k d a imm) s = execXori k d a imm s := rfl
@[simp] theorem exec_slti (k d a imm) : exec (.slti k d a imm) s = execSlti k d a imm s := rfl
@[simp] theorem exec_lui (k d a imm) : exec (.lui k d a imm) s = execLui k d a imm s := rfl
@[simp] theorem exec_lw (k d a imm) : exec (.lw k d a imm) s = execLw k d a imm s := rfl
@[simp] theorem exec_lh (k d a imm) : exec (.lh k d a imm) s = execLh k d a imm s := rfl
@[simp] theorem exec_lhu (k d a imm) : exec (.lhu k d a imm) s = execLhu k d a imm s := rfl
@[simp] theorem exec_lb (k d a imm) : exec (.lb k d a imm) s = execLb k d a imm s := rfl
@[simp] theorem exec_lbu (k d a imm) : exec (.lbu k d a imm) s = execLbu k d a imm s := rfl
@[simp] theorem exec_sw (k d a imm) : exec (.sw k d a imm) s = execSw k d a imm s := rfl
@[simp] theorem exec_sh (k d a imm) : exec (.sh k d a imm) s = execSh k d a imm s := rfl
@[simp] theorem exec_sb (k d a imm) : exec (.sb k d a imm) s = execSb k d a imm s := rfl
@[simp] theorem exec_beq (k a b off) : exec (.beq k a b off) s = execBeq k a b off s := rfl
@[simp] theorem exec_bne (k a b off) : exec (.bne k a b off) s = execBne k a b off s := rfl
@[simp] theorem exec_blt (k a b off) : exec (.blt k a b off) s = execBlt k a b off s := rfl
@[simp] theorem exec_bge (k a b off) : exec (.bge k a b off) s = execBge k a b off s := rfl
@[simp] theorem exec_bltu (k a b off) : exec (.bltu k a b off) s = execBltu k a b off s := rfl
@[simp] theorem exec_bgeu (k a b off) : exec (.bgeu k a b off) s = execBgeu k a b off s := rfl
@[simp] theorem exec_jal (k d off) : exec (.jal k d off) s = execJal k d off s := rfl
@[simp] theorem exec_jalr (k d a imm) : exec (.jalr k d a imm) s = execJalr k d a imm s := rfl
@[simp] theorem exec_vld (k d a imm) : exec (.vld k d a imm) s = execVld k d a imm s := rfl
@[simp] theorem exec_vst (k d a imm) : exec (.vst k d a imm) s = execVst k d a imm s := rfl
@[simp] theorem exec_vlde (k d a imm) : exec (.vlde k d a imm) s = execVlde k d a imm s := rfl
@[simp] theorem exec_vste (k d a imm) : exec (.vste k d a imm) s = execVste k d a imm s := rfl
@[simp] theorem exec_vcvt (k vd va src dst sr p z) : exec (.vcvt k vd va src dst sr p z) s = execVcvt k vd va src dst sr p z s := rfl
@[simp] theorem exec_scvt (k d a src dst sr z) : exec (.scvt k d a src dst sr z) s = execScvt k d a src dst sr z s := rfl
@[simp] theorem exec_shi (k d a imm) : exec (.shi k d a imm) s = execShi k d a imm s := rfl
@[simp] theorem exec_vget (k d a imm) : exec (.vget k d a imm) s = execVget k d a imm s := rfl
@[simp] theorem exec_vadd (k vd va b bs p) : exec (.vadd k vd va b bs p) s = execVadd k vd va b bs p s := rfl
@[simp] theorem exec_vsub (k vd va b bs p) : exec (.vsub k vd va b bs p) s = execVsub k vd va b bs p s := rfl
@[simp] theorem exec_vmul (k vd va b bs p) : exec (.vmul k vd va b bs p) s = execVmul k vd va b bs p s := rfl
@[simp] theorem exec_vmin (k vd va b bs p) : exec (.vmin k vd va b bs p) s = execVmin k vd va b bs p s := rfl
@[simp] theorem exec_vmax (k vd va b bs p) : exec (.vmax k vd va b bs p) s = execVmax k vd va b bs p s := rfl
@[simp] theorem exec_vand (k vd va b bs p) : exec (.vand k vd va b bs p) s = execVand k vd va b bs p s := rfl
@[simp] theorem exec_vor (k vd va b bs p) : exec (.vor k vd va b bs p) s = execVor k vd va b bs p s := rfl
@[simp] theorem exec_vxor (k vd va b bs p) : exec (.vxor k vd va b bs p) s = execVxor k vd va b bs p s := rfl
@[simp] theorem exec_vsll (k vd va b bs p) : exec (.vsll k vd va b bs p) s = execVsll k vd va b bs p s := rfl
@[simp] theorem exec_vsrl (k vd va b bs p) : exec (.vsrl k vd va b bs p) s = execVsrl k vd va b bs p s := rfl
@[simp] theorem exec_vsra (k vd va b bs p) : exec (.vsra k vd va b bs p) s = execVsra k vd va b bs p s := rfl
@[simp] theorem exec_vabs (k vd va b bs p) : exec (.vabs k vd va b bs p) s = execVabs k vd va b bs p s := rfl
@[simp] theorem exec_vfadd (k vd va b bs p) : exec (.vfadd k vd va b bs p) s = execVfadd k vd va b bs p s := rfl
@[simp] theorem exec_vfsub (k vd va b bs p) : exec (.vfsub k vd va b bs p) s = execVfsub k vd va b bs p s := rfl
@[simp] theorem exec_vfmul (k vd va b bs p) : exec (.vfmul k vd va b bs p) s = execVfmul k vd va b bs p s := rfl
@[simp] theorem exec_vfma (k vd va b bs p) : exec (.vfma k vd va b bs p) s = execVfma k vd va b bs p s := rfl
@[simp] theorem exec_vfmin (k vd va b bs p) : exec (.vfmin k vd va b bs p) s = execVfmin k vd va b bs p s := rfl
@[simp] theorem exec_vfmax (k vd va b bs p) : exec (.vfmax k vd va b bs p) s = execVfmax k vd va b bs p s := rfl
@[simp] theorem exec_vfdiv (k vd va b bs p) : exec (.vfdiv k vd va b bs p) s = execVfdiv k vd va b bs p s := rfl
@[simp] theorem exec_vfsqrt (k vd va b bs p) : exec (.vfsqrt k vd va b bs p) s = execVfsqrt k vd va b bs p s := rfl
@[simp] theorem exec_vfscl (k vd va b bs p) : exec (.vfscl k vd va b bs p) s = execVfscl k vd va b bs p s := rfl
@[simp] theorem exec_vfabs (k vd va b bs p) : exec (.vfabs k vd va b bs p) s = execVfabs k vd va b bs p s := rfl
@[simp] theorem exec_vcmpeq (k vd va b bs p) : exec (.vcmpeq k vd va b bs p) s = execVcmpeq k vd va b bs p s := rfl
@[simp] theorem exec_vcmplt (k vd va b bs p) : exec (.vcmplt k vd va b bs p) s = execVcmplt k vd va b bs p s := rfl
@[simp] theorem exec_vcmple (k vd va b bs p) : exec (.vcmple k vd va b bs p) s = execVcmple k vd va b bs p s := rfl
@[simp] theorem exec_vfcmpeq (k vd va b bs p) : exec (.vfcmpeq k vd va b bs p) s = execVfcmpeq k vd va b bs p s := rfl
@[simp] theorem exec_vfcmplt (k vd va b bs p) : exec (.vfcmplt k vd va b bs p) s = execVfcmplt k vd va b bs p s := rfl
@[simp] theorem exec_vfcmple (k vd va b bs p) : exec (.vfcmple k vd va b bs p) s = execVfcmple k vd va b bs p s := rfl
@[simp] theorem exec_vsel (k vd va b bs p) : exec (.vsel k vd va b bs p) s = execVsel k vd va b bs p s := rfl
@[simp] theorem exec_vbcst (k vd va b bs p) : exec (.vbcst k vd va b bs p) s = execVbcst k vd va b bs p s := rfl
@[simp] theorem exec_vpmask (k vd va b bs p) : exec (.vpmask k vd va b bs p) s = execVpmask k vd va b bs p s := rfl
@[simp] theorem exec_vrsum (k vd va b bs p) : exec (.vrsum k vd va b bs p) s = execVrsum k vd va b bs p s := rfl
@[simp] theorem exec_vrmax (k vd va b bs p) : exec (.vrmax k vd va b bs p) s = execVrmax k vd va b bs p s := rfl
@[simp] theorem exec_vrmin (k vd va b bs p) : exec (.vrmin k vd va b bs p) s = execVrmin k vd va b bs p s := rfl
@[simp] theorem exec_vfrsum (k vd va b bs p) : exec (.vfrsum k vd va b bs p) s = execVfrsum k vd va b bs p s := rfl
@[simp] theorem exec_vfrmax (k vd va b bs p) : exec (.vfrmax k vd va b bs p) s = execVfrmax k vd va b bs p s := rfl
@[simp] theorem exec_vfrmin (k vd va b bs p) : exec (.vfrmin k vd va b bs p) s = execVfrmin k vd va b bs p s := rfl
@[simp] theorem exec_vperm (k vd va b bs p) : exec (.vperm k vd va b bs p) s = execVperm k vd va b bs p s := rfl
@[simp] theorem exec_vrot (k vd va b bs p) : exec (.vrot k vd va b bs p) s = execVrot k vd va b bs p s := rfl
@[simp] theorem exec_qwait (k x q z) : exec (.qwait k x q z) s = execQwait k x q z s := rfl
@[simp] theorem exec_qpop (k x q z pe) : exec (.qpop k x q z pe) s = execQpop k x q z pe s := rfl
@[simp] theorem exec_qpush (k x q z) : exec (.qpush k x q z) s = execQpush k x q z s := rfl
@[simp] theorem exec_qcnt (k x q z) : exec (.qcnt k x q z) s = execQcnt k x q z s := rfl
@[simp] theorem exec_enqe (k x q z) : exec (.enqe k x q z) s = execEnqe k x q z s := rfl
@[simp] theorem exec_efill (k x q z) : exec (.efill k x q z) s = execEfill k x q z s := rfl
@[simp] theorem exec_xsub (k x q z) : exec (.xsub k x q z) s = execXsub k x q z s := rfl
@[simp] theorem exec_xlit (k x q z) : exec (.xlit k x q z) s = execXlit k x q z s := rfl
@[simp] theorem exec_tickwait (k x q z) : exec (.tickwait k x q z) s = execTickwait k x q z s := rfl
@[simp] theorem exec_fence (k x q z) : exec (.fence k x q z) s = execFence k x q z s := rfl
@[simp] theorem exec_crd (k x q z) : exec (.crd k x q z) s = execCrd k x q z s := rfl
@[simp] theorem exec_cwr (k x q z) : exec (.cwr k x q z) s = execCwr k x q z s := rfl
@[simp] theorem exec_taskStart (q bad) : exec (.taskStart q bad) s = execTaskStart q bad s := rfl
@[simp] theorem exec_depMark (x) : exec (.depMark x) s = execDepMark x s := rfl
@[simp] theorem exec_taskComplete (x) : exec (.taskComplete x) s = execTaskComplete x s := rfl
@[simp] theorem exec_lightComplete (h) : exec (.lightComplete h) s = execLightComplete h s := rfl
@[simp] theorem exec_flush (f) : exec (.flush f) s = execFlush f s := rfl
@[simp] theorem exec_queClr (f) : exec (.queClr f) s = execQueClr f s := rfl
@[simp] theorem exec_doorbell (f l v host) : exec (.doorbell f l v host) s = execDoorbell f l v host s := rfl
@[simp] theorem exec_xfrClrMax (f) : exec (.xfrClrMax f) s = execXfrClrMax f s := rfl
@[simp] theorem exec_promote (f n) : exec (.promote f n) s = execPromote f n s := rfl
@[simp] theorem exec_rollback (f n) : exec (.rollback f n) s = execRollback f n s := rfl
@[simp] theorem exec_discard (f n) : exec (.discard f n) s = execDiscard f n s := rfl
@[simp] theorem exec_checkpoint (f n) : exec (.checkpoint f n) s = execCheckpoint f n s := rfl
@[simp] theorem exec_restore (f n) : exec (.restore f n) s = execRestore f n s := rfl
@[simp] theorem exec_marginWrite (f n be v) : exec (.marginWrite f n be v) s = execMarginWrite f n be v s := rfl
@[simp] theorem exec_checkpointCommit (n ok) : exec (.checkpointCommit n ok) s = execCheckpointCommit n ok s := rfl
@[simp] theorem exec_resultCommit (n t) : exec (.resultCommit n t) s = execResultCommit n t s := rfl
@[simp] theorem exec_gpioPulseEnd (k t) : exec (.gpioPulseEnd k t) s = execGpioPulseEnd k t s := rfl
@[simp] theorem exec_actRequest (n) : exec (.actRequest n) s = execActRequest n s := rfl
@[simp] theorem exec_actionTableWrite (f k r be v) : exec (.actionTableWrite f k r be v) s = execActionTableWrite f k r be v s := rfl
@[simp] theorem exec_sealToken (n) : exec (.sealToken n) s = execSealToken n s := rfl
@[simp] theorem exec_publicationDeadline (n) : exec (.publicationDeadline n) s = execPublicationDeadline n s := rfl
@[simp] theorem exec_editionPublish (n) : exec (.editionPublish n) s = execEditionPublish n s := rfl
@[simp] theorem exec_remirror (f n) : exec (.remirror f n) s = execRemirror f n s := rfl
@[simp] theorem exec_outClr (f n) : exec (.outClr f n) s = execOutClr f n s := rfl
@[simp] theorem exec_recordIn (h) : exec (.recordIn h) s = execRecordIn h s := rfl
@[simp] theorem exec_assignmentWrite (f off be v) : exec (.assignmentWrite f off be v) s = execAssignmentWrite f off be v s := rfl
@[simp] theorem exec_loadSrcWrite (f n be v) : exec (.loadSrcWrite f n be v) s = execLoadSrcWrite f n be v s := rfl
@[simp] theorem exec_insLoad (f n host) : exec (.insLoad f n host) s = execInsLoad f n host s := rfl
@[simp] theorem exec_loadComplete (n) : exec (.loadComplete n) s = execLoadComplete n s := rfl
@[simp] theorem exec_insRelease (f n) : exec (.insRelease f n) s = execInsRelease f n s := rfl
@[simp] theorem exec_releaseStep (n t) : exec (.releaseStep n t) s = execReleaseStep n t s := rfl
@[simp] theorem exec_insReset (f n) : exec (.insReset f n) s = execInsReset f n s := rfl
@[simp] theorem exec_functionLevelReset (v) : exec (.functionLevelReset v) s = execFunctionLevelReset v s := rfl
@[simp] theorem exec_vfDisable (v) : exec (.vfDisable v) s = execVfDisable v s := rfl
@[simp] theorem exec_resetDone (n) : exec (.resetDone n) s = execResetDone n s := rfl
@[simp] theorem exec_insReload (f n host) : exec (.insReload f n host) s = execInsReload f n host s := rfl
@[simp] theorem exec_patchCheck (n) : exec (.patchCheck n) s = execPatchCheck n s := rfl
@[simp] theorem exec_reloadDone (n sid) : exec (.reloadDone n sid) s = execReloadDone n sid s := rfl
@[simp] theorem exec_engineRepair (f e) : exec (.engineRepair f e) s = execEngineRepair f e s := rfl
@[simp] theorem exec_engineCopyStart (e) : exec (.engineCopyStart e) s = execEngineCopyStart e s := rfl
@[simp] theorem exec_engineSwapDone (e) : exec (.engineSwapDone e) s = execEngineSwapDone e s := rfl
@[simp] theorem exec_columnRepair (f c) : exec (.columnRepair f c) s = execColumnRepair f c s := rfl
@[simp] theorem exec_targetTimeout (ch ce) : exec (.targetTimeout ch ce) s = execTargetTimeout ch ce s := rfl
@[simp] theorem exec_stoMount (f) : exec (.stoMount f) s = execStoMount f s := rfl
@[simp] theorem exec_mountDone : exec .mountDone s = execMountDone s := rfl
@[simp] theorem exec_stoClose (f) : exec (.stoClose f) s = execStoClose f s := rfl
@[simp] theorem exec_pageProgramDone (p e) : exec (.pageProgramDone p e) s = execPageProgramDone p e s := rfl
@[simp] theorem exec_blockEraseDone (p ok) : exec (.blockEraseDone p ok) s = execBlockEraseDone p ok s := rfl
@[simp] theorem exec_backgroundScan (p) : exec (.backgroundScan p) s = execBackgroundScan p s := rfl
@[simp] theorem exec_stoList (f) : exec (.stoList f) s = execStoList f s := rfl
@[simp] theorem exec_stoRead (f) : exec (.stoRead f) s = execStoRead f s := rfl
@[simp] theorem exec_stoTrim (f) : exec (.stoTrim f) s = execStoTrim f s := rfl
@[simp] theorem exec_stoSync (f) : exec (.stoSync f) s = execStoSync f s := rfl
@[simp] theorem exec_stoWriteBoot (f) : exec (.stoWriteBoot f) s = execStoWriteBoot f s := rfl
@[simp] theorem exec_stoFormat (f) : exec (.stoFormat f) s = execStoFormat f s := rfl
@[simp] theorem exec_mainOkFall (t) : exec (.mainOkFall t) s = execMainOkFall t s := rfl
@[simp] theorem exec_mainOkRise (t) : exec (.mainOkRise t) s = execMainOkRise t s := rfl
@[simp] theorem exec_mainStableExpiry (t) : exec (.mainStableExpiry t) s = execMainStableExpiry t s := rfl
@[simp] theorem exec_holdOkFall (t) : exec (.holdOkFall t) s = execHoldOkFall t s := rfl
@[simp] theorem exec_holdOkRise (t) : exec (.holdOkRise t) s = execHoldOkRise t s := rfl
@[simp] theorem exec_repairFetchDone (n ok) : exec (.repairFetchDone n ok) s = execRepairFetchDone n ok s := rfl
@[simp] theorem exec_repairEntry (n host) : exec (.repairEntry n host) s = execRepairEntry n host s := rfl
@[simp] theorem exec_repairWaitExpiry (n) : exec (.repairWaitExpiry n) s = execRepairWaitExpiry n s := rfl
@[simp] theorem exec_fltTest (f) : exec (.fltTest f) s = execFltTest f s := rfl
@[simp] theorem exec_fltRetest (f) : exec (.fltRetest f) s = execFltRetest f s := rfl
@[simp] theorem exec_testStart (t) : exec (.testStart t) s = execTestStart t s := rfl
@[simp] theorem exec_testComplete (kind unit pass t) : exec (.testComplete kind unit pass t) s = execTestComplete kind unit pass t s := rfl
@[simp] theorem exec_clrLog (f) : exec (.clrLog f) s = execClrLog f s := rfl
@[simp] theorem exec_instanceClrLog (f n) : exec (.instanceClrLog f n) s = execInstanceClrLog f n s := rfl
@[simp] theorem exec_logTailWrite (f ring be v) : exec (.logTailWrite f ring be v) s = execLogTailWrite f ring be v s := rfl
@[simp] theorem exec_pair (f t) : exec (.pair f t) s = execPair f t s := rfl
@[simp] theorem exec_leaveCmd (f t) : exec (.leaveCmd f t) s = execLeaveCmd f t s := rfl
@[simp] theorem exec_pairTimeout (t) : exec (.pairTimeout t) s = execPairTimeout t s := rfl
@[simp] theorem exec_helloSend (t) : exec (.helloSend t) s = execHelloSend t s := rfl
@[simp] theorem exec_tandemFrame (fr t) : exec (.tandemFrame fr t) s = execTandemFrame fr t s := rfl
@[simp] theorem exec_replayTimeout (t) : exec (.replayTimeout t) s = execReplayTimeout t s := rfl
@[simp] theorem exec_helloMsg (t) : exec (.helloMsg t) s = execHelloMsg t s := rfl
@[simp] theorem exec_tdmTick (t) : exec (.tdmTick t) s = execTdmTick t s := rfl
@[simp] theorem exec_sigMsg (t) : exec (.sigMsg t) s = execSigMsg t s := rfl
@[simp] theorem exec_cmpWaitExpiry (n t) : exec (.cmpWaitExpiry n t) s = execCmpWaitExpiry n t s := rfl
@[simp] theorem exec_writeMsg (t) : exec (.writeMsg t) s = execWriteMsg t s := rfl
@[simp] theorem exec_dataMsg (t) : exec (.dataMsg t) s = execDataMsg t s := rfl
@[simp] theorem exec_tdmTest (t) : exec (.tdmTest t) s = execTdmTest t s := rfl
@[simp] theorem exec_verdictMsg (t) : exec (.verdictMsg t) s = execVerdictMsg t s := rfl
@[simp] theorem exec_markMsg (t) : exec (.markMsg t) s = execMarkMsg t s := rfl
@[simp] theorem exec_leaveMsg (t) : exec (.leaveMsg t) s = execLeaveMsg t s := rfl
@[simp] theorem exec_faultMsg (t) : exec (.faultMsg t) s = execFaultMsg t s := rfl
@[simp] theorem exec_faultWaitExpiry (n t) : exec (.faultWaitExpiry n t) s = execFaultWaitExpiry n t s := rfl
@[simp] theorem exec_tdmRepair (t) : exec (.tdmRepair t) s = execTdmRepair t s := rfl
@[simp] theorem exec_partnerLoss (t) : exec (.partnerLoss t) s = execPartnerLoss t s := rfl
@[simp] theorem exec_gate (dom t) : exec (.gate dom t) s = execGate dom t s := rfl
@[simp] theorem exec_wake (dom t) : exec (.wake dom t) s = execWake dom t s := rfl
@[simp] theorem exec_rampStep (dom t) : exec (.rampStep dom t) s = execRampStep dom t s := rfl
@[simp] theorem exec_dividerWrite (f dom be v t) : exec (.dividerWrite f dom be v t) s = execDividerWrite f dom be v t s := rfl
@[simp] theorem exec_monitorWindow (n t) : exec (.monitorWindow n t) s = execMonitorWindow n t s := rfl
@[simp] theorem exec_pllUnlock (p t) : exec (.pllUnlock p t) s = execPllUnlock p t s := rfl
@[simp] theorem exec_brakeEngage (sen mv t) : exec (.brakeEngage sen mv t) s = execBrakeEngage sen mv t s := rfl
@[simp] theorem exec_brakeRelease (sen mv t) : exec (.brakeRelease sen mv t) s = execBrakeRelease sen mv t s := rfl
@[simp] theorem exec_thermalSample (temps t) : exec (.thermalSample temps t) s = execThermalSample temps t s := rfl
@[simp] theorem exec_pwrClrMax (f) : exec (.pwrClrMax f) s = execPwrClrMax f s := rfl
@[simp] theorem exec_droopWrite (f be v) : exec (.droopWrite f be v) s = execDroopWrite f be v s := rfl
@[simp] theorem exec_thermWrite (f be v) : exec (.thermWrite f be v) s = execThermWrite f be v s := rfl
@[simp] theorem exec_registerWrite (f off be v) : exec (.registerWrite f off be v) s = execRegisterWrite f off be v s := rfl
@[simp] theorem exec_unsupportedRequest (f) : exec (.unsupportedRequest f) s = execUnsupportedRequest f s := rfl
@[simp] theorem exec_readShadowLatch (f off) : exec (.readShadowLatch f off) s = execReadShadowLatch f off s := rfl
@[simp] theorem exec_counterHighWrite (f off be v) : exec (.counterHighWrite f off be v) s = execCounterHighWrite f off be v s := rfl
@[simp] theorem exec_counterLowWrite (f off be v) : exec (.counterLowWrite f off be v) s = execCounterLowWrite f off be v s := rfl
@[simp] theorem exec_setAlias (f off be v) : exec (.setAlias f off be v) s = execSetAlias f off be v s := rfl
@[simp] theorem exec_clearAlias (f off be v) : exec (.clearAlias f off be v) s = execClearAlias f off be v s := rfl
@[simp] theorem exec_toggleAlias (f off be v) : exec (.toggleAlias f off be v) s = execToggleAlias f off be v s := rfl
@[simp] theorem exec_parityFault (off) : exec (.parityFault off) s = execParityFault off s := rfl
@[simp] theorem exec_parityInject (f v) : exec (.parityInject f v) s = execParityInject f v s := rfl
@[simp] theorem exec_strapSample (straps t) : exec (.strapSample straps t) s = execStrapSample straps t s := rfl
@[simp] theorem exec_perstRise (t) : exec (.perstRise t) s = execPerstRise t s := rfl
@[simp] theorem exec_perstFall (t) : exec (.perstFall t) s = execPerstFall t s := rfl
@[simp] theorem exec_flashBoot : exec .flashBoot s = execFlashBoot s := rfl
@[simp] theorem exec_smbSetPointer (v) : exec (.smbSetPointer v) s = execSmbSetPointer v s := rfl
@[simp] theorem exec_smbBlockRead : exec .smbBlockRead s = execSmbBlockRead s := rfl
@[simp] theorem exec_smbEventWrite (v) : exec (.smbEventWrite v) s = execSmbEventWrite v s := rfl
@[simp] theorem exec_alertResponse : exec .alertResponse s = execAlertResponse s := rfl
@[simp] theorem exec_dbgaccRead (off) : exec (.dbgaccRead off) s = execDbgaccRead off s := rfl
@[simp] theorem exec_dbgaccWrite (off v) : exec (.dbgaccWrite off v) s = execDbgaccWrite off v s := rfl
@[simp] theorem exec_extest : exec .extest s = execExtest s := rfl
@[simp] theorem exec_samplePreload : exec .samplePreload s = execSamplePreload s := rfl
@[simp] theorem exec_highz : exec .highz s = execHighz s := rfl
@[simp] theorem exec_clamp : exec .clamp s = execClamp s := rfl
@[simp] theorem exec_idcode : exec .idcode s = execIdcode s := rfl
@[simp] theorem exec_bypass : exec .bypass s = execBypass s := rfl
@[simp] theorem exec_dbgMemRead (f) : exec (.dbgMemRead f) s = execDbgMemRead f s := rfl
@[simp] theorem exec_dbgMemWrite (f) : exec (.dbgMemWrite f) s = execDbgMemWrite f s := rfl
@[simp] theorem exec_memAccessDone : exec .memAccessDone s = execMemAccessDone s := rfl
@[simp] theorem exec_probeArm (f k be v) : exec (.probeArm f k be v) s = execProbeArm f k be v s := rfl
@[simp] theorem exec_managerFunctionLevelReset (t) : exec (.managerFunctionLevelReset t) s = execManagerFunctionLevelReset t s := rfl
@[simp] theorem exec_vfEnable (n) : exec (.vfEnable n) s = execVfEnable n s := rfl
@[simp] theorem exec_pllLock (locks t) : exec (.pllLock locks t) s = execPllLock locks t s := rfl
@[simp] theorem exec_internalResetRelease (t) : exec (.internalResetRelease t) s = execInternalResetRelease t s := rfl
@[simp] theorem exec_bankRemapCopyDone (die bank) : exec (.bankRemapCopyDone die bank) s = execBankRemapCopyDone die bank s := rfl
@[simp] theorem exec_outletSegmentSent (j) : exec (.outletSegmentSent j) s = execOutletSegmentSent j s := rfl
@[simp] theorem exec_prbsBitError (j) : exec (.prbsBitError j) s = execPrbsBitError j s := rfl
@[simp] theorem exec_cadenceOutPulse (t) : exec (.cadenceOutPulse t) s = execCadenceOutPulse t s := rfl
@[simp] theorem exec_probeWindowEdge (k t) : exec (.probeWindowEdge k t) s = execProbeWindowEdge k t s := rfl
@[simp] theorem exec_testLogicReset : exec .testLogicReset s = execTestLogicReset s := rfl
@[simp] theorem exec_msiXUnmask (f vec) : exec (.msiXUnmask f vec) s = execMsiXUnmask f vec s := rfl
@[simp] theorem exec_pageReadDone (p raw) : exec (.pageReadDone p raw) s = execPageReadDone p raw s := rfl

end Sys2Proof.Machine
end

