-- ==== Sys2Proof/Laws/SMap.lean ====
section
/-! SUPPORT. The laws of sparse maps: a read after a write gives the value written, a write leaves every other key
alone, and every operation keeps the canonical form. -/

namespace Sys2Proof.Machine.SMap

variable {α : Type}

@[simp] theorem get_nil (d : α) (k : Nat) : get d [] k = d := rfl

@[simp] theorem get_put_self (d : α) (k : Nat) (v : α) (m : SMap α) : get d (put k v m) k = v := by
  induction m with
  | nil => simp [put, get]
  | cons e m ih =>
    obtain ⟨j, w⟩ := e
    by_cases h : k = j
    · simp [put, get, h]
    · by_cases h' : k < j <;> simp [put, get, h, h', ih]

theorem get_put_ne (d : α) {k j : Nat} (h : j ≠ k) (v : α) (m : SMap α) : get d (put k v m) j = get d m j := by
  induction m with
  | nil => simp [put, get, h]
  | cons e m ih =>
    obtain ⟨i, w⟩ := e
    by_cases hk : k = i
    · subst hk; simp [put, get, h]
    · by_cases hl : k < i
      · simp [put, get, hk, hl, h]
      · simp [put, get, hk, hl, ih]

theorem get_filter_of_not (d : α) (p : Nat × α → Bool) (m : SMap α) (k : Nat) (h : ∀ v, p (k, v) = false) :
    get d (m.filter p) k = d := by
  induction m with
  | nil => rfl
  | cons e m ih =>
    obtain ⟨i, w⟩ := e
    by_cases hp : p (i, w) = true
    · have hi : k ≠ i := by rintro rfl; simp [h w] at hp
      simp [hp, get, hi, ih]
    · simp [hp, ih]

theorem get_filter_of_all (d : α) (p : Nat × α → Bool) (m : SMap α) (k : Nat) (h : ∀ v, p (k, v) = true) :
    get d (m.filter p) k = get d m k := by
  induction m with
  | nil => rfl
  | cons e m ih =>
    obtain ⟨i, w⟩ := e
    by_cases hk : k = i
    · subst hk; simp [h w, get]
    · by_cases hp : p (i, w) = true <;> simp [hp, get, hk, ih]

@[simp] theorem get_del_self (d : α) (k : Nat) (m : SMap α) : get d (del k m) k = d :=
  get_filter_of_not d _ m k (by simp)

theorem get_del_ne (d : α) {k j : Nat} (h : j ≠ k) (m : SMap α) : get d (del k m) j = get d m j :=
  get_filter_of_all d _ m j (by simp [h])

section
variable [DecidableEq α]

@[simp] theorem get_set_self (d : α) (k : Nat) (v : α) (m : SMap α) : get d (set d k v m) k = v := by
  unfold set; split <;> simp_all

theorem get_set_ne (d : α) {k j : Nat} (d' : α) (h : j ≠ k) (v : α) (m : SMap α) :
    get d (set d' k v m) j = get d m j := by
  unfold set; split
  · exact get_del_ne d h m
  · exact get_put_ne d h v m

end

theorem get_dropRange_out (d : α) {lo hi k : Nat} (h : ¬(lo ≤ k ∧ k < hi)) (m : SMap α) :
    get d (dropRange lo hi m) k = get d m k := by
  apply get_filter_of_all; intro v; by_cases h1 : lo ≤ k <;> by_cases h2 : k < hi <;> simp_all

theorem get_dropRange_in (d : α) {lo hi k : Nat} (h1 : lo ≤ k) (h2 : k < hi) (m : SMap α) :
    get d (dropRange lo hi m) k = d := by
  apply get_filter_of_not; intro v; simp [h1, h2]

/-! ### The canonical form -/

variable [DecidableEq α]

/-- Every listed key lies above `b`, for the bound of `wfFrom`. -/
def above : Option Nat → Nat → Prop
  | none, _ => True
  | some j, k => j < k

theorem wfFrom_cons (d : Nat → α) (b : Option Nat) (k : Nat) (v : α) (m : SMap α) :
    wfFrom d b ((k, v) :: m) = true ↔ above b k ∧ v ≠ d k ∧ wfFrom d (some k) m = true := by
  cases b <;> simp [wfFrom, above, and_assoc]

theorem wfFrom_put (d : Nat → α) (b : Option Nat) (k : Nat) (v : α) (hv : v ≠ d k) (m : SMap α) (hb : above b k)
    (h : wfFrom d b m = true) : wfFrom d b (put k v m) = true := by
  induction m generalizing b with
  | nil => rw [put, wfFrom_cons]; exact ⟨hb, hv, rfl⟩
  | cons e m ih =>
    obtain ⟨i, w⟩ := e
    rw [wfFrom_cons] at h
    rw [put]
    split
    · rename_i hki; subst hki; rw [wfFrom_cons]; exact ⟨hb, hv, h.2.2⟩
    · split
      · rename_i hlt
        rw [wfFrom_cons, wfFrom_cons]; exact ⟨hb, hv, hlt, h.2⟩
      · rw [wfFrom_cons]
        exact ⟨h.1, h.2.1, ih (some i) (by simp only [above]; omega) h.2.2⟩

theorem wfFrom_filter (d : Nat → α) (b : Option Nat) (p : Nat × α → Bool) (m : SMap α) (h : wfFrom d b m = true) :
    wfFrom d b (m.filter p) = true := by
  induction m generalizing b with
  | nil => rfl
  | cons e m ih =>
    obtain ⟨i, w⟩ := e
    rw [wfFrom_cons] at h
    by_cases hp : p (i, w) = true
    · rw [List.filter_cons_of_pos hp, wfFrom_cons]; exact ⟨h.1, h.2.1, ih _ h.2.2⟩
    · rw [List.filter_cons_of_neg hp]
      apply ih
      cases m with
      | nil => rfl
      | cons e m =>
        obtain ⟨i', w'⟩ := e
        have h2 := h.2.2
        rw [wfFrom_cons] at h2 ⊢
        refine ⟨?_, h2.2⟩
        cases b with
        | none => trivial
        | some b => have := h.1; have := h2.1; simp only [above] at *; omega

/-- Writing keeps the canonical form. -/
theorem wfFrom_set (d : Nat → α) (k : Nat) (v : α) (m : SMap α) (h : wfFrom d none m = true) :
    wfFrom d none (set (d k) k v m) = true := by
  unfold set; split
  · exact wfFrom_filter d none _ m h
  · rename_i hv; exact wfFrom_put d none k v hv m trivial h

theorem wf_set (d : α) (k : Nat) (v : α) (m : SMap α) (h : wf d m = true) : wf d (set d k v m) = true :=
  wfFrom_set (fun _ => d) k v m h

theorem wf_filter (d : α) (p : Nat × α → Bool) (m : SMap α) (h : wf d m = true) : wf d (m.filter p) = true :=
  wfFrom_filter _ none p m h

end Sys2Proof.Machine.SMap
end

