-- ==== Sys2Proof/Laws/State.lean ====
section
/-! SUPPORT. One lemma for every field of the state and every plain update: what the update leaves alone, and what a read
after a write gives. -/

namespace Sys2Proof.Machine

variable (s : State)

/-! ### `wr` -/

@[simp] theorem State.wr_pending (a : Nat) (v : Word) : (s.wr a v).pending = s.pending := rfl
@[simp] theorem State.wr_now (a : Nat) (v : Word) : (s.wr a v).now = s.now := rfl
@[simp] theorem State.wr_free (a : Nat) (v : Word) : (s.wr a v).free = s.free := rfl
@[simp] theorem State.wr_mem (a : Nat) (v : Word) : (s.wr a v).mem = s.mem := rfl
@[simp] theorem State.wr_poison (a : Nat) (v : Word) : (s.wr a v).poison = s.poison := rfl
@[simp] theorem State.wr_upsets (a : Nat) (v : Word) : (s.wr a v).upsets = s.upsets := rfl
@[simp] theorem State.wr_hostMem (a : Nat) (v : Word) : (s.wr a v).hostMem = s.hostMem := rfl
@[simp] theorem State.wr_queues (a : Nat) (v : Word) : (s.wr a v).queues = s.queues := rfl
@[simp] theorem State.wr_tasks (a : Nat) (v : Word) : (s.wr a v).tasks = s.tasks := rfl
@[simp] theorem State.wr_nextTask (a : Nat) (v : Word) : (s.wr a v).nextTask = s.nextTask := rfl
@[simp] theorem State.wr_engines (a : Nat) (v : Word) : (s.wr a v).engines = s.engines := rfl
@[simp] theorem State.wr_tiles (a : Nat) (v : Word) : (s.wr a v).tiles = s.tiles := rfl
@[simp] theorem State.wr_cores (a : Nat) (v : Word) : (s.wr a v).cores = s.cores := rfl
@[simp] theorem State.wr_insts (a : Nat) (v : Word) : (s.wr a v).insts = s.insts := rfl
@[simp] theorem State.wr_cad (a : Nat) (v : Word) : (s.wr a v).cad = s.cad := rfl
@[simp] theorem State.wr_mapLive (a : Nat) (v : Word) : (s.wr a v).mapLive = s.mapLive := rfl
@[simp] theorem State.wr_inlEn (a : Nat) (v : Word) : (s.wr a v).inlEn = s.inlEn := rfl
@[simp] theorem State.wr_lockAt (a : Nat) (v : Word) : (s.wr a v).lockAt = s.lockAt := rfl
@[simp] theorem State.wr_actLive (a : Nat) (v : Word) : (s.wr a v).actLive = s.actLive := rfl
@[simp] theorem State.wr_store (a : Nat) (v : Word) : (s.wr a v).store = s.store := rfl
@[simp] theorem State.wr_flt (a : Nat) (v : Word) : (s.wr a v).flt = s.flt := rfl
@[simp] theorem State.wr_tdm (a : Nat) (v : Word) : (s.wr a v).tdm = s.tdm := rfl
@[simp] theorem State.wr_clk (a : Nat) (v : Word) : (s.wr a v).clk = s.clk := rfl
@[simp] theorem State.wr_hif (a : Nat) (v : Word) : (s.wr a v).hif = s.hif := rfl
@[simp] theorem State.wr_sig (a : Nat) (v : Word) : (s.wr a v).sig = s.sig := rfl
@[simp] theorem State.wr_outSegs (a : Nat) (v : Word) : (s.wr a v).outSegs = s.outSegs := rfl
@[simp] theorem State.wr_outTx (a : Nat) (v : Word) : (s.wr a v).outTx = s.outTx := rfl
@[simp] theorem State.wr_nextOrd (a : Nat) (v : Word) : (s.wr a v).nextOrd = s.nextOrd := rfl
@[simp] theorem State.wr_inst_other (a : Nat) (v : Word) (j : Nat) : (s.wr a v).inst j = s.inst j := rfl
@[simp] theorem State.wr_core_other (a : Nat) (v : Word) (j : Nat) : (s.wr a v).core j = s.core j := rfl
@[simp] theorem State.wr_engine_other (a : Nat) (v : Word) (j : Nat) : (s.wr a v).engine j = s.engine j := rfl
@[simp] theorem State.wr_queue_other (a : Nat) (v : Word) (j : Nat) : (s.wr a v).queue j = s.queue j := rfl
@[simp] theorem State.wr_tile_other (a : Nat) (v : Word) (m n : Nat) : (s.wr a v).tile m n = s.tile m n := rfl
@[simp] theorem State.wr_ring_other (a : Nat) (v : Word) (j : Nat) : (s.wr a v).ring j = s.ring j := rfl
@[simp] theorem State.wr_dom_other (a : Nat) (v : Word) (j : Nat) : (s.wr a v).dom j = s.dom j := rfl
@[simp] theorem State.wr_rdByte_other (a : Nat) (v : Word) (b : Nat) : (s.wr a v).rdByte b = s.rdByte b := rfl

/-! ### `setInst` -/

@[simp] theorem State.setInst_pending (i : Nat) (x : Inst) : (s.setInst i x).pending = s.pending := rfl
@[simp] theorem State.setInst_now (i : Nat) (x : Inst) : (s.setInst i x).now = s.now := rfl
@[simp] theorem State.setInst_free (i : Nat) (x : Inst) : (s.setInst i x).free = s.free := rfl
@[simp] theorem State.setInst_regs (i : Nat) (x : Inst) : (s.setInst i x).regs = s.regs := rfl
@[simp] theorem State.setInst_mem (i : Nat) (x : Inst) : (s.setInst i x).mem = s.mem := rfl
@[simp] theorem State.setInst_poison (i : Nat) (x : Inst) : (s.setInst i x).poison = s.poison := rfl
@[simp] theorem State.setInst_upsets (i : Nat) (x : Inst) : (s.setInst i x).upsets = s.upsets := rfl
@[simp] theorem State.setInst_hostMem (i : Nat) (x : Inst) : (s.setInst i x).hostMem = s.hostMem := rfl
@[simp] theorem State.setInst_queues (i : Nat) (x : Inst) : (s.setInst i x).queues = s.queues := rfl
@[simp] theorem State.setInst_tasks (i : Nat) (x : Inst) : (s.setInst i x).tasks = s.tasks := rfl
@[simp] theorem State.setInst_nextTask (i : Nat) (x : Inst) : (s.setInst i x).nextTask = s.nextTask := rfl
@[simp] theorem State.setInst_engines (i : Nat) (x : Inst) : (s.setInst i x).engines = s.engines := rfl
@[simp] theorem State.setInst_tiles (i : Nat) (x : Inst) : (s.setInst i x).tiles = s.tiles := rfl
@[simp] theorem State.setInst_cores (i : Nat) (x : Inst) : (s.setInst i x).cores = s.cores := rfl
@[simp] theorem State.setInst_cad (i : Nat) (x : Inst) : (s.setInst i x).cad = s.cad := rfl
@[simp] theorem State.setInst_mapLive (i : Nat) (x : Inst) : (s.setInst i x).mapLive = s.mapLive := rfl
@[simp] theorem State.setInst_inlEn (i : Nat) (x : Inst) : (s.setInst i x).inlEn = s.inlEn := rfl
@[simp] theorem State.setInst_lockAt (i : Nat) (x : Inst) : (s.setInst i x).lockAt = s.lockAt := rfl
@[simp] theorem State.setInst_actLive (i : Nat) (x : Inst) : (s.setInst i x).actLive = s.actLive := rfl
@[simp] theorem State.setInst_store (i : Nat) (x : Inst) : (s.setInst i x).store = s.store := rfl
@[simp] theorem State.setInst_flt (i : Nat) (x : Inst) : (s.setInst i x).flt = s.flt := rfl
@[simp] theorem State.setInst_tdm (i : Nat) (x : Inst) : (s.setInst i x).tdm = s.tdm := rfl
@[simp] theorem State.setInst_clk (i : Nat) (x : Inst) : (s.setInst i x).clk = s.clk := rfl
@[simp] theorem State.setInst_hif (i : Nat) (x : Inst) : (s.setInst i x).hif = s.hif := rfl
@[simp] theorem State.setInst_sig (i : Nat) (x : Inst) : (s.setInst i x).sig = s.sig := rfl
@[simp] theorem State.setInst_outSegs (i : Nat) (x : Inst) : (s.setInst i x).outSegs = s.outSegs := rfl
@[simp] theorem State.setInst_outTx (i : Nat) (x : Inst) : (s.setInst i x).outTx = s.outTx := rfl
@[simp] theorem State.setInst_nextOrd (i : Nat) (x : Inst) : (s.setInst i x).nextOrd = s.nextOrd := rfl
@[simp] theorem State.setInst_rd_other (i : Nat) (x : Inst) (b : Nat) : (s.setInst i x).rd b = s.rd b := rfl
@[simp] theorem State.setInst_core_other (i : Nat) (x : Inst) (j : Nat) : (s.setInst i x).core j = s.core j := rfl
@[simp] theorem State.setInst_engine_other (i : Nat) (x : Inst) (j : Nat) : (s.setInst i x).engine j = s.engine j := rfl
@[simp] theorem State.setInst_queue_other (i : Nat) (x : Inst) (j : Nat) : (s.setInst i x).queue j = s.queue j := rfl
@[simp] theorem State.setInst_tile_other (i : Nat) (x : Inst) (m n : Nat) : (s.setInst i x).tile m n = s.tile m n := rfl
@[simp] theorem State.setInst_ring_other (i : Nat) (x : Inst) (j : Nat) : (s.setInst i x).ring j = s.ring j := rfl
@[simp] theorem State.setInst_dom_other (i : Nat) (x : Inst) (j : Nat) : (s.setInst i x).dom j = s.dom j := rfl
@[simp] theorem State.setInst_rdByte_other (i : Nat) (x : Inst) (b : Nat) : (s.setInst i x).rdByte b = s.rdByte b := rfl

/-! ### `setCore` -/

@[simp] theorem State.setCore_pending (k : Nat) (x : Core) : (s.setCore k x).pending = s.pending := rfl
@[simp] theorem State.setCore_now (k : Nat) (x : Core) : (s.setCore k x).now = s.now := rfl
@[simp] theorem State.setCore_free (k : Nat) (x : Core) : (s.setCore k x).free = s.free := rfl
@[simp] theorem State.setCore_regs (k : Nat) (x : Core) : (s.setCore k x).regs = s.regs := rfl
@[simp] theorem State.setCore_mem (k : Nat) (x : Core) : (s.setCore k x).mem = s.mem := rfl
@[simp] theorem State.setCore_poison (k : Nat) (x : Core) : (s.setCore k x).poison = s.poison := rfl
@[simp] theorem State.setCore_upsets (k : Nat) (x : Core) : (s.setCore k x).upsets = s.upsets := rfl
@[simp] theorem State.setCore_hostMem (k : Nat) (x : Core) : (s.setCore k x).hostMem = s.hostMem := rfl
@[simp] theorem State.setCore_queues (k : Nat) (x : Core) : (s.setCore k x).queues = s.queues := rfl
@[simp] theorem State.setCore_tasks (k : Nat) (x : Core) : (s.setCore k x).tasks = s.tasks := rfl
@[simp] theorem State.setCore_nextTask (k : Nat) (x : Core) : (s.setCore k x).nextTask = s.nextTask := rfl
@[simp] theorem State.setCore_engines (k : Nat) (x : Core) : (s.setCore k x).engines = s.engines := rfl
@[simp] theorem State.setCore_tiles (k : Nat) (x : Core) : (s.setCore k x).tiles = s.tiles := rfl
@[simp] theorem State.setCore_insts (k : Nat) (x : Core) : (s.setCore k x).insts = s.insts := rfl
@[simp] theorem State.setCore_cad (k : Nat) (x : Core) : (s.setCore k x).cad = s.cad := rfl
@[simp] theorem State.setCore_mapLive (k : Nat) (x : Core) : (s.setCore k x).mapLive = s.mapLive := rfl
@[simp] theorem State.setCore_inlEn (k : Nat) (x : Core) : (s.setCore k x).inlEn = s.inlEn := rfl
@[simp] theorem State.setCore_lockAt (k : Nat) (x : Core) : (s.setCore k x).lockAt = s.lockAt := rfl
@[simp] theorem State.setCore_actLive (k : Nat) (x : Core) : (s.setCore k x).actLive = s.actLive := rfl
@[simp] theorem State.setCore_store (k : Nat) (x : Core) : (s.setCore k x).store = s.store := rfl
@[simp] theorem State.setCore_flt (k : Nat) (x : Core) : (s.setCore k x).flt = s.flt := rfl
@[simp] theorem State.setCore_tdm (k : Nat) (x : Core) : (s.setCore k x).tdm = s.tdm := rfl
@[simp] theorem State.setCore_clk (k : Nat) (x : Core) : (s.setCore k x).clk = s.clk := rfl
@[simp] theorem State.setCore_hif (k : Nat) (x : Core) : (s.setCore k x).hif = s.hif := rfl
@[simp] theorem State.setCore_sig (k : Nat) (x : Core) : (s.setCore k x).sig = s.sig := rfl
@[simp] theorem State.setCore_outSegs (k : Nat) (x : Core) : (s.setCore k x).outSegs = s.outSegs := rfl
@[simp] theorem State.setCore_outTx (k : Nat) (x : Core) : (s.setCore k x).outTx = s.outTx := rfl
@[simp] theorem State.setCore_nextOrd (k : Nat) (x : Core) : (s.setCore k x).nextOrd = s.nextOrd := rfl
@[simp] theorem State.setCore_rd_other (k : Nat) (x : Core) (b : Nat) : (s.setCore k x).rd b = s.rd b := rfl
@[simp] theorem State.setCore_inst_other (k : Nat) (x : Core) (j : Nat) : (s.setCore k x).inst j = s.inst j := rfl
@[simp] theorem State.setCore_engine_other (k : Nat) (x : Core) (j : Nat) : (s.setCore k x).engine j = s.engine j := rfl
@[simp] theorem State.setCore_queue_other (k : Nat) (x : Core) (j : Nat) : (s.setCore k x).queue j = s.queue j := rfl
@[simp] theorem State.setCore_tile_other (k : Nat) (x : Core) (m n : Nat) : (s.setCore k x).tile m n = s.tile m n := rfl
@[simp] theorem State.setCore_ring_other (k : Nat) (x : Core) (j : Nat) : (s.setCore k x).ring j = s.ring j := rfl
@[simp] theorem State.setCore_dom_other (k : Nat) (x : Core) (j : Nat) : (s.setCore k x).dom j = s.dom j := rfl
@[simp] theorem State.setCore_rdByte_other (k : Nat) (x : Core) (b : Nat) : (s.setCore k x).rdByte b = s.rdByte b := rfl

/-! ### `setEngine` -/

@[simp] theorem State.setEngine_pending (e : Nat) (x : Engine) : (s.setEngine e x).pending = s.pending := rfl
@[simp] theorem State.setEngine_now (e : Nat) (x : Engine) : (s.setEngine e x).now = s.now := rfl
@[simp] theorem State.setEngine_free (e : Nat) (x : Engine) : (s.setEngine e x).free = s.free := rfl
@[simp] theorem State.setEngine_regs (e : Nat) (x : Engine) : (s.setEngine e x).regs = s.regs := rfl
@[simp] theorem State.setEngine_mem (e : Nat) (x : Engine) : (s.setEngine e x).mem = s.mem := rfl
@[simp] theorem State.setEngine_poison (e : Nat) (x : Engine) : (s.setEngine e x).poison = s.poison := rfl
@[simp] theorem State.setEngine_upsets (e : Nat) (x : Engine) : (s.setEngine e x).upsets = s.upsets := rfl
@[simp] theorem State.setEngine_hostMem (e : Nat) (x : Engine) : (s.setEngine e x).hostMem = s.hostMem := rfl
@[simp] theorem State.setEngine_queues (e : Nat) (x : Engine) : (s.setEngine e x).queues = s.queues := rfl
@[simp] theorem State.setEngine_tasks (e : Nat) (x : Engine) : (s.setEngine e x).tasks = s.tasks := rfl
@[simp] theorem State.setEngine_nextTask (e : Nat) (x : Engine) : (s.setEngine e x).nextTask = s.nextTask := rfl
@[simp] theorem State.setEngine_tiles (e : Nat) (x : Engine) : (s.setEngine e x).tiles = s.tiles := rfl
@[simp] theorem State.setEngine_cores (e : Nat) (x : Engine) : (s.setEngine e x).cores = s.cores := rfl
@[simp] theorem State.setEngine_insts (e : Nat) (x : Engine) : (s.setEngine e x).insts = s.insts := rfl
@[simp] theorem State.setEngine_cad (e : Nat) (x : Engine) : (s.setEngine e x).cad = s.cad := rfl
@[simp] theorem State.setEngine_mapLive (e : Nat) (x : Engine) : (s.setEngine e x).mapLive = s.mapLive := rfl
@[simp] theorem State.setEngine_inlEn (e : Nat) (x : Engine) : (s.setEngine e x).inlEn = s.inlEn := rfl
@[simp] theorem State.setEngine_lockAt (e : Nat) (x : Engine) : (s.setEngine e x).lockAt = s.lockAt := rfl
@[simp] theorem State.setEngine_actLive (e : Nat) (x : Engine) : (s.setEngine e x).actLive = s.actLive := rfl
@[simp] theorem State.setEngine_store (e : Nat) (x : Engine) : (s.setEngine e x).store = s.store := rfl
@[simp] theorem State.setEngine_flt (e : Nat) (x : Engine) : (s.setEngine e x).flt = s.flt := rfl
@[simp] theorem State.setEngine_tdm (e : Nat) (x : Engine) : (s.setEngine e x).tdm = s.tdm := rfl
@[simp] theorem State.setEngine_clk (e : Nat) (x : Engine) : (s.setEngine e x).clk = s.clk := rfl
@[simp] theorem State.setEngine_hif (e : Nat) (x : Engine) : (s.setEngine e x).hif = s.hif := rfl
@[simp] theorem State.setEngine_sig (e : Nat) (x : Engine) : (s.setEngine e x).sig = s.sig := rfl
@[simp] theorem State.setEngine_outSegs (e : Nat) (x : Engine) : (s.setEngine e x).outSegs = s.outSegs := rfl
@[simp] theorem State.setEngine_outTx (e : Nat) (x : Engine) : (s.setEngine e x).outTx = s.outTx := rfl
@[simp] theorem State.setEngine_nextOrd (e : Nat) (x : Engine) : (s.setEngine e x).nextOrd = s.nextOrd := rfl
@[simp] theorem State.setEngine_rd_other (e : Nat) (x : Engine) (b : Nat) : (s.setEngine e x).rd b = s.rd b := rfl
@[simp] theorem State.setEngine_inst_other (e : Nat) (x : Engine) (j : Nat) : (s.setEngine e x).inst j = s.inst j := rfl
@[simp] theorem State.setEngine_core_other (e : Nat) (x : Engine) (j : Nat) : (s.setEngine e x).core j = s.core j := rfl
@[simp] theorem State.setEngine_queue_other (e : Nat) (x : Engine) (j : Nat) : (s.setEngine e x).queue j = s.queue j := rfl
@[simp] theorem State.setEngine_tile_other (e : Nat) (x : Engine) (m n : Nat) : (s.setEngine e x).tile m n = s.tile m n := rfl
@[simp] theorem State.setEngine_ring_other (e : Nat) (x : Engine) (j : Nat) : (s.setEngine e x).ring j = s.ring j := rfl
@[simp] theorem State.setEngine_dom_other (e : Nat) (x : Engine) (j : Nat) : (s.setEngine e x).dom j = s.dom j := rfl
@[simp] theorem State.setEngine_rdByte_other (e : Nat) (x : Engine) (b : Nat) : (s.setEngine e x).rdByte b = s.rdByte b := rfl

/-! ### `setQueue` -/

@[simp] theorem State.setQueue_pending (q : Nat) (x : Queue) : (s.setQueue q x).pending = s.pending := rfl
@[simp] theorem State.setQueue_now (q : Nat) (x : Queue) : (s.setQueue q x).now = s.now := rfl
@[simp] theorem State.setQueue_free (q : Nat) (x : Queue) : (s.setQueue q x).free = s.free := rfl
@[simp] theorem State.setQueue_regs (q : Nat) (x : Queue) : (s.setQueue q x).regs = s.regs := rfl
@[simp] theorem State.setQueue_mem (q : Nat) (x : Queue) : (s.setQueue q x).mem = s.mem := rfl
@[simp] theorem State.setQueue_poison (q : Nat) (x : Queue) : (s.setQueue q x).poison = s.poison := rfl
@[simp] theorem State.setQueue_upsets (q : Nat) (x : Queue) : (s.setQueue q x).upsets = s.upsets := rfl
@[simp] theorem State.setQueue_hostMem (q : Nat) (x : Queue) : (s.setQueue q x).hostMem = s.hostMem := rfl
@[simp] theorem State.setQueue_tasks (q : Nat) (x : Queue) : (s.setQueue q x).tasks = s.tasks := rfl
@[simp] theorem State.setQueue_nextTask (q : Nat) (x : Queue) : (s.setQueue q x).nextTask = s.nextTask := rfl
@[simp] theorem State.setQueue_engines (q : Nat) (x : Queue) : (s.setQueue q x).engines = s.engines := rfl
@[simp] theorem State.setQueue_tiles (q : Nat) (x : Queue) : (s.setQueue q x).tiles = s.tiles := rfl
@[simp] theorem State.setQueue_cores (q : Nat) (x : Queue) : (s.setQueue q x).cores = s.cores := rfl
@[simp] theorem State.setQueue_insts (q : Nat) (x : Queue) : (s.setQueue q x).insts = s.insts := rfl
@[simp] theorem State.setQueue_cad (q : Nat) (x : Queue) : (s.setQueue q x).cad = s.cad := rfl
@[simp] theorem State.setQueue_mapLive (q : Nat) (x : Queue) : (s.setQueue q x).mapLive = s.mapLive := rfl
@[simp] theorem State.setQueue_inlEn (q : Nat) (x : Queue) : (s.setQueue q x).inlEn = s.inlEn := rfl
@[simp] theorem State.setQueue_lockAt (q : Nat) (x : Queue) : (s.setQueue q x).lockAt = s.lockAt := rfl
@[simp] theorem State.setQueue_actLive (q : Nat) (x : Queue) : (s.setQueue q x).actLive = s.actLive := rfl
@[simp] theorem State.setQueue_store (q : Nat) (x : Queue) : (s.setQueue q x).store = s.store := rfl
@[simp] theorem State.setQueue_flt (q : Nat) (x : Queue) : (s.setQueue q x).flt = s.flt := rfl
@[simp] theorem State.setQueue_tdm (q : Nat) (x : Queue) : (s.setQueue q x).tdm = s.tdm := rfl
@[simp] theorem State.setQueue_clk (q : Nat) (x : Queue) : (s.setQueue q x).clk = s.clk := rfl
@[simp] theorem State.setQueue_hif (q : Nat) (x : Queue) : (s.setQueue q x).hif = s.hif := rfl
@[simp] theorem State.setQueue_sig (q : Nat) (x : Queue) : (s.setQueue q x).sig = s.sig := rfl
@[simp] theorem State.setQueue_outSegs (q : Nat) (x : Queue) : (s.setQueue q x).outSegs = s.outSegs := rfl
@[simp] theorem State.setQueue_outTx (q : Nat) (x : Queue) : (s.setQueue q x).outTx = s.outTx := rfl
@[simp] theorem State.setQueue_nextOrd (q : Nat) (x : Queue) : (s.setQueue q x).nextOrd = s.nextOrd := rfl
@[simp] theorem State.setQueue_rd_other (q : Nat) (x : Queue) (b : Nat) : (s.setQueue q x).rd b = s.rd b := rfl
@[simp] theorem State.setQueue_inst_other (q : Nat) (x : Queue) (j : Nat) : (s.setQueue q x).inst j = s.inst j := rfl
@[simp] theorem State.setQueue_core_other (q : Nat) (x : Queue) (j : Nat) : (s.setQueue q x).core j = s.core j := rfl
@[simp] theorem State.setQueue_engine_other (q : Nat) (x : Queue) (j : Nat) : (s.setQueue q x).engine j = s.engine j := rfl
@[simp] theorem State.setQueue_tile_other (q : Nat) (x : Queue) (m n : Nat) : (s.setQueue q x).tile m n = s.tile m n := rfl
@[simp] theorem State.setQueue_ring_other (q : Nat) (x : Queue) (j : Nat) : (s.setQueue q x).ring j = s.ring j := rfl
@[simp] theorem State.setQueue_dom_other (q : Nat) (x : Queue) (j : Nat) : (s.setQueue q x).dom j = s.dom j := rfl
@[simp] theorem State.setQueue_rdByte_other (q : Nat) (x : Queue) (b : Nat) : (s.setQueue q x).rdByte b = s.rdByte b := rfl

/-! ### `setTile` -/

@[simp] theorem State.setTile_pending (c r : Nat) (x : Tile) : (s.setTile c r x).pending = s.pending := rfl
@[simp] theorem State.setTile_now (c r : Nat) (x : Tile) : (s.setTile c r x).now = s.now := rfl
@[simp] theorem State.setTile_free (c r : Nat) (x : Tile) : (s.setTile c r x).free = s.free := rfl
@[simp] theorem State.setTile_regs (c r : Nat) (x : Tile) : (s.setTile c r x).regs = s.regs := rfl
@[simp] theorem State.setTile_mem (c r : Nat) (x : Tile) : (s.setTile c r x).mem = s.mem := rfl
@[simp] theorem State.setTile_poison (c r : Nat) (x : Tile) : (s.setTile c r x).poison = s.poison := rfl
@[simp] theorem State.setTile_upsets (c r : Nat) (x : Tile) : (s.setTile c r x).upsets = s.upsets := rfl
@[simp] theorem State.setTile_hostMem (c r : Nat) (x : Tile) : (s.setTile c r x).hostMem = s.hostMem := rfl
@[simp] theorem State.setTile_queues (c r : Nat) (x : Tile) : (s.setTile c r x).queues = s.queues := rfl
@[simp] theorem State.setTile_tasks (c r : Nat) (x : Tile) : (s.setTile c r x).tasks = s.tasks := rfl
@[simp] theorem State.setTile_nextTask (c r : Nat) (x : Tile) : (s.setTile c r x).nextTask = s.nextTask := rfl
@[simp] theorem State.setTile_engines (c r : Nat) (x : Tile) : (s.setTile c r x).engines = s.engines := rfl
@[simp] theorem State.setTile_cores (c r : Nat) (x : Tile) : (s.setTile c r x).cores = s.cores := rfl
@[simp] theorem State.setTile_insts (c r : Nat) (x : Tile) : (s.setTile c r x).insts = s.insts := rfl
@[simp] theorem State.setTile_cad (c r : Nat) (x : Tile) : (s.setTile c r x).cad = s.cad := rfl
@[simp] theorem State.setTile_mapLive (c r : Nat) (x : Tile) : (s.setTile c r x).mapLive = s.mapLive := rfl
@[simp] theorem State.setTile_inlEn (c r : Nat) (x : Tile) : (s.setTile c r x).inlEn = s.inlEn := rfl
@[simp] theorem State.setTile_lockAt (c r : Nat) (x : Tile) : (s.setTile c r x).lockAt = s.lockAt := rfl
@[simp] theorem State.setTile_actLive (c r : Nat) (x : Tile) : (s.setTile c r x).actLive = s.actLive := rfl
@[simp] theorem State.setTile_store (c r : Nat) (x : Tile) : (s.setTile c r x).store = s.store := rfl
@[simp] theorem State.setTile_flt (c r : Nat) (x : Tile) : (s.setTile c r x).flt = s.flt := rfl
@[simp] theorem State.setTile_tdm (c r : Nat) (x : Tile) : (s.setTile c r x).tdm = s.tdm := rfl
@[simp] theorem State.setTile_clk (c r : Nat) (x : Tile) : (s.setTile c r x).clk = s.clk := rfl
@[simp] theorem State.setTile_hif (c r : Nat) (x : Tile) : (s.setTile c r x).hif = s.hif := rfl
@[simp] theorem State.setTile_sig (c r : Nat) (x : Tile) : (s.setTile c r x).sig = s.sig := rfl
@[simp] theorem State.setTile_outSegs (c r : Nat) (x : Tile) : (s.setTile c r x).outSegs = s.outSegs := rfl
@[simp] theorem State.setTile_outTx (c r : Nat) (x : Tile) : (s.setTile c r x).outTx = s.outTx := rfl
@[simp] theorem State.setTile_nextOrd (c r : Nat) (x : Tile) : (s.setTile c r x).nextOrd = s.nextOrd := rfl
@[simp] theorem State.setTile_rd_other (c r : Nat) (x : Tile) (b : Nat) : (s.setTile c r x).rd b = s.rd b := rfl
@[simp] theorem State.setTile_inst_other (c r : Nat) (x : Tile) (j : Nat) : (s.setTile c r x).inst j = s.inst j := rfl
@[simp] theorem State.setTile_core_other (c r : Nat) (x : Tile) (j : Nat) : (s.setTile c r x).core j = s.core j := rfl
@[simp] theorem State.setTile_engine_other (c r : Nat) (x : Tile) (j : Nat) : (s.setTile c r x).engine j = s.engine j := rfl
@[simp] theorem State.setTile_queue_other (c r : Nat) (x : Tile) (j : Nat) : (s.setTile c r x).queue j = s.queue j := rfl
@[simp] theorem State.setTile_ring_other (c r : Nat) (x : Tile) (j : Nat) : (s.setTile c r x).ring j = s.ring j := rfl
@[simp] theorem State.setTile_dom_other (c r : Nat) (x : Tile) (j : Nat) : (s.setTile c r x).dom j = s.dom j := rfl
@[simp] theorem State.setTile_rdByte_other (c r : Nat) (x : Tile) (b : Nat) : (s.setTile c r x).rdByte b = s.rdByte b := rfl

/-! ### `setRing` -/

@[simp] theorem State.setRing_pending (n : Nat) (x : Ring) : (s.setRing n x).pending = s.pending := rfl
@[simp] theorem State.setRing_now (n : Nat) (x : Ring) : (s.setRing n x).now = s.now := rfl
@[simp] theorem State.setRing_free (n : Nat) (x : Ring) : (s.setRing n x).free = s.free := rfl
@[simp] theorem State.setRing_regs (n : Nat) (x : Ring) : (s.setRing n x).regs = s.regs := rfl
@[simp] theorem State.setRing_mem (n : Nat) (x : Ring) : (s.setRing n x).mem = s.mem := rfl
@[simp] theorem State.setRing_poison (n : Nat) (x : Ring) : (s.setRing n x).poison = s.poison := rfl
@[simp] theorem State.setRing_upsets (n : Nat) (x : Ring) : (s.setRing n x).upsets = s.upsets := rfl
@[simp] theorem State.setRing_hostMem (n : Nat) (x : Ring) : (s.setRing n x).hostMem = s.hostMem := rfl
@[simp] theorem State.setRing_queues (n : Nat) (x : Ring) : (s.setRing n x).queues = s.queues := rfl
@[simp] theorem State.setRing_tasks (n : Nat) (x : Ring) : (s.setRing n x).tasks = s.tasks := rfl
@[simp] theorem State.setRing_nextTask (n : Nat) (x : Ring) : (s.setRing n x).nextTask = s.nextTask := rfl
@[simp] theorem State.setRing_engines (n : Nat) (x : Ring) : (s.setRing n x).engines = s.engines := rfl
@[simp] theorem State.setRing_tiles (n : Nat) (x : Ring) : (s.setRing n x).tiles = s.tiles := rfl
@[simp] theorem State.setRing_cores (n : Nat) (x : Ring) : (s.setRing n x).cores = s.cores := rfl
@[simp] theorem State.setRing_insts (n : Nat) (x : Ring) : (s.setRing n x).insts = s.insts := rfl
@[simp] theorem State.setRing_cad (n : Nat) (x : Ring) : (s.setRing n x).cad = s.cad := rfl
@[simp] theorem State.setRing_mapLive (n : Nat) (x : Ring) : (s.setRing n x).mapLive = s.mapLive := rfl
@[simp] theorem State.setRing_inlEn (n : Nat) (x : Ring) : (s.setRing n x).inlEn = s.inlEn := rfl
@[simp] theorem State.setRing_lockAt (n : Nat) (x : Ring) : (s.setRing n x).lockAt = s.lockAt := rfl
@[simp] theorem State.setRing_actLive (n : Nat) (x : Ring) : (s.setRing n x).actLive = s.actLive := rfl
@[simp] theorem State.setRing_store (n : Nat) (x : Ring) : (s.setRing n x).store = s.store := rfl
@[simp] theorem State.setRing_tdm (n : Nat) (x : Ring) : (s.setRing n x).tdm = s.tdm := rfl
@[simp] theorem State.setRing_clk (n : Nat) (x : Ring) : (s.setRing n x).clk = s.clk := rfl
@[simp] theorem State.setRing_hif (n : Nat) (x : Ring) : (s.setRing n x).hif = s.hif := rfl
@[simp] theorem State.setRing_sig (n : Nat) (x : Ring) : (s.setRing n x).sig = s.sig := rfl
@[simp] theorem State.setRing_outSegs (n : Nat) (x : Ring) : (s.setRing n x).outSegs = s.outSegs := rfl
@[simp] theorem State.setRing_outTx (n : Nat) (x : Ring) : (s.setRing n x).outTx = s.outTx := rfl
@[simp] theorem State.setRing_nextOrd (n : Nat) (x : Ring) : (s.setRing n x).nextOrd = s.nextOrd := rfl
@[simp] theorem State.setRing_rd_other (n : Nat) (x : Ring) (b : Nat) : (s.setRing n x).rd b = s.rd b := rfl
@[simp] theorem State.setRing_inst_other (n : Nat) (x : Ring) (j : Nat) : (s.setRing n x).inst j = s.inst j := rfl
@[simp] theorem State.setRing_core_other (n : Nat) (x : Ring) (j : Nat) : (s.setRing n x).core j = s.core j := rfl
@[simp] theorem State.setRing_engine_other (n : Nat) (x : Ring) (j : Nat) : (s.setRing n x).engine j = s.engine j := rfl
@[simp] theorem State.setRing_queue_other (n : Nat) (x : Ring) (j : Nat) : (s.setRing n x).queue j = s.queue j := rfl
@[simp] theorem State.setRing_tile_other (n : Nat) (x : Ring) (m n : Nat) : (s.setRing n x).tile m n = s.tile m n := rfl
@[simp] theorem State.setRing_dom_other (n : Nat) (x : Ring) (j : Nat) : (s.setRing n x).dom j = s.dom j := rfl
@[simp] theorem State.setRing_rdByte_other (n : Nat) (x : Ring) (b : Nat) : (s.setRing n x).rdByte b = s.rdByte b := rfl

/-! ### `setDom` -/

@[simp] theorem State.setDom_pending (d : Nat) (x : Domain) : (s.setDom d x).pending = s.pending := rfl
@[simp] theorem State.setDom_now (d : Nat) (x : Domain) : (s.setDom d x).now = s.now := rfl
@[simp] theorem State.setDom_free (d : Nat) (x : Domain) : (s.setDom d x).free = s.free := rfl
@[simp] theorem State.setDom_regs (d : Nat) (x : Domain) : (s.setDom d x).regs = s.regs := rfl
@[simp] theorem State.setDom_mem (d : Nat) (x : Domain) : (s.setDom d x).mem = s.mem := rfl
@[simp] theorem State.setDom_poison (d : Nat) (x : Domain) : (s.setDom d x).poison = s.poison := rfl
@[simp] theorem State.setDom_upsets (d : Nat) (x : Domain) : (s.setDom d x).upsets = s.upsets := rfl
@[simp] theorem State.setDom_hostMem (d : Nat) (x : Domain) : (s.setDom d x).hostMem = s.hostMem := rfl
@[simp] theorem State.setDom_queues (d : Nat) (x : Domain) : (s.setDom d x).queues = s.queues := rfl
@[simp] theorem State.setDom_tasks (d : Nat) (x : Domain) : (s.setDom d x).tasks = s.tasks := rfl
@[simp] theorem State.setDom_nextTask (d : Nat) (x : Domain) : (s.setDom d x).nextTask = s.nextTask := rfl
@[simp] theorem State.setDom_engines (d : Nat) (x : Domain) : (s.setDom d x).engines = s.engines := rfl
@[simp] theorem State.setDom_tiles (d : Nat) (x : Domain) : (s.setDom d x).tiles = s.tiles := rfl
@[simp] theorem State.setDom_cores (d : Nat) (x : Domain) : (s.setDom d x).cores = s.cores := rfl
@[simp] theorem State.setDom_insts (d : Nat) (x : Domain) : (s.setDom d x).insts = s.insts := rfl
@[simp] theorem State.setDom_cad (d : Nat) (x : Domain) : (s.setDom d x).cad = s.cad := rfl
@[simp] theorem State.setDom_mapLive (d : Nat) (x : Domain) : (s.setDom d x).mapLive = s.mapLive := rfl
@[simp] theorem State.setDom_inlEn (d : Nat) (x : Domain) : (s.setDom d x).inlEn = s.inlEn := rfl
@[simp] theorem State.setDom_lockAt (d : Nat) (x : Domain) : (s.setDom d x).lockAt = s.lockAt := rfl
@[simp] theorem State.setDom_actLive (d : Nat) (x : Domain) : (s.setDom d x).actLive = s.actLive := rfl
@[simp] theorem State.setDom_store (d : Nat) (x : Domain) : (s.setDom d x).store = s.store := rfl
@[simp] theorem State.setDom_flt (d : Nat) (x : Domain) : (s.setDom d x).flt = s.flt := rfl
@[simp] theorem State.setDom_tdm (d : Nat) (x : Domain) : (s.setDom d x).tdm = s.tdm := rfl
@[simp] theorem State.setDom_hif (d : Nat) (x : Domain) : (s.setDom d x).hif = s.hif := rfl
@[simp] theorem State.setDom_sig (d : Nat) (x : Domain) : (s.setDom d x).sig = s.sig := rfl
@[simp] theorem State.setDom_outSegs (d : Nat) (x : Domain) : (s.setDom d x).outSegs = s.outSegs := rfl
@[simp] theorem State.setDom_outTx (d : Nat) (x : Domain) : (s.setDom d x).outTx = s.outTx := rfl
@[simp] theorem State.setDom_nextOrd (d : Nat) (x : Domain) : (s.setDom d x).nextOrd = s.nextOrd := rfl
@[simp] theorem State.setDom_rd_other (d : Nat) (x : Domain) (b : Nat) : (s.setDom d x).rd b = s.rd b := rfl
@[simp] theorem State.setDom_inst_other (d : Nat) (x : Domain) (j : Nat) : (s.setDom d x).inst j = s.inst j := rfl
@[simp] theorem State.setDom_core_other (d : Nat) (x : Domain) (j : Nat) : (s.setDom d x).core j = s.core j := rfl
@[simp] theorem State.setDom_engine_other (d : Nat) (x : Domain) (j : Nat) : (s.setDom d x).engine j = s.engine j := rfl
@[simp] theorem State.setDom_queue_other (d : Nat) (x : Domain) (j : Nat) : (s.setDom d x).queue j = s.queue j := rfl
@[simp] theorem State.setDom_tile_other (d : Nat) (x : Domain) (m n : Nat) : (s.setDom d x).tile m n = s.tile m n := rfl
@[simp] theorem State.setDom_ring_other (d : Nat) (x : Domain) (j : Nat) : (s.setDom d x).ring j = s.ring j := rfl
@[simp] theorem State.setDom_rdByte_other (d : Nat) (x : Domain) (b : Nat) : (s.setDom d x).rdByte b = s.rdByte b := rfl

/-! ### `at_` -/

@[simp] theorem State.at__pending (u : Nat) : (s.at_ u).pending = s.pending := rfl
@[simp] theorem State.at__free (u : Nat) : (s.at_ u).free = s.free := rfl
@[simp] theorem State.at__regs (u : Nat) : (s.at_ u).regs = s.regs := rfl
@[simp] theorem State.at__mem (u : Nat) : (s.at_ u).mem = s.mem := rfl
@[simp] theorem State.at__poison (u : Nat) : (s.at_ u).poison = s.poison := rfl
@[simp] theorem State.at__upsets (u : Nat) : (s.at_ u).upsets = s.upsets := rfl
@[simp] theorem State.at__hostMem (u : Nat) : (s.at_ u).hostMem = s.hostMem := rfl
@[simp] theorem State.at__queues (u : Nat) : (s.at_ u).queues = s.queues := rfl
@[simp] theorem State.at__tasks (u : Nat) : (s.at_ u).tasks = s.tasks := rfl
@[simp] theorem State.at__nextTask (u : Nat) : (s.at_ u).nextTask = s.nextTask := rfl
@[simp] theorem State.at__engines (u : Nat) : (s.at_ u).engines = s.engines := rfl
@[simp] theorem State.at__tiles (u : Nat) : (s.at_ u).tiles = s.tiles := rfl
@[simp] theorem State.at__cores (u : Nat) : (s.at_ u).cores = s.cores := rfl
@[simp] theorem State.at__insts (u : Nat) : (s.at_ u).insts = s.insts := rfl
@[simp] theorem State.at__cad (u : Nat) : (s.at_ u).cad = s.cad := rfl
@[simp] theorem State.at__mapLive (u : Nat) : (s.at_ u).mapLive = s.mapLive := rfl
@[simp] theorem State.at__inlEn (u : Nat) : (s.at_ u).inlEn = s.inlEn := rfl
@[simp] theorem State.at__lockAt (u : Nat) : (s.at_ u).lockAt = s.lockAt := rfl
@[simp] theorem State.at__actLive (u : Nat) : (s.at_ u).actLive = s.actLive := rfl
@[simp] theorem State.at__store (u : Nat) : (s.at_ u).store = s.store := rfl
@[simp] theorem State.at__flt (u : Nat) : (s.at_ u).flt = s.flt := rfl
@[simp] theorem State.at__tdm (u : Nat) : (s.at_ u).tdm = s.tdm := rfl
@[simp] theorem State.at__clk (u : Nat) : (s.at_ u).clk = s.clk := rfl
@[simp] theorem State.at__hif (u : Nat) : (s.at_ u).hif = s.hif := rfl
@[simp] theorem State.at__sig (u : Nat) : (s.at_ u).sig = s.sig := rfl
@[simp] theorem State.at__outSegs (u : Nat) : (s.at_ u).outSegs = s.outSegs := rfl
@[simp] theorem State.at__outTx (u : Nat) : (s.at_ u).outTx = s.outTx := rfl
@[simp] theorem State.at__nextOrd (u : Nat) : (s.at_ u).nextOrd = s.nextOrd := rfl
@[simp] theorem State.at__rd_other (u : Nat) (b : Nat) : (s.at_ u).rd b = s.rd b := rfl
@[simp] theorem State.at__inst_other (u : Nat) (j : Nat) : (s.at_ u).inst j = s.inst j := rfl
@[simp] theorem State.at__core_other (u : Nat) (j : Nat) : (s.at_ u).core j = s.core j := rfl
@[simp] theorem State.at__engine_other (u : Nat) (j : Nat) : (s.at_ u).engine j = s.engine j := rfl
@[simp] theorem State.at__queue_other (u : Nat) (j : Nat) : (s.at_ u).queue j = s.queue j := rfl
@[simp] theorem State.at__tile_other (u : Nat) (m n : Nat) : (s.at_ u).tile m n = s.tile m n := rfl
@[simp] theorem State.at__ring_other (u : Nat) (j : Nat) : (s.at_ u).ring j = s.ring j := rfl
@[simp] theorem State.at__dom_other (u : Nat) (j : Nat) : (s.at_ u).dom j = s.dom j := rfl
@[simp] theorem State.at__rdByte_other (u : Nat) (b : Nat) : (s.at_ u).rdByte b = s.rdByte b := rfl

/-! ### `wrByte` -/

@[simp] theorem State.wrByte_pending (a : Nat) (b : Byte) : (s.wrByte a b).pending = s.pending := rfl
@[simp] theorem State.wrByte_now (a : Nat) (b : Byte) : (s.wrByte a b).now = s.now := rfl
@[simp] theorem State.wrByte_free (a : Nat) (b : Byte) : (s.wrByte a b).free = s.free := rfl
@[simp] theorem State.wrByte_regs (a : Nat) (b : Byte) : (s.wrByte a b).regs = s.regs := rfl
@[simp] theorem State.wrByte_poison (a : Nat) (b : Byte) : (s.wrByte a b).poison = s.poison := rfl
@[simp] theorem State.wrByte_upsets (a : Nat) (b : Byte) : (s.wrByte a b).upsets = s.upsets := rfl
@[simp] theorem State.wrByte_hostMem (a : Nat) (b : Byte) : (s.wrByte a b).hostMem = s.hostMem := rfl
@[simp] theorem State.wrByte_queues (a : Nat) (b : Byte) : (s.wrByte a b).queues = s.queues := rfl
@[simp] theorem State.wrByte_tasks (a : Nat) (b : Byte) : (s.wrByte a b).tasks = s.tasks := rfl
@[simp] theorem State.wrByte_nextTask (a : Nat) (b : Byte) : (s.wrByte a b).nextTask = s.nextTask := rfl
@[simp] theorem State.wrByte_engines (a : Nat) (b : Byte) : (s.wrByte a b).engines = s.engines := rfl
@[simp] theorem State.wrByte_tiles (a : Nat) (b : Byte) : (s.wrByte a b).tiles = s.tiles := rfl
@[simp] theorem State.wrByte_cores (a : Nat) (b : Byte) : (s.wrByte a b).cores = s.cores := rfl
@[simp] theorem State.wrByte_insts (a : Nat) (b : Byte) : (s.wrByte a b).insts = s.insts := rfl
@[simp] theorem State.wrByte_cad (a : Nat) (b : Byte) : (s.wrByte a b).cad = s.cad := rfl
@[simp] theorem State.wrByte_mapLive (a : Nat) (b : Byte) : (s.wrByte a b).mapLive = s.mapLive := rfl
@[simp] theorem State.wrByte_inlEn (a : Nat) (b : Byte) : (s.wrByte a b).inlEn = s.inlEn := rfl
@[simp] theorem State.wrByte_lockAt (a : Nat) (b : Byte) : (s.wrByte a b).lockAt = s.lockAt := rfl
@[simp] theorem State.wrByte_actLive (a : Nat) (b : Byte) : (s.wrByte a b).actLive = s.actLive := rfl
@[simp] theorem State.wrByte_store (a : Nat) (b : Byte) : (s.wrByte a b).store = s.store := rfl
@[simp] theorem State.wrByte_flt (a : Nat) (b : Byte) : (s.wrByte a b).flt = s.flt := rfl
@[simp] theorem State.wrByte_tdm (a : Nat) (b : Byte) : (s.wrByte a b).tdm = s.tdm := rfl
@[simp] theorem State.wrByte_clk (a : Nat) (b : Byte) : (s.wrByte a b).clk = s.clk := rfl
@[simp] theorem State.wrByte_hif (a : Nat) (b : Byte) : (s.wrByte a b).hif = s.hif := rfl
@[simp] theorem State.wrByte_sig (a : Nat) (b : Byte) : (s.wrByte a b).sig = s.sig := rfl
@[simp] theorem State.wrByte_outSegs (a : Nat) (b : Byte) : (s.wrByte a b).outSegs = s.outSegs := rfl
@[simp] theorem State.wrByte_outTx (a : Nat) (b : Byte) : (s.wrByte a b).outTx = s.outTx := rfl
@[simp] theorem State.wrByte_nextOrd (a : Nat) (b : Byte) : (s.wrByte a b).nextOrd = s.nextOrd := rfl
@[simp] theorem State.wrByte_rd_other (a : Nat) (b : Byte) (b : Nat) : (s.wrByte a b).rd b = s.rd b := rfl
@[simp] theorem State.wrByte_inst_other (a : Nat) (b : Byte) (j : Nat) : (s.wrByte a b).inst j = s.inst j := rfl
@[simp] theorem State.wrByte_core_other (a : Nat) (b : Byte) (j : Nat) : (s.wrByte a b).core j = s.core j := rfl
@[simp] theorem State.wrByte_engine_other (a : Nat) (b : Byte) (j : Nat) : (s.wrByte a b).engine j = s.engine j := rfl
@[simp] theorem State.wrByte_queue_other (a : Nat) (b : Byte) (j : Nat) : (s.wrByte a b).queue j = s.queue j := rfl
@[simp] theorem State.wrByte_tile_other (a : Nat) (b : Byte) (m n : Nat) : (s.wrByte a b).tile m n = s.tile m n := rfl
@[simp] theorem State.wrByte_ring_other (a : Nat) (b : Byte) (j : Nat) : (s.wrByte a b).ring j = s.ring j := rfl
@[simp] theorem State.wrByte_dom_other (a : Nat) (b : Byte) (j : Nat) : (s.wrByte a b).dom j = s.dom j := rfl

/-! ### `modFlt` -/

@[simp] theorem State.modFlt_pending (g : Faults → Faults) : (s.modFlt g).pending = s.pending := rfl
@[simp] theorem State.modFlt_now (g : Faults → Faults) : (s.modFlt g).now = s.now := rfl
@[simp] theorem State.modFlt_free (g : Faults → Faults) : (s.modFlt g).free = s.free := rfl
@[simp] theorem State.modFlt_regs (g : Faults → Faults) : (s.modFlt g).regs = s.regs := rfl
@[simp] theorem State.modFlt_mem (g : Faults → Faults) : (s.modFlt g).mem = s.mem := rfl
@[simp] theorem State.modFlt_poison (g : Faults → Faults) : (s.modFlt g).poison = s.poison := rfl
@[simp] theorem State.modFlt_upsets (g : Faults → Faults) : (s.modFlt g).upsets = s.upsets := rfl
@[simp] theorem State.modFlt_hostMem (g : Faults → Faults) : (s.modFlt g).hostMem = s.hostMem := rfl
@[simp] theorem State.modFlt_queues (g : Faults → Faults) : (s.modFlt g).queues = s.queues := rfl
@[simp] theorem State.modFlt_tasks (g : Faults → Faults) : (s.modFlt g).tasks = s.tasks := rfl
@[simp] theorem State.modFlt_nextTask (g : Faults → Faults) : (s.modFlt g).nextTask = s.nextTask := rfl
@[simp] theorem State.modFlt_engines (g : Faults → Faults) : (s.modFlt g).engines = s.engines := rfl
@[simp] theorem State.modFlt_tiles (g : Faults → Faults) : (s.modFlt g).tiles = s.tiles := rfl
@[simp] theorem State.modFlt_cores (g : Faults → Faults) : (s.modFlt g).cores = s.cores := rfl
@[simp] theorem State.modFlt_insts (g : Faults → Faults) : (s.modFlt g).insts = s.insts := rfl
@[simp] theorem State.modFlt_cad (g : Faults → Faults) : (s.modFlt g).cad = s.cad := rfl
@[simp] theorem State.modFlt_mapLive (g : Faults → Faults) : (s.modFlt g).mapLive = s.mapLive := rfl
@[simp] theorem State.modFlt_inlEn (g : Faults → Faults) : (s.modFlt g).inlEn = s.inlEn := rfl
@[simp] theorem State.modFlt_lockAt (g : Faults → Faults) : (s.modFlt g).lockAt = s.lockAt := rfl
@[simp] theorem State.modFlt_actLive (g : Faults → Faults) : (s.modFlt g).actLive = s.actLive := rfl
@[simp] theorem State.modFlt_store (g : Faults → Faults) : (s.modFlt g).store = s.store := rfl
@[simp] theorem State.modFlt_tdm (g : Faults → Faults) : (s.modFlt g).tdm = s.tdm := rfl
@[simp] theorem State.modFlt_clk (g : Faults → Faults) : (s.modFlt g).clk = s.clk := rfl
@[simp] theorem State.modFlt_hif (g : Faults → Faults) : (s.modFlt g).hif = s.hif := rfl
@[simp] theorem State.modFlt_sig (g : Faults → Faults) : (s.modFlt g).sig = s.sig := rfl
@[simp] theorem State.modFlt_outSegs (g : Faults → Faults) : (s.modFlt g).outSegs = s.outSegs := rfl
@[simp] theorem State.modFlt_outTx (g : Faults → Faults) : (s.modFlt g).outTx = s.outTx := rfl
@[simp] theorem State.modFlt_nextOrd (g : Faults → Faults) : (s.modFlt g).nextOrd = s.nextOrd := rfl
@[simp] theorem State.modFlt_rd_other (g : Faults → Faults) (b : Nat) : (s.modFlt g).rd b = s.rd b := rfl
@[simp] theorem State.modFlt_inst_other (g : Faults → Faults) (j : Nat) : (s.modFlt g).inst j = s.inst j := rfl
@[simp] theorem State.modFlt_core_other (g : Faults → Faults) (j : Nat) : (s.modFlt g).core j = s.core j := rfl
@[simp] theorem State.modFlt_engine_other (g : Faults → Faults) (j : Nat) : (s.modFlt g).engine j = s.engine j := rfl
@[simp] theorem State.modFlt_queue_other (g : Faults → Faults) (j : Nat) : (s.modFlt g).queue j = s.queue j := rfl
@[simp] theorem State.modFlt_tile_other (g : Faults → Faults) (m n : Nat) : (s.modFlt g).tile m n = s.tile m n := rfl
@[simp] theorem State.modFlt_dom_other (g : Faults → Faults) (j : Nat) : (s.modFlt g).dom j = s.dom j := rfl
@[simp] theorem State.modFlt_rdByte_other (g : Faults → Faults) (b : Nat) : (s.modFlt g).rdByte b = s.rdByte b := rfl

/-! ### A read after a write -/

@[simp] theorem State.rd_wr_self (a : Nat) (v : Word) : (s.wr a v).rd a = v := by simp [State.rd, State.wr]
theorem State.rd_wr_ne {a b : Nat} (h : b ≠ a) (v : Word) : (s.wr a v).rd b = s.rd b := by
  simp [State.rd, State.wr, SMap.get_set_ne _ _ h]
@[simp] theorem State.inst_setInst_self (i : Nat) (x : Inst) : (s.setInst i x).inst i = x := by
  simp [State.inst, State.setInst]
theorem State.inst_setInst_ne {i j : Nat} (h : j ≠ i) (x : Inst) : (s.setInst i x).inst j = s.inst j := by
  simp [State.inst, State.setInst, SMap.get_set_ne _ _ h]
@[simp] theorem State.core_setCore_self (i : Nat) (x : Core) : (s.setCore i x).core i = x := by
  simp [State.core, State.setCore]
theorem State.core_setCore_ne {i j : Nat} (h : j ≠ i) (x : Core) : (s.setCore i x).core j = s.core j := by
  simp [State.core, State.setCore, SMap.get_set_ne _ _ h]
@[simp] theorem State.engine_setEngine_self (i : Nat) (x : Engine) : (s.setEngine i x).engine i = x := by
  simp [State.engine, State.setEngine]
theorem State.engine_setEngine_ne {i j : Nat} (h : j ≠ i) (x : Engine) : (s.setEngine i x).engine j = s.engine j := by
  simp [State.engine, State.setEngine, SMap.get_set_ne _ _ h]
@[simp] theorem State.queue_setQueue_self (i : Nat) (x : Queue) : (s.setQueue i x).queue i = x := by
  simp [State.queue, State.setQueue]
theorem State.queue_setQueue_ne {i j : Nat} (h : j ≠ i) (x : Queue) : (s.setQueue i x).queue j = s.queue j := by
  simp [State.queue, State.setQueue, SMap.get_set_ne _ _ h]
@[simp] theorem State.tile_setTile_self (c r : Nat) (x : Tile) : (s.setTile c r x).tile c r = x := by
  simp [State.tile, State.setTile]
theorem State.tile_setTile_ne {c r m n : Nat} (h : tileKey m n ≠ tileKey c r) (x : Tile) :
    (s.setTile c r x).tile m n = s.tile m n := by
  simp [State.tile, State.setTile, SMap.get_set_ne _ _ h]
@[simp] theorem State.ring_setRing_self (n : Nat) (x : Ring) : (s.setRing n x).ring n = x := by
  simp [State.ring, State.setRing]
theorem State.ring_setRing_ne {n j : Nat} (h : j ≠ n) (x : Ring) : (s.setRing n x).ring j = s.ring j := by
  simp [State.ring, State.setRing, SMap.get_set_ne _ _ h]
@[simp] theorem State.dom_setDom_self (d : Nat) (x : Domain) : (s.setDom d x).dom d = x := by
  simp [State.dom, State.setDom]
theorem State.dom_setDom_ne {d j : Nat} (h : j ≠ d) (x : Domain) : (s.setDom d x).dom j = s.dom j := by
  simp [State.dom, State.setDom, SMap.get_set_ne _ _ h]
@[simp] theorem State.rdByte_wrByte_self (a : Nat) (b : Byte) : (s.wrByte a b).rdByte a = b := by
  simp [State.rdByte, State.wrByte]
theorem State.rdByte_wrByte_ne {a c : Nat} (h : c ≠ a) (b : Byte) : (s.wrByte a b).rdByte c = s.rdByte c := by
  simp [State.rdByte, State.wrByte, SMap.get_set_ne _ _ h]

/-! ### The canonical form of the memories and of the register file -/

theorem State.wr_regs_wf (a : Nat) (v : Word) (h : Regs.wf s = true) : Regs.wf (s.wr a v) = true :=
  SMap.wfFrom_set resetValue a v s.regs h

theorem State.wrByte_mem_wf (a : Nat) (b : Byte) (h : Memory.wf s = true) : Memory.wf (s.wrByte a b) = true :=
  SMap.wf_set 0 a b s.mem h

theorem State.wrBytesRaw_mem_wf (a : Nat) (bs : List Byte) (h : Memory.wf s = true) :
    Memory.wf (s.wrBytesRaw a bs) = true := by
  induction bs generalizing s a with
  | nil => exact h
  | cons b bs ih => exact ih _ _ (s.wrByte_mem_wf a b h)

theorem State.wrBytes_mem_wf (a : Nat) (bs : List Byte) (h : Memory.wf s = true) : Memory.wf (s.wrBytes a bs) = true :=
  s.wrBytesRaw_mem_wf a bs h

theorem State.zeroMem_mem_wf (k : MemKind) (u off n : Nat) (h : Memory.wf s = true) :
    Memory.wf (s.zeroMem k u off n) = true :=
  SMap.wf_filter 0 _ s.mem h

theorem setAll_wf (g : Nat × Byte → Nat) (cells : List (Nat × Byte)) (m : SMap Byte) (h : SMap.wf 0 m = true) :
    SMap.wf 0 (cells.foldl (fun m c => SMap.set 0 (g c) c.2 m) m) = true := by
  induction cells generalizing m with
  | nil => exact h
  | cons c cs ih => exact ih _ (SMap.wf_set 0 (g c) c.2 m h)

theorem State.copyMem_mem_wf (src dst n : Nat) (h : Memory.wf s = true) : Memory.wf (s.copyMem src dst n) = true :=
  setAll_wf (fun c => c.1 - src + dst) _ _ (SMap.wf_filter 0 _ s.mem h)

end Sys2Proof.Machine
end

