-- ==== Sys2Proof/Laws/Access.lean ====
section
/-! SUPPORT. What a host write of a register does, said once for the registers with a hook or plain storage. -/

namespace Sys2Proof.Machine

/-- A host write that is not paired away is a register write. -/
theorem hostReg_direct (s : State) (f a : Nat) (be : BitVec 4) (v : Word) (h : s.direct f a)
    (ha : 0x100000 ≤ a ∧ a < 0x200000 ∨ f = 0) : s.hostReg f a be v = s.writeReg f a be v := by
  obtain ⟨h1, h2, h3, h4⟩ := h
  unfold State.hostReg
  split
  · subst f
    unfold State.hostWrite State.follower State.leads
    simp [h1, h3, State.apply, pfOffset]
  · have := ha.resolve_right ‹_›
    unfold State.hostWrite State.follower State.leads
    simp [h1, h3, State.apply, pfOffset, this]

/-- An access to a domain that does not gate wakes nothing. -/
theorem wakeFor_plain (s : State) (p : Nat) (h : gateable (regDomain p) = false) : s.wakeFor p = s := by
  have w : s.wakeDom (regDomain p) = s := by simp [State.wakeDom, h]
  unfold State.wakeFor State.woken
  simp [w]

/-- Such a register assigns no unit. -/
theorem assigned_plain (s : State) (p : Nat) (h : plainReg p = true) : s.assigned p = none := by
  unfold State.assigned
  simp [plainReg] at h
  obtain ⟨⟨h1, h2⟩, h3⟩ := h
  split
  · rename_i i hi
    simp [hi] at h3
    rw [if_neg]
    omega
  · simp [h2]

/-- A direct write of a plain register: nothing where it brings no bit, else its parity is made good and its hook runs. -/
theorem writeReg_plain (s : State) (f p : Nat) (be : BitVec 4) (v : Word) (d : RegDesc)
    (h : s.direct f p) (hp : plainReg p = true) (hd : regAt p = some d) (hn : s.noPlan p = false) :
    s.writeReg f p be v =
      (let w := landing d (f == 0) (s.lckOpen p) 0 be v (s.rd p)
       if w.mask = 0 ∧ w.one = 0 then .next s
       else
         let s := if s.lands p d w then s.healIf (· == p) else s
         match hooks.findSome? (fun h => (rowOf h.base h.stride h.count p).map (fun n => h.run s n w)) with
         | some s => .next s
         | none => .next (s.plainWrite p d w)) := by
  obtain ⟨h1, h2, h3, h4⟩ := h
  have hp' := hp
  simp only [plainReg, Bool.and_eq_true, beq_iff_eq, bne_iff_ne, Bool.not_eq_true'] at hp
  obtain ⟨⟨⟨⟨⟨⟨⟨⟨⟨⟨⟨⟨⟨⟨⟨a1, a2⟩, a3⟩, a4⟩, a5⟩, a6⟩, a7⟩, a8⟩, a9⟩, a10⟩, b10⟩, a11⟩, a12⟩, a13⟩, a14⟩, a15⟩ := hp
  have e : plainOf p = p := by simp [plainOf, a1]
  have w := wakeFor_plain s p a13
  unfold State.writeReg
  simp only [e, a1, h4, w, hd, h2, hn]
  have as : ∀ t : State, t.assigned p = none := fun t => assigned_plain t p hp'
  simp [a3, a4, a5, a6, a7, a8, a10, b10, a11, as]
  simp_all
  all_goals rfl

/-- What a write brings to a register of CMD fields alone. -/
theorem landing_cmd (d : RegDesc) (prv lck : Bool) (be : BitVec 4) (v old : Word)
    (h : d.rw = 0 ∧ d.lck = 0 ∧ d.prv = 0 ∧ d.cnt = 0 ∧ d.w1c = 0) :
    landing d prv lck 0 be v old = { old := old, nv := old, mask := 0, one := v &&& beMask be &&& wd d.cmd } := by
  obtain ⟨h1, h2, h3, h4, h5⟩ := h
  have e : old &&& 4294967295#32 = old := by
    have : (4294967295#32 : Word) = BitVec.allOnes 32 := rfl
    rw [this, BitVec.and_allOnes]
  unfold landing
  cases prv <;> cases lck <;> simp [wd, h1, h2, h3, h4, h5, e]

/-- A direct write of a register of CMD fields alone runs its hook on the bits written 1. -/
theorem writeReg_cmd (s : State) (f p : Nat) (be : BitVec 4) (v : Word) (d : RegDesc)
    (h : s.direct f p) (hp : plainReg p = true) (hd : regAt p = some d) (hn : s.noPlan p = false)
    (hc : d.rw = 0 ∧ d.lck = 0 ∧ d.prv = 0 ∧ d.cnt = 0 ∧ d.w1c = 0) (ho : v &&& beMask be &&& wd d.cmd ≠ 0) :
    s.writeReg f p be v =
      (let w : Landing := { old := s.rd p, nv := s.rd p, mask := 0, one := v &&& beMask be &&& wd d.cmd }
       match hooks.findSome? (fun h => (rowOf h.base h.stride h.count p).map (fun n => h.run s n w)) with
       | some s => .next s
       | none => .next (s.plainWrite p d w)) := by
  rw [writeReg_plain s f p be v d h hp hd hn]
  rw [landing_cmd _ _ _ _ _ _ hc]
  simp only [ho, and_false, if_false]
  have l : s.lands p d { old := s.rd p, nv := s.rd p, mask := 0, one := v &&& beMask be &&& wd d.cmd } = false := by
    simp [State.lands]
  simp only [l]
  rfl

end Sys2Proof.Machine
end

