-- ==== Sys2Proof/Laws/Core.lean ====
section
/-! SUPPORT. What every core instruction shares: a sound fetch or load changes nothing, a ready core runs or stops by its
causes, and retiring touches the core and the count of instructions only. -/

namespace Sys2Proof.Machine

theorem State.meetUpset_of_none (k : MemKind) (s : State) (w : Nat) (h : SMap.find s.upsets w = none) :
    State.meetUpset k s w = s := by simp [State.meetUpset, h]

theorem State.foldl_meetUpset (k : MemKind) (s : State) (ws : List Nat)
    (h : ∀ w ∈ ws, SMap.find s.upsets w = none) : ws.foldl (State.meetUpset k) s = s := by
  induction ws with
  | nil => rfl
  | cons w ws ih =>
    rw [List.foldl_cons, State.meetUpset_of_none k s w (h w (by simp))]
    exact ih (fun v hv => h v (by simp [hv]))

/-- A read of sound words changes nothing and meets no poison. -/
theorem State.secded_of_sound (s : State) (k : MemKind) (a n : Nat) (h : s.sound a n) : s.secded k a n = (s, false) := by
  simp [State.secded, State.foldl_meetUpset k s _ h.1, h.2]

/-- A ready core runs its instruction, or stops with its cause. -/
theorem State.coreStep_ready (s : State) (k : Nat) (i : Sys2Proof.Instr) (cause : State → Core → Option Nat)
    (run : State → Core → State) (h : s.ready k i) : s.coreStep k i cause run =
      match cause s (s.core k) with
      | some c => .next (s.coreStop k c)
      | none => .next (run s (s.core k)) := by
  simp [State.coreStep, h.1, s.secded_of_sound .core _ 4 h.2.1, h.2.2] <;> rfl

/-- A core at whose pc stands no instruction stops with cause 1. -/
theorem State.coreStep_illegal (s : State) (k : Nat) (i : Sys2Proof.Instr) (cause : State → Core → Option Nat)
    (run : State → Core → State) (h : (s.core k).active = true) (hs : s.sound (memAddr .core k (s.core k).pc.toNat) 4)
    (hd : Sys2Proof.decodeCore k (s.fetchWord k) = none) : s.coreStep k i cause run = .next (s.coreStop k 1) := by
  simp [State.coreStep, h, s.secded_of_sound .core _ 4 hs, hd]

/-- A core whose fetch meets poison stops with cause 9. -/
theorem State.coreStep_poisoned (s : State) (k : Nat) (i : Sys2Proof.Instr) (cause : State → Core → Option Nat)
    (run : State → Core → State)
    (h : (s.core k).active = true)
    (hu : ∀ w ∈ wordsOf (memAddr .core k (s.core k).pc.toNat) 4, SMap.find s.upsets w = none)
    (hp : s.poisoned (memAddr .core k (s.core k).pc.toNat) 4 = true) :
    s.coreStep k i cause run = .next (s.coreStop k 9) := by
  simp [State.coreStep, h, State.secded, State.foldl_meetUpset _ s _ hu, hp]

theorem State.coreLoad_of_sound (s : State) (k a n : Nat) (h : s.sound (memAddr .core k a) n) :
    s.coreLoad k a n = (s, s.rdBytes (memAddr .core k a) n) := by
  simp [State.coreLoad, s.secded_of_sound .core _ n h, State.corePoison]

theorem State.retireTo_eq (s : State) (k : Nat) (x : Core) (pc : BitVec 17) (h : x.active = true) :
    s.retireTo k x pc = (s.setCore k { x with pc := pc, st := .running, waitTick := none }).retired k := by
  simp [State.retireTo, h]

@[simp] theorem Core.sset_st (x : Core) (n : BitVec 5) (v : Word) : (x.sset n v).st = x.st := by
  unfold Core.sset; split <;> rfl
@[simp] theorem Core.sset_pc (x : Core) (n : BitVec 5) (v : Word) : (x.sset n v).pc = x.pc := by
  unfold Core.sset; split <;> rfl
@[simp] theorem Core.vset_st (x : Core) (n : BitVec 4) (v : BitVec 512) : (x.vset n v).st = x.st := rfl
@[simp] theorem Core.vset_pc (x : Core) (n : BitVec 4) (v : BitVec 512) : (x.vset n v).pc = x.pc := rfl
@[simp] theorem Core.pset_st (x : Core) (n : BitVec 3) (v : BitVec 16) : (x.pset n v).st = x.st := by
  unfold Core.pset; split <;> rfl
@[simp] theorem Core.pset_pc (x : Core) (n : BitVec 3) (v : BitVec 16) : (x.pset n v).pc = x.pc := by
  unfold Core.pset; split <;> rfl
theorem Core.active_sset (x : Core) (n : BitVec 5) (v : Word) : (x.sset n v).active = x.active := by
  simp [Core.active]
theorem Core.active_vset (x : Core) (n : BitVec 4) (v : BitVec 512) : (x.vset n v).active = x.active := rfl
theorem Core.active_pset (x : Core) (n : BitVec 3) (v : BitVec 16) : (x.pset n v).active = x.active := by
  simp [Core.active]

theorem State.wr64_rd_ne (s : State) (lo hi n : Nat) {a : Nat} (h1 : a ≠ lo) (h2 : a ≠ hi) :
    (s.wr64 lo hi n).rd a = s.rd a := by
  rw [State.wr64, State.rd_wr_ne _ h2, State.rd_wr_ne _ h1]

theorem State.retired_core (s : State) (k j : Nat) : (s.retired k).core j = s.core j := by
  simp only [State.retired, State.wr64, State.wr_core_other]

theorem State.retired_rd (s : State) (k a : Nat) (h : a ∉ retiredRegs k) : (s.retired k).rd a = s.rd a := by
  simp only [retiredRegs, List.mem_cons, List.not_mem_nil, or_false, not_or] at h
  exact s.wr64_rd_ne _ _ _ h.1 h.2

/-- Retiring core k: the core becomes `x` at the new pc, and everything else but the count stays. -/
theorem State.retireTo_becomes (s : State) (k : Nat) (x : Core) (pc : BitVec 17) (h : x.active = true) :
    CoreBecomes s (s.retireTo k x pc) k { x with pc := pc } := by
  rw [s.retireTo_eq k x pc h]
  refine ⟨?_, ?_, ?_⟩
  · rw [State.retired_core]; simp
  · intro j hj; rw [State.retired_core]; exact s.core_setCore_ne hj _
  · intro a ha
    rw [State.retired_rd _ _ _ ha]; rfl

theorem State.wr64_frame (s : State) (lo hi n : Nat) : s.wr64 lo hi n = { s with regs := (s.wr64 lo hi n).regs } := rfl

theorem State.retired_frame (s : State) (k : Nat) : s.retired k = { s with regs := (s.retired k).regs } :=
  s.wr64_frame _ _ _

theorem State.retireTo_frame (s : State) (k : Nat) (x : Core) (pc : BitVec 17) :
    s.retireTo k x pc = { s with cores := (s.retireTo k x pc).cores, regs := (s.retireTo k x pc).regs } := by
  unfold State.retireTo
  rw [State.retired_frame]
  rfl

theorem retires_retireTo (s : State) (k : Nat) (x : Core) (pc : BitVec 17) (h : x.active = true) :
    Retires s k { x with pc := pc } (.next (s.retireTo k x pc)) :=
  ⟨_, rfl, s.retireTo_becomes k x pc h, s.retireTo_frame k x pc⟩

theorem retires_retire (s : State) (k : Nat) (x : Core) (h : x.active = true) :
    Retires s k { x with pc := x.pc + 4 } (.next (s.retire k x)) :=
  retires_retireTo s k x _ h

end Sys2Proof.Machine
end

