-- ==== Sys2Proof/WellFormed.lean ====
section
/-! DEFINITION. Which commands are well formed: every operand names a function, unit, row or register that the device
has. Widths of bit-vector operands need no check. -/

namespace Sys2Proof

/-- The operands of a command lie in the ranges the manual gives their units (R45, R51, R186, R219, R289, R403). -/
def Instr.wf : Instr → Bool
  | .cadenceInEdge _ => true
  | .cadenceInPulseEnd _ => true
  | .sheetWidthExpiry _ => true
  | .tick _ => true
  | .stageLineFinish i sid _ => decide (i < 8 ∧ 1 ≤ sid ∧ sid < 256)
  | .cadPeriodWrite f _ _ => decide (f ≤ 8)
  | .srcSwitch f _ _ _ => decide (f ≤ 8)
  | .cadStep f _ _ => decide (f ≤ 8)
  | .hostMark f => decide (f ≤ 8)
  | .cadClrMax f => decide (f ≤ 8)
  | .emptyLimitWrite f i _ _ => decide (f ≤ 8 ∧ i < 8)
  | .tickTimeout _ => true
  | .blockLockLost j => decide (j < 32)
  | .highBer j => decide (j < 32)
  | .blockLockGained j => decide (j < 32)
  | .invalidBlock j => decide (j < 32)
  | .vlfFrame fr _ => decide (fr.lane < 32)
  | .inlLaneEnWrite f _ _ => decide (f ≤ 8)
  | .resync f i => decide (f ≤ 8 ∧ i < 8)
  | .inlClr f => decide (f ≤ 8)
  | .streamMapWrite f k r _ _ => decide (f ≤ 8 ∧ k < 32 ∧ r < 4)
  | .loadw e => decide (e < 64)
  | .tapsum e => decide (e < 64)
  | .matmul e => decide (e < 64)
  | .dwdiag e => decide (e < 64)
  | .chain e => decide (e < 64)
  | .lutcol e => decide (e < 64)
  | .bwd e => decide (e < 64)
  | .scrubw e => decide (e < 64)
  | .epilogue e => decide (e < 64)
  | .fillDone e => decide (e < 64)
  | .engineScrub u _ => decide (u < 68)
  | .tileScrub c r _ => decide (c < 66 ∧ r < 32)
  | .coreScrub u _ => decide (u < 128)
  | .bulkScrub u _ => decide (u < 5)
  | .bundle c r _ _ p => decide (c < 64 ∧ r < 32) && p.all (fun p => decide (p.1 < 66 ∧ p.2 < 32))
  | .drainComplete i sid => decide (i < 8 ∧ 1 ≤ sid ∧ sid < 256)
  | .configWriteDone i sid => decide (i < 8 ∧ 1 ≤ sid ∧ sid < 256)
  | .stageReleaseStep i sid => decide (i < 8 ∧ 1 ≤ sid ∧ sid < 256)
  | .columnTakeover c => decide (c < 64)
  | .takeoverDone c => decide (c < 64)
  | .add k _ _ _ _ => decide (k < 128)
  | .sub k _ _ _ _ => decide (k < 128)
  | .and k _ _ _ _ => decide (k < 128)
  | .or k _ _ _ _ => decide (k < 128)
  | .xor k _ _ _ _ => decide (k < 128)
  | .sll k _ _ _ _ => decide (k < 128)
  | .srl k _ _ _ _ => decide (k < 128)
  | .sra k _ _ _ _ => decide (k < 128)
  | .sraf k _ _ _ _ => decide (k < 128)
  | .slt k _ _ _ _ => decide (k < 128)
  | .sltu k _ _ _ _ => decide (k < 128)
  | .mul k _ _ _ _ => decide (k < 128)
  | .mulh k _ _ _ _ => decide (k < 128)
  | .mulhu k _ _ _ _ => decide (k < 128)
  | .div k _ _ _ _ => decide (k < 128)
  | .divu k _ _ _ _ => decide (k < 128)
  | .rem k _ _ _ _ => decide (k < 128)
  | .remu k _ _ _ _ => decide (k < 128)
  | .min k _ _ _ _ => decide (k < 128)
  | .max k _ _ _ _ => decide (k < 128)
  | .clz k _ _ _ _ => decide (k < 128)
  | .popc k _ _ _ _ => decide (k < 128)
  | .addi k _ _ _ => decide (k < 128)
  | .andi k _ _ _ => decide (k < 128)
  | .ori k _ _ _ => decide (k < 128)
  | .xori k _ _ _ => decide (k < 128)
  | .slti k _ _ _ => decide (k < 128)
  | .lui k _ _ _ => decide (k < 128)
  | .lw k _ _ _ => decide (k < 128)
  | .lh k _ _ _ => decide (k < 128)
  | .lhu k _ _ _ => decide (k < 128)
  | .lb k _ _ _ => decide (k < 128)
  | .lbu k _ _ _ => decide (k < 128)
  | .sw k _ _ _ => decide (k < 128)
  | .sh k _ _ _ => decide (k < 128)
  | .sb k _ _ _ => decide (k < 128)
  | .beq k _ _ _ => decide (k < 128)
  | .bne k _ _ _ => decide (k < 128)
  | .blt k _ _ _ => decide (k < 128)
  | .bge k _ _ _ => decide (k < 128)
  | .bltu k _ _ _ => decide (k < 128)
  | .bgeu k _ _ _ => decide (k < 128)
  | .jal k _ _ => decide (k < 128)
  | .jalr k _ _ _ => decide (k < 128)
  | .vld k _ _ _ => decide (k < 128)
  | .vst k _ _ _ => decide (k < 128)
  | .vlde k _ _ _ => decide (k < 128)
  | .vste k _ _ _ => decide (k < 128)
  | .vcvt k _ _ _ _ _ _ _ => decide (k < 128)
  | .scvt k _ _ _ _ _ _ => decide (k < 128)
  | .shi k _ _ _ => decide (k < 128)
  | .vget k _ _ _ => decide (k < 128)
  | .vadd k _ _ _ _ _ => decide (k < 128)
  | .vsub k _ _ _ _ _ => decide (k < 128)
  | .vmul k _ _ _ _ _ => decide (k < 128)
  | .vmin k _ _ _ _ _ => decide (k < 128)
  | .vmax k _ _ _ _ _ => decide (k < 128)
  | .vand k _ _ _ _ _ => decide (k < 128)
  | .vor k _ _ _ _ _ => decide (k < 128)
  | .vxor k _ _ _ _ _ => decide (k < 128)
  | .vsll k _ _ _ _ _ => decide (k < 128)
  | .vsrl k _ _ _ _ _ => decide (k < 128)
  | .vsra k _ _ _ _ _ => decide (k < 128)
  | .vabs k _ _ _ _ _ => decide (k < 128)
  | .vfadd k _ _ _ _ _ => decide (k < 128)
  | .vfsub k _ _ _ _ _ => decide (k < 128)
  | .vfmul k _ _ _ _ _ => decide (k < 128)
  | .vfma k _ _ _ _ _ => decide (k < 128)
  | .vfmin k _ _ _ _ _ => decide (k < 128)
  | .vfmax k _ _ _ _ _ => decide (k < 128)
  | .vfdiv k _ _ _ _ _ => decide (k < 128)
  | .vfsqrt k _ _ _ _ _ => decide (k < 128)
  | .vfscl k _ _ _ _ _ => decide (k < 128)
  | .vfabs k _ _ _ _ _ => decide (k < 128)
  | .vcmpeq k _ _ _ _ _ => decide (k < 128)
  | .vcmplt k _ _ _ _ _ => decide (k < 128)
  | .vcmple k _ _ _ _ _ => decide (k < 128)
  | .vfcmpeq k _ _ _ _ _ => decide (k < 128)
  | .vfcmplt k _ _ _ _ _ => decide (k < 128)
  | .vfcmple k _ _ _ _ _ => decide (k < 128)
  | .vsel k _ _ _ _ _ => decide (k < 128)
  | .vbcst k _ _ _ _ _ => decide (k < 128)
  | .vpmask k _ _ _ _ _ => decide (k < 128)
  | .vrsum k _ _ _ _ _ => decide (k < 128)
  | .vrmax k _ _ _ _ _ => decide (k < 128)
  | .vrmin k _ _ _ _ _ => decide (k < 128)
  | .vfrsum k _ _ _ _ _ => decide (k < 128)
  | .vfrmax k _ _ _ _ _ => decide (k < 128)
  | .vfrmin k _ _ _ _ _ => decide (k < 128)
  | .vperm k _ _ _ _ _ => decide (k < 128)
  | .vrot k _ _ _ _ _ => decide (k < 128)
  | .qwait k _ _ _ => decide (k < 128)
  | .qpop k _ _ _ _ => decide (k < 128)
  | .qpush k _ _ _ => decide (k < 128)
  | .qcnt k _ _ _ => decide (k < 128)
  | .enqe k _ _ _ => decide (k < 128)
  | .efill k _ _ _ => decide (k < 128)
  | .xsub k _ _ _ => decide (k < 128)
  | .xlit k _ _ _ => decide (k < 128)
  | .tickwait k _ _ _ => decide (k < 128)
  | .fence k _ _ _ => decide (k < 128)
  | .crd k _ _ _ => decide (k < 128)
  | .cwr k _ _ _ => decide (k < 128)
  | .taskStart q _ => decide (q < 16384)
  | .depMark _ => true
  | .taskComplete _ => true
  | .lightComplete h => decide (h.q < 16384)
  | .flush f => decide (f ≤ 8)
  | .queClr f => decide (f ≤ 8)
  | .doorbell f l _ _ => decide (f ≤ 8 ∧ l < 16384)
  | .xfrClrMax f => decide (f ≤ 8)
  | .promote f i => decide (f ≤ 8 ∧ i < 8)
  | .rollback f i => decide (f ≤ 8 ∧ i < 8)
  | .discard f i => decide (f ≤ 8 ∧ i < 8)
  | .checkpoint f i => decide (f ≤ 8 ∧ i < 8)
  | .restore f i => decide (f ≤ 8 ∧ i < 8)
  | .marginWrite f i _ _ => decide (f ≤ 8 ∧ i < 8)
  | .checkpointCommit i _ => decide (i < 8)
  | .resultCommit i _ => decide (i < 8)
  | .gpioPulseEnd k _ => decide (k < 8)
  | .actRequest i => decide (i < 8)
  | .actionTableWrite f k r _ _ => decide (f ≤ 8 ∧ k < 256 ∧ r < 7)
  | .sealToken i => decide (i < 8)
  | .publicationDeadline i => decide (i < 8)
  | .editionPublish i => decide (i < 8)
  | .remirror f i => decide (f ≤ 8 ∧ i < 8)
  | .outClr f i => decide (f ≤ 8 ∧ i < 8)
  | .recordIn h => decide (h.q < 16384)
  | .assignmentWrite f off _ _ => decide (f ≤ 8 ∧ off < 0x4000000 ∧ off % 4 = 0)
  | .loadSrcWrite f i _ _ => decide (f ≤ 8 ∧ i < 8)
  | .insLoad f i _ => decide (f ≤ 8 ∧ i < 8)
  | .loadComplete i => decide (i < 8)
  | .insRelease f i => decide (f ≤ 8 ∧ i < 8)
  | .releaseStep i _ => decide (i < 8)
  | .insReset f i => decide (f ≤ 8 ∧ i < 8)
  | .functionLevelReset v => decide (1 ≤ v ∧ v ≤ 8)
  | .vfDisable v => decide (1 ≤ v ∧ v ≤ 8)
  | .resetDone i => decide (i < 8)
  | .insReload f i _ => decide (f ≤ 8 ∧ i < 8)
  | .patchCheck i => decide (i < 8)
  | .reloadDone i sid => decide (i < 8 ∧ 1 ≤ sid ∧ sid < 256)
  | .engineRepair f e => decide (f ≤ 8 ∧ e < 64)
  | .engineCopyStart e => decide (e < 64)
  | .engineSwapDone e => decide (e < 64)
  | .columnRepair f c => decide (f ≤ 8 ∧ c < 64)
  | .targetTimeout ch ce => decide (ch < 8 ∧ ce < 4)
  | .stoMount f => decide (f ≤ 8)
  | .mountDone => true
  | .stoClose f => decide (f ≤ 8)
  | .pageProgramDone _ _ => true
  | .blockEraseDone _ _ => true
  | .backgroundScan _ => true
  | .stoList f => decide (f ≤ 8)
  | .stoRead f => decide (f ≤ 8)
  | .stoTrim f => decide (f ≤ 8)
  | .stoSync f => decide (f ≤ 8)
  | .stoWriteBoot f => decide (f ≤ 8)
  | .stoFormat f => decide (f ≤ 8)
  | .mainOkFall _ => true
  | .mainOkRise _ => true
  | .mainStableExpiry _ => true
  | .holdOkFall _ => true
  | .holdOkRise _ => true
  | .repairFetchDone i _ => decide (i < 8)
  | .repairEntry i _ => decide (i < 8)
  | .repairWaitExpiry i => decide (i < 8)
  | .fltTest f => decide (f ≤ 8)
  | .fltRetest f => decide (f ≤ 8)
  | .testStart _ => true
  | .testComplete kind _ _ _ => decide (kind < 23)
  | .clrLog f => decide (f ≤ 8)
  | .instanceClrLog f i => decide (f ≤ 8 ∧ i < 8)
  | .logTailWrite f ring _ _ => decide (f ≤ 8 ∧ ring < 9)
  | .pair f _ => decide (f ≤ 8)
  | .leaveCmd f _ => decide (f ≤ 8)
  | .pairTimeout _ => true
  | .helloSend _ => true
  | .tandemFrame fr _ => decide (fr.lane < 8)
  | .replayTimeout _ => true
  | .helloMsg _ => true
  | .tdmTick _ => true
  | .sigMsg _ => true
  | .cmpWaitExpiry i _ => decide (i < 8)
  | .writeMsg _ => true
  | .dataMsg _ => true
  | .tdmTest _ => true
  | .verdictMsg _ => true
  | .markMsg _ => true
  | .leaveMsg _ => true
  | .faultMsg _ => true
  | .faultWaitExpiry i _ => decide (i < 8)
  | .tdmRepair _ => true
  | .partnerLoss _ => true
  | .gate dom _ => decide (dom < 92)
  | .wake dom _ => decide (dom < 92)
  | .rampStep dom _ => decide (dom < 92)
  | .dividerWrite f dom _ _ _ => decide (f ≤ 8 ∧ dom < 116)
  | .monitorWindow _ _ => true
  | .pllUnlock p _ => decide (p < 10)
  | .brakeEngage sen _ _ => decide (sen < 16)
  | .brakeRelease sen _ _ => decide (sen < 16)
  | .thermalSample _ _ => true
  | .pwrClrMax f => decide (f ≤ 8)
  | .droopWrite f _ _ => decide (f ≤ 8)
  | .thermWrite f _ _ => decide (f ≤ 8)
  | .registerWrite f off _ _ => decide (f ≤ 8 ∧ off < 0x4000000 ∧ off % 4 = 0)
  | .unsupportedRequest f => decide (f ≤ 8)
  | .readShadowLatch f off => decide (f ≤ 8 ∧ off < 0x4000000 ∧ off % 4 = 0)
  | .counterHighWrite f off _ _ => decide (f ≤ 8 ∧ off < 0x4000000 ∧ off % 4 = 0)
  | .counterLowWrite f off _ _ => decide (f ≤ 8 ∧ off < 0x4000000 ∧ off % 4 = 0)
  | .setAlias f off _ _ => decide (f ≤ 8 ∧ off < 0x4000000 ∧ off % 4 = 0)
  | .clearAlias f off _ _ => decide (f ≤ 8 ∧ off < 0x4000000 ∧ off % 4 = 0)
  | .toggleAlias f off _ _ => decide (f ≤ 8 ∧ off < 0x4000000 ∧ off % 4 = 0)
  | .parityFault off => decide (off < 0x4010 * 0x4000000 ∧ off % 4 = 0)
  | .parityInject f _ => decide (f ≤ 8)
  | .strapSample _ _ => true
  | .perstRise _ => true
  | .perstFall _ => true
  | .flashBoot => true
  | .smbSetPointer _ => true
  | .smbBlockRead => true
  | .smbEventWrite _ => true
  | .alertResponse => true
  | .dbgaccRead _ => true
  | .dbgaccWrite _ _ => true
  | .extest => true
  | .samplePreload => true
  | .highz => true
  | .clamp => true
  | .idcode => true
  | .bypass => true
  | .dbgMemRead f => decide (f ≤ 8)
  | .dbgMemWrite f => decide (f ≤ 8)
  | .memAccessDone => true
  | .probeArm f k _ _ => decide (f ≤ 8 ∧ k < 4)
  | .managerFunctionLevelReset _ => true
  | .vfEnable n => decide (n ≤ 8)
  | .pllLock _ _ => true
  | .internalResetRelease _ => true
  | .bankRemapCopyDone die bank => decide (die < 4 ∧ bank < 512)
  | .outletSegmentSent j => decide (j < 8)
  | .prbsBitError j => decide (j < 32)
  | .cadenceOutPulse _ => true
  | .probeWindowEdge k _ => decide (k < 4)
  | .testLogicReset => true
  | .msiXUnmask f vec => decide (f ≤ 8 ∧ vec < 256)
  | .pageReadDone _ _ => true

end Sys2Proof
end

