-- ==== Sys2Proof/Tests/Slice0.lean ====
section
/-! SUPPORT. Tests: what the checks of `Instr.wf` refuse, the spec's worked examples, and for every statement with hypotheses a
witness, named after it, of states and operands that meet them. -/

open Sys2Proof Sys2Proof.Machine

namespace Slice0Tests

set_option Elab.async false

/-- One ill-formed command for each check of `Instr.wf`, part 1. -/
theorem test_wf_refuses_1 : ([
    .stageLineFinish 8 1 0, .stageLineFinish 0 0 0, .stageLineFinish 0 256 0, .cadPeriodWrite 9 0 0, .srcSwitch 9 0 0 0,
    .cadStep 9 false 0, .hostMark 9, .cadClrMax 9, .emptyLimitWrite 9 0 0 0, .emptyLimitWrite 0 8 0 0, .blockLockLost 32,
    .highBer 32, .blockLockGained 32, .invalidBlock 32, .vlfFrame { lane := 32, start := 0, octets := [], blocks := [] } 0,
    .inlLaneEnWrite 9 0 0, .resync 9 0, .resync 0 8, .inlClr 9, .streamMapWrite 9 0 0 0 0, .streamMapWrite 0 32 0 0 0,
    .streamMapWrite 0 0 4 0 0, .loadw 64, .tapsum 64, .matmul 64, .dwdiag 64, .chain 64, .lutcol 64, .bwd 64, .scrubw 64,
    .epilogue 64, .fillDone 64, .engineScrub 68 ⟨[], []⟩, .tileScrub 66 0 ⟨[], []⟩, .tileScrub 0 32 ⟨[], []⟩, .coreScrub 128 ⟨[], []⟩, .bulkScrub 5 ⟨[], []⟩,
    .bundle 64 0 0 0 none, .bundle 0 32 0 0 none, .bundle 0 0 0 0 (some (66, 0)), .bundle 0 0 0 0 (some (0, 32)), .drainComplete 8 1, .drainComplete 0 0, .drainComplete 0 256, .configWriteDone 8 1,
    .configWriteDone 0 0, .configWriteDone 0 256, .stageReleaseStep 8 1, .stageReleaseStep 0 0, .stageReleaseStep 0 256,
    .columnTakeover 64, .takeoverDone 64, .add 128 0 0 0 0, .sub 128 0 0 0 0, .and 128 0 0 0 0, .or 128 0 0 0 0,
    .xor 128 0 0 0 0, .sll 128 0 0 0 0, .srl 128 0 0 0 0, .sra 128 0 0 0 0, .sraf 128 0 0 0 0, .slt 128 0 0 0 0] : List Instr).all (fun c => !c.wf) = true := by decide

/-- One ill-formed command for each check of `Instr.wf`, part 2. -/
theorem test_wf_refuses_2 : ([
    .sltu 128 0 0 0 0, .mul 128 0 0 0 0, .mulh 128 0 0 0 0, .mulhu 128 0 0 0 0, .div 128 0 0 0 0, .divu 128 0 0 0 0,
    .rem 128 0 0 0 0, .remu 128 0 0 0 0, .min 128 0 0 0 0, .max 128 0 0 0 0, .clz 128 0 0 0 0, .popc 128 0 0 0 0,
    .addi 128 0 0 0, .andi 128 0 0 0, .ori 128 0 0 0, .xori 128 0 0 0, .slti 128 0 0 0, .lui 128 0 0 0, .lw 128 0 0 0,
    .lh 128 0 0 0, .lhu 128 0 0 0, .lb 128 0 0 0, .lbu 128 0 0 0, .sw 128 0 0 0, .sh 128 0 0 0, .sb 128 0 0 0, .beq 128 0 0 0,
    .bne 128 0 0 0, .blt 128 0 0 0, .bge 128 0 0 0, .bltu 128 0 0 0, .bgeu 128 0 0 0, .jal 128 0 0, .jalr 128 0 0 0,
    .vld 128 0 0 0, .vst 128 0 0 0, .vlde 128 0 0 0, .vste 128 0 0 0, .vcvt 128 0 0 0 0 0 0 0, .scvt 128 0 0 0 0 0 0,
    .shi 128 0 0 0, .vget 128 0 0 0, .vadd 128 0 0 0 0 0, .vsub 128 0 0 0 0 0, .vmul 128 0 0 0 0 0, .vmin 128 0 0 0 0 0,
    .vmax 128 0 0 0 0 0, .vand 128 0 0 0 0 0, .vor 128 0 0 0 0 0, .vxor 128 0 0 0 0 0, .vsll 128 0 0 0 0 0, .vsrl 128 0 0 0 0 0,
    .vsra 128 0 0 0 0 0, .vabs 128 0 0 0 0 0, .vfadd 128 0 0 0 0 0, .vfsub 128 0 0 0 0 0, .vfmul 128 0 0 0 0 0,
    .vfma 128 0 0 0 0 0, .vfmin 128 0 0 0 0 0, .vfmax 128 0 0 0 0 0] : List Instr).all (fun c => !c.wf) = true := by decide

/-- One ill-formed command for each check of `Instr.wf`, part 3. -/
theorem test_wf_refuses_3 : ([
    .vfdiv 128 0 0 0 0 0, .vfsqrt 128 0 0 0 0 0, .vfscl 128 0 0 0 0 0, .vfabs 128 0 0 0 0 0, .vcmpeq 128 0 0 0 0 0,
    .vcmplt 128 0 0 0 0 0, .vcmple 128 0 0 0 0 0, .vfcmpeq 128 0 0 0 0 0, .vfcmplt 128 0 0 0 0 0, .vfcmple 128 0 0 0 0 0,
    .vsel 128 0 0 0 0 0, .vbcst 128 0 0 0 0 0, .vpmask 128 0 0 0 0 0, .vrsum 128 0 0 0 0 0, .vrmax 128 0 0 0 0 0,
    .vrmin 128 0 0 0 0 0, .vfrsum 128 0 0 0 0 0, .vfrmax 128 0 0 0 0 0, .vfrmin 128 0 0 0 0 0, .vperm 128 0 0 0 0 0,
    .vrot 128 0 0 0 0 0, .qwait 128 0 0 0, .qpop 128 0 0 0 0, .qpush 128 0 0 0, .qcnt 128 0 0 0, .enqe 128 0 0 0,
    .efill 128 0 0 0, .xsub 128 0 0 0, .xlit 128 0 0 0, .tickwait 128 0 0 0, .fence 128 0 0 0, .crd 128 0 0 0, .cwr 128 0 0 0,
    .taskStart 16384 false, .lightComplete ⟨16384, false⟩, .flush 9, .queClr 9, .doorbell 9 0 0 [], .doorbell 0 16384 0 [], .xfrClrMax 9,
    .promote 9 0, .promote 0 8, .rollback 9 0, .rollback 0 8, .discard 9 0, .discard 0 8, .checkpoint 9 0, .checkpoint 0 8,
    .restore 9 0, .restore 0 8, .marginWrite 9 0 0 0, .marginWrite 0 8 0 0, .checkpointCommit 8 false, .resultCommit 8 0,
    .gpioPulseEnd 8 0, .actRequest 8, .actionTableWrite 9 0 0 0 0, .actionTableWrite 0 256 0 0 0, .actionTableWrite 0 0 7 0 0,
    .sealToken 8] : List Instr).all (fun c => !c.wf) = true := by decide

/-- One ill-formed command for each check of `Instr.wf`, part 4. -/
theorem test_wf_refuses_4 : ([
    .publicationDeadline 8, .editionPublish 8, .remirror 9 0, .remirror 0 8, .outClr 9 0, .outClr 0 8, .recordIn ⟨16384, false⟩,
    .assignmentWrite 9 0 0 0, .assignmentWrite 0 67108864 0 0, .assignmentWrite 0 2 0 0, .loadSrcWrite 9 0 0 0,
    .loadSrcWrite 0 8 0 0, .insLoad 9 0 [], .insLoad 0 8 [], .loadComplete 8, .insRelease 9 0, .insRelease 0 8,
    .releaseStep 8 0, .insReset 9 0, .insReset 0 8, .functionLevelReset 0, .functionLevelReset 9, .vfDisable 0, .vfDisable 9,
    .resetDone 8, .insReload 9 0 [], .insReload 0 8 [], .patchCheck 8, .reloadDone 8 1, .reloadDone 0 0, .reloadDone 0 256,
    .engineRepair 9 0, .engineRepair 0 64, .engineCopyStart 64, .engineSwapDone 64, .columnRepair 9 0, .columnRepair 0 64,
    .targetTimeout 8 0, .targetTimeout 0 4, .stoMount 9, .stoClose 9, .stoList 9, .stoRead 9, .stoTrim 9, .stoSync 9,
    .stoWriteBoot 9, .stoFormat 9, .repairFetchDone 8 false, .repairEntry 8 [], .repairWaitExpiry 8, .fltTest 9, .fltRetest 9,
    .testComplete 23 0 false 0, .clrLog 9, .instanceClrLog 9 0, .instanceClrLog 0 8, .logTailWrite 9 0 0 0,
    .logTailWrite 0 9 0 0, .pair 9 0, .leaveCmd 9 0] : List Instr).all (fun c => !c.wf) = true := by decide

/-- One ill-formed command for each check of `Instr.wf`, part 5. -/
theorem test_wf_refuses_5 : ([
    .tandemFrame { lane := 8, start := 0, octets := [], blocks := [] } 0, .cmpWaitExpiry 8 0, .faultWaitExpiry 8 0,
    .gate 92 0, .wake 92 0, .rampStep 92 0, .dividerWrite 9 0 0 0 0, .dividerWrite 0 116 0 0 0, .pllUnlock 10 0,
    .brakeEngage 16 0 0, .brakeRelease 16 0 0, .pwrClrMax 9, .droopWrite 9 0 0, .thermWrite 9 0 0, .registerWrite 9 0 0 0,
    .registerWrite 0 67108864 0 0, .registerWrite 0 2 0 0, .unsupportedRequest 9, .readShadowLatch 9 0,
    .readShadowLatch 0 67108864, .readShadowLatch 0 2, .counterHighWrite 9 0 0 0, .counterHighWrite 0 67108864 0 0,
    .counterHighWrite 0 2 0 0, .counterLowWrite 9 0 0 0, .counterLowWrite 0 67108864 0 0, .counterLowWrite 0 2 0 0,
    .setAlias 9 0 0 0, .setAlias 0 67108864 0 0, .setAlias 0 2 0 0, .clearAlias 9 0 0 0, .clearAlias 0 67108864 0 0,
    .clearAlias 0 2 0 0, .toggleAlias 9 0 0 0, .toggleAlias 0 67108864 0 0, .toggleAlias 0 2 0 0,
    .parityFault (0x4010 * 0x4000000), .parityFault 2, .parityInject 9 0, .dbgMemRead 9, .dbgMemWrite 9, .probeArm 9 0 0 0,
    .probeArm 0 4 0 0, .vfEnable 9, .bankRemapCopyDone 4 0, .bankRemapCopyDone 0 512, .outletSegmentSent 8, .prbsBitError 32,
    .probeWindowEdge 4 0, .msiXUnmask 9 0, .msiXUnmask 0 256] : List Instr).all (fun c => !c.wf) = true := by decide

/-! ### Worked examples of the spec -/

/-- 04_number_formats.md, the FP32 value narrowed to FP8 E4M3: RTZ, and SR with three draws. -/
theorem test_narrow_E4M3 :
    encodeElem fmtE4M3 0 (f32 0x3E99999A) none = 0x29 ∧ encodeElem fmtE4M3 0 (f32 0x3E99999A) (some 0x7000) = 0x2A
    ∧ encodeElem fmtE4M3 0 (f32 0x3E99999A) (some 0x6666) = 0x29 ∧ encodeElem fmtE4M3 0 (f32 0x3E99999A) (some 0x6667) = 0x2A := by decide +kernel
/-- 04_number_formats.md, the first draw from state 1, and the seed of core 76. -/
theorem test_generator : draw16 1 = (0xB6F6B6C3, 0xDB6D) ∧ lfsrSeed 0x5A170C03 76 = 0xCCB890A6 := by decide +kernel
/-- 04_number_formats.md, sums narrowed to INT8 with a right shift of 3. -/
theorem test_narrow_INT8 : ([-1003, 1003, 1100, -1100] : List Int).map (fun x =>
      encodeElem fmtINT8 0 (scaleVal (-3) (f32 (toF32 (decodeElem fmtINT32 0 (BitVec.ofInt 32 x).toNat)))) none)
    = [intCode 8 (-125), 125, 127, intCode 8 (-128)] := by decide +kernel
/-- 05_quantisation_and_scaling.md, one output element: column 0 of engine 0's slot 0, and its row's largest element. -/
theorem test_output_element :
    let s : State := { State.reset with mem := [(memAddr .weight 0 0, 0xCD), (memAddr .weight 0 1, 0xCC), (memAddr .weight 0 2, 0xCC),
      (memAddr .weight 0 3, 0x3D), (memAddr .weight 0 4, 0xA0), (memAddr .weight 0 5, 0x3F), (memAddr .weight 0 6, 0x79), (memAddr .weight 0 7, 0xFF)] }
    let d : Descr := { words := [BitVec.ofNat 64 (fmtINT8 * 2 ^ 30), 0, 0b1100, 0], seq := 0, core := 0, line := 0 }
    let x := s.epiElem 0 d true 0x7A 0 5499
    x = 0x405D3466 ∧ d.requant 0x7B x = 55 ∧ dynExp [x, 0x40BCCCCD] fmtINT8 0 0 = 0x7B ∧ d.requant 0x7B 0x40BCCCCD = 94
    ∧ d.requant 0x7B 0x403F5C29 = 48 := by decide +kernel
/-- 15_tandem.md, a takeover: a TICK that arrives at 180 ns is delivered at 500 ns. -/
theorem test_follower_tick :
    let s : State := { (State.reset.wr Reg.TDM_LINK_NS 180) with tdm := { st := 2, role := 2, inbox := [1 :: List.replicate 63 0] } }
    (match exec (.tdmTick 180) s with | .next u => u.cad.due.map (·.at_) | _ => []) = [500] := by decide +kernel

/-! ### Witnesses: steps, registers, cadence, inlet -/

/-- Reset with one register stored. -/
def with_ (a : Nat) (v : Word) : State := State.reset.wr a v
/-- Reset with instance i. -/
def inst_ (i : Nat) (x : Inst) : State := State.reset.setInst i x

theorem reset_inst (j : Nat) : State.reset.inst j = {} := rfl
theorem inst_other {i j : Nat} (x : Inst) (h : j ≠ i) : (inst_ i x).inst j = {} := State.inst_setInst_ne _ h x

theorem witness_RegisterAndEventLaws : Reg.CAD_EVT ≠ Reg.HIF_MSG_DROP := by decide

theorem witness_CanonicalKept : Memory.wf State.reset = true ∧ Regs.wf State.reset = true ∧ step State.reset = .next State.reset :=
  ⟨by decide, by decide, rfl⟩

/-- A pulse that began at 0, with its tick due at 40 ns. -/
def pulsed (tick sheet : BitVec 2) (wide : Bool) : State :=
  { State.reset with cad := { pulse := some 0, tickSrc := tick, sheetSrc := sheet, wide := wide
                              due := [{ at_ := 40, src := 0, mark := false, edge := some 0 }] } }
/-- A pulse that began at 0, whose tick has been delivered to instance 7 only before. -/
def taken : State :=
  { inst_ 7 { st := .running, lastAccepted := some 1 } with cad := { pulse := some 0, tickEdge := some 0, lastTick := some 40 } }

theorem witness_CadencePulses :
    ((pulsed 0 0 false).dom 109).stopped = false ∧ (pulsed 0 0 false).cad.pulse = some 0
    ∧ true ≠ (pulsed 0 0 false).bit Reg.CAD_CTRL 2 ∧ false ≠ (with_ Reg.CAD_CTRL 4).bit Reg.CAD_CTRL 2
    ∧ (taken.dom 109).stopped = false ∧ taken.cad.pulse = some 0 ∧ taken.cad.tickEdge = some 0 ∧ taken.cad.tickSrc = 0
    ∧ taken.cad.sheetSrc = 0 ∧ taken.cad.wide = false ∧ 0 + taken.fld Reg.CAD_SHEET_WIDTH 15 0 ≤ (taken.at_ 200).now
    ∧ (∀ n, n < 8 → (taken.inst n).live = true → (taken.inst n).lastAccepted ≠ taken.cad.lastTick)
    ∧ ((pulsed 0 0 false).at_ 199).now < 0 + (pulsed 0 0 false).fld Reg.CAD_SHEET_WIDTH 15 0
    ∧ (pulsed 0 1 false).cad.sheetSrc ≠ 0 ∧ (pulsed 0 0 true).cad.wide = true
    ∧ 0 + (pulsed 1 0 false).fld Reg.CAD_SHEET_WIDTH 15 0 ≤ ((pulsed 1 0 false).at_ 200).now ∧ (pulsed 1 0 false).cad.tickSrc ≠ 0
    ∧ (pulsed 0 0 false).cad.tickSrc = 0 ∧ (pulsed 0 0 false).cad.tickEdge ≠ some 0
    ∧ ((pulsed 0 0 false).at_ 9).now < 0 + 10 ∧ 0 + 10 ≤ ((pulsed 0 0 false).at_ 10).now := by decide

theorem witness_CadenceRegisterWrites :
    State.reset.direct 0 Reg.CAD_PERIOD ∧ 0x3FFFFF &&& beMask 0xF ≠ 0
    ∧ (let nv (v : Word) := merge (State.reset.rd Reg.CAD_PERIOD) v (0x3FFFFF &&& beMask 0xF)
       1000 ≤ bits (nv 1000) 21 0 ∧ bits (nv 4096000) 21 0 ≤ 4096000 ∧ bits (nv 999) 21 0 < 1000 ∧ 4096000 < bits (nv 4096001) 21 0)
    ∧ State.reset.direct 0 (Reg.CAD_I_EMPTY_LIMIT 7) ∧ 0xFFFF &&& beMask 1 ≠ 0
    ∧ bits (merge (State.reset.rd (Reg.CAD_I_EMPTY_LIMIT 7)) 1 (0xFFFF &&& beMask 0xF)) 15 0 ≠ 0
    ∧ bits (merge (State.reset.rd (Reg.CAD_I_EMPTY_LIMIT 7)) 0 (0xFFFF &&& beMask 0xF)) 15 0 = 0
    ∧ State.reset.direct 0 Reg.CAD_CMD := by unfold State.direct; decide

/-- A running cadence of a tick source, with CAD_CTRL `v`. -/
def running (v : Word) (src : BitVec 2) : State :=
  { with_ Reg.CAD_CTRL v with cad := { tickSrc := src, due := [{ at_ := 40, src := src.toNat, mark := false }] } }

theorem witness_SourceSwitch :
    let nv (s : State) (v : Word) := merge (s.rd Reg.CAD_CTRL) v (0xF7 &&& beMask 0xF)
    let off := running 0 0
    let on := running 1 0
    let fr := running 1 3
    off.direct 0 Reg.CAD_CTRL ∧ 0xF7 &&& beMask 0xF ≠ 0
    ∧ bits (on.rd Reg.CAD_CTRL) 7 4 = bits (nv on 0) 7 4 ∧ on.cad.switching = false ∧ (on.rd Reg.CAD_CTRL).getLsbD 0 = true
    ∧ (nv off 2).getLsbD 0 = false
    ∧ bits (on.rd Reg.CAD_CTRL) 7 4 ≠ bits (nv on 0x11) 7 4 ∧ (nv on 0x11).getLsbD 0 = true ∧ on.cad.tickSrc ≠ 3
    ∧ bits (off.rd Reg.CAD_CTRL) 7 4 ≠ bits (nv off 0x10) 7 4 ∧ (off.rd Reg.CAD_CTRL).getLsbD 0 = (nv off 0x10).getLsbD 0
    ∧ bits (fr.rd Reg.CAD_CTRL) 7 4 ≠ bits (nv fr 0x11) 7 4 ∧ (fr.rd Reg.CAD_CTRL).getLsbD 0 = (nv fr 0x11).getLsbD 0
    ∧ fr.cad.tickSrc = 3 ∧ (off.rd Reg.CAD_CTRL).getLsbD 0 = false ∧ (nv off 1).getLsbD 0 = true := by unfold State.direct; decide

theorem witness_TickDelivered :
    (running 1 0).alone ∧ ((running 1 0).dom 109).stopped = false ∧ (running 1 0).cad.frames = []
    ∧ (∀ n, ((running 1 0).inst n).live = false)
    ∧ (running 1 0).bit Reg.CAD_CTRL 0 = true
    ∧ ((running 1 0).at_ 40).cad.dueNow ((running 1 0).at_ 40).now = some { at_ := 40, src := 0, mark := false }
    ∧ (running 1 0).direct 0 Reg.CAD_CMD ∧ (running 0 0).bit Reg.CAD_CTRL 0 = false :=
  ⟨by unfold State.alone; decide, by decide, rfl, fun _ => rfl, by decide, by decide, by unfold State.direct; decide, by decide⟩

/-- As `running`, with instance 7 running, whose last accepted tick was at 0, and CAD_I_PMIN at 41. -/
def early : State := ((running 1 0).wr (Reg.CAD_I_PMIN 7) 41).setInst 7 { st := .running, lastAccepted := some 0 }

theorem witness_EarlyTick :
    early.alone ∧ (early.dom 109).stopped = false ∧ early.cad.frames = [] ∧ (early.inst 7).live = true ∧ (∀ j, j ≠ 7 → (early.inst j).live = false)
    ∧ ((early.inst 7).lastAccepted = some 0 ∧ (early.at_ 40).now < 0 + early.fld (Reg.CAD_I_PMIN 7) 21 0)
    ∧ early.bit Reg.CAD_CTRL 0 = true
    ∧ (early.at_ 40).cad.dueNow (early.at_ 40).now = some { at_ := 40, src := 0, mark := false } ∧ early.cad.sheetSrc = 0 :=
  ⟨by unfold State.alone; decide, by decide, rfl, by decide,
   fun j h => by rw [early, State.inst_setInst_ne _ h]; rfl, by decide, by decide, by decide, by decide⟩

theorem witness_TickWatchAndOutput :
    let s := State.reset
    let o := { s with cad := { outAt := [(100, true)] } }
    let l := { s with cad := { outLevel := true, outEnd := 150 } }
    (s.dom 109).stopped = false ∧ s.fld Reg.CAD_TIMEOUT 22 0 ≠ 0 ∧ s.cad.silentLogged = false
    ∧ s.cad.silentFrom + 1000 * s.fld Reg.CAD_TIMEOUT 22 0 ≤ (s.at_ 10000000).now
    ∧ (s.at_ 9999999).now < s.cad.silentFrom + 1000 * s.fld Reg.CAD_TIMEOUT 22 0
    ∧ (with_ Reg.CAD_TIMEOUT 0).fld Reg.CAD_TIMEOUT 22 0 = 0
    ∧ ({ s with flt := { down := true } } : State).flt.down = true ∧ o.flt.down = false ∧ o.cad.outAt = (100, true) :: [] ∧ 100 ≤ (o.at_ 100).now ∧ o.cad.outLevel = false
    ∧ l.cad.outAt = [] ∧ l.cad.outLevel = true ∧ l.cad.outEnd ≤ (l.at_ 150).now := by decide

/-- Lane 31 enabled and locked. -/
def lane31 : State := (with_ Reg.INL_LANE_EN 0x80000000).wr Reg.INL_LANE_LOCK 0x80000000

theorem witness_LaneCommands :
    lane31.lanePcs 31 = true ∧ lane31.bit Reg.INL_LANE_LOCK 31 = true ∧ lane31.bit Reg.INL_LANE_HIBER 31 = false
    ∧ (lane31.wr Reg.FLT_CTRL 0).lanePcs 31 = true ∧ (lane31.wr Reg.FLT_CTRL 0).bit Reg.FLT_CTRL 1 = false
    ∧ (lane31.wr Reg.INL_CTRL 2).bit Reg.INL_CTRL 1 = true
    ∧ lane31.direct 0 Reg.INL_LANE_EN ∧ (1 : BitVec 4) ≠ 0 := by unfold State.direct; decide

theorem witness_InletAndTableWrites :
    State.reset.direct 0 Reg.INL_CMD
    ∧ State.reset.direct 0 (Reg.INL_MAP_MATCH 31 + 4 * 3) ∧ 0x1FF &&& beMask 2 ≠ 0 ∧ 0xFFFF &&& beMask 1 ≠ 0
    ∧ State.reset.direct 0 (Reg.ACT_E_MATCH 255 + 4 * 6)
    ∧ (regAt (Reg.ACT_E_MATCH 255 + 4 * 6)).map (fun d => wd d.prv &&& beMask 1 != 0) = some true := by unfold State.direct; decide

/-- A frame of lane 31: one pixel of 8 bits, of line 5, with a trailer over the bytes plus `x`. -/
def frame (h0 : DWord) (x : Word) (octs : List Byte) : Frame :=
  let h1 : DWord := 0x0000000100000000
  let h2 : DWord := 0x0000000100010000
  { lane := 31, start := 0, octets := octs
    blocks := [.data h0, .data h1, .data h2, .data 0xAB, .data ((crc32 (octets [h0, h1, h2, 0xAB]) + x).setWidth 64), .term] }
/-- Header word 0: version 1, line data, stream 3, line 5. -/
def h0good : DWord := 0x1030000000000005
/-- Lane 31 up, stream 3 mapped to instance 7 with one segment of 1 pixel, the instance running at line 5. -/
def inletAt : State :=
  { lane31.setInst 7 { st := .running, curLine := some 5 } with
    inlEn := [(0, true)], mapLive := [(Reg.INL_MAP_MATCH 0, 0x1F3), (Reg.INL_MAP_ROUTE 0, 0x80), (Reg.INL_MAP_SHAPE 0, 0x00010001)] }

theorem witness_FrameJudgement :
    let good := frame h0good 0 startOctets
    let v := (parseFrame good).getD { h0 := 0, h1 := 0, h2 := 0, payload := [], trailer := 0 }
    let w := (parseFrame (frame h0good 1 startOctets)).getD v
    let b := (parseFrame (frame 0x2030000000000005 0 startOctets)).getD v
    inletAt.inlEnabled good.start = true ∧ inletAt.laneUp good.lane = true ∧ SMap.get 0 inletAt.lockAt good.lane ≤ good.start
    ∧ State.reset.laneUp good.lane = false
    ∧ (inletAt.at_ 0).tickOpen (inletAt.at_ 0).now = false ∧ inletAt.cad.frames = []
    ∧ ((inletAt.modCad (fun c => { c with due := [{ at_ := 0, src := 0, mark := false }] })).wr Reg.CAD_CTRL 1).tickOpen 0 = true
    ∧ parseFrame (frame h0good 0 []) = none ∧ parseFrame good = some v
    ∧ w.crc.toNat ≠ bits64 w.trailer 31 0 ∧ v.crc.toNat = bits64 v.trailer 31 0
    ∧ b.crc.toNat = bits64 b.trailer 31 0 ∧ b.headerOk = false
    ∧ v.headerOk = true ∧ v.type = 0 ∧ v.tick = false ∧ lane31.mapFor v.stream = none
    ∧ inletAt.mapFor v.stream = some 0 ∧ v.fits (inletAt.mapEntry 0) = true ∧ (inletAt.mapEntry 0).insts = 2 ^ 7
    ∧ (inletAt.inst 7).st = .running ∧ (inletAt.inst 7).curLine = some 5
    ∧ (v.seq + (inletAt.mapEntry 0).off - 5).toNat ≤ 3 ∧ (inletAt.inst 7).segs = [] := by decide +kernel

/-! ### Witnesses: matrix engines -/

/-- A scale region in slot 1 of the weight SRAM of physical engine `p`: four groups, no codebook column. -/
def regionOf (p : Nat) : List Host.Cell :=
  let a := memAddr .weight p 4096
  (a + 7, 0xFF) :: (a + 8, 4) :: (List.range 63).map (fun j => (a + 16 * j + 23, 0xFF))

/-- Command `seq` of class `cls`, from core 3. -/
def descr (cls act wt out init epi w : Nat) : Descr :=
  { words := [BitVec.ofNat 64 (cls * 2 ^ 60 + act * 2 ^ 40 + wt * 2 ^ 35 + out * 2 ^ 30 + init * 2 ^ 28 + epi * 2 ^ 26 + w * 2 ^ 24),
              0, BitVec.ofNat 64 (2 ^ 31), 0], seq := 0, core := 3, line := 9 }

/-- Engine 63 belongs to instance 7 and holds the commands `ds`; row tag 0 is valid in the format of the first. -/
def eng (ds : List Descr) : State :=
  let t : RowTag := { base := 0, px := 1, chans := 64, pitch := 64, valid := true, fmt := BitVec.ofNat 5 ((ds.map Descr.actFmt).headD 0) }
  { (with_ (Reg.INS_I_ENGINES_HI 7) 0x80000000).setEngine 63 { queue := ds, entered := ds.length, tags := [(0, t)] } with
    mem := regionOf 63 }

/-- The hypotheses about the head command of EngineComputing. -/
def computes (d : Descr) : Bool :=
  let s := eng [d]
  decide (s.engOwner 63 = some 7) && decide ((s.engine 63).queue = [d]) && !(s.engine 63).stopped && (s.engine 63).swap == 0
    && (s.engine 63).epis.isEmpty && (s.engine 63).fills.isEmpty
    && d.tags.all (fun t => (SMap.get {} (s.engine 63).tags t).valid) && decide (s.engCause (s.engPhys 63) (s.engine 63) d false = none)
    && (d.accInit == 0 || d.accInit == 3) && !d.notify && (engMode d.actFmt d.wtFmt).isSome

theorem witness_EngineComputing :
    computes (descr 2 fmtINT8 fmtINT8 fmtINT8 0 1 0) = true ∧ computes (descr 3 fmtINT4 fmtINT4 0 0 0 0) = true
    ∧ computes (descr 4 fmtE4M3 fmtE5M2 0 3 0 3) = true ∧ computes (descr 7 fmtE5M2 fmtINT8 fmtE5M2 3 0 0) = true
    ∧ computes (descr 2 fmtBF16 fmtBF16 fmtBF16 0 1 0) = true
    ∧ computes { descr 7 fmtE5M2 fmtE5M2 fmtE5M2 3 0 0 with
        words := (descr 7 fmtE5M2 fmtE5M2 fmtE5M2 3 0 0).words.take 2 ++ [BitVec.ofNat 64 (2 ^ 31 + 2), 0] } = true
    ∧ (eng [descr 2 fmtINT8 fmtINT8 fmtINT8 0 1 0]).clean := by
  refine ⟨by decide +kernel, by decide +kernel, by decide +kernel, by decide +kernel, by decide +kernel, by decide +kernel, ?_⟩
  unfold State.clean
  decide +kernel

theorem witness_EngineAccumulation :
    let d := descr 2 fmtINT8 fmtINT8 0 0 0 0
    let s := eng [d]
    let st := s.stepAt 63 0 0
    d.cls ≠ 4 ∧ ¬(d.cls = 7 ∧ d.form = 1) ∧ ∀ r ∈ [0, 63], s.groupShift 63 d ((0 * d.blockRows + r) / d.group) 63 = some ((0 : Nat) : Int) := by decide +kernel

/-- Window 5 of instance 7: entry 0, die 3, 64 KiB from byte 0, access 7. -/
def window5 (s : State) : State :=
  ((s.wr (Reg.INS_W_MATCH 0) 0x87000005).wr (Reg.INS_W_PLACE 0) 0xC0000001).wr (Reg.INS_W_ACCESS 0) 7
/-- Queue q of instance 7 with local id `l`, of kind and log2 depth, one task at a time and 1,024 bytes each. -/
def queue7 (s : State) (q l kind n : Nat) (es : List Entry) : State :=
  s.setQueue q { cfg := BitVec.ofNat 32 (kind * 2 ^ 28 + n * 2 ^ 16), assign := 0x87000000, cap := 1, maxb := 1024, localId := some l
                 entries := es, wr := es.length }

/-- A command whose words 1 to 3 are given. -/
def bare (cls : Nat) (w1 w2 w3 : DWord) : Descr :=
  { words := [BitVec.ofNat 64 (cls * 2 ^ 60), w1, w2, w3], seq := 0, core := 3, line := 9 }

/-- LOADW of 64 bytes from the last 64 of window 5 to the last 64 of the weight SRAM, through local queue 2. -/
def loadAt : Descr := bare 1 (BitVec.ofNat 64 (5 * 2 ^ 58 + 0xFFC0 * 2 ^ 31 + 2 * 2 ^ 17)) (BitVec.ofNat 64 (0xFFFC0 * 2 ^ 44)) 0

theorem witness_EngineLoads :
    let c := bare 6 (BitVec.ofNat 64 (0xFF * 2 ^ 56 + 7 * 2 ^ 53)) 1 2
    let r := bare 8 (BitVec.ofNat 64 (0xFFF00 * 2 ^ 44)) 0 0
    let s := queue7 (window5 (eng [loadAt])) 12288 2 qTask 4 []
    (eng [c]).clean ∧ (eng [c]).engAt 63 7 c [] ∧ c.notify = false ∧ c.word0Bare = true ∧ c.cls = 6 ∧ bits64 (c.w 1) 52 0 = 0
    ∧ (eng [r]).engAt 63 7 r [] ∧ r.notify = false ∧ r.word0Bare = true ∧ r.cls = 8 ∧ bits64 (r.w 1) 31 0 = 0 ∧ r.w 2 = 0 ∧ r.w 3 = 0
    ∧ bits64 (r.w 1) 63 44 % 256 = 0 ∧ bits64 (r.w 1) 63 44 + 256 * (bits64 (r.w 1) 43 32 + 1) ≤ 0x100000
    ∧ s.clean ∧ s.engAt 63 7 loadAt [] ∧ loadAt.notify = false ∧ loadAt.word0Bare = true ∧ loadAt.cls = 1
    ∧ bits64 (loadAt.w 1) 16 0 = 0 ∧ bits64 (loadAt.w 2) 29 0 = 0 ∧ loadAt.w 3 = 0
    ∧ bits64 (loadAt.w 1) 57 31 = 0xFFC0 ∧ bits64 (loadAt.w 2) 63 44 = 0xFFFC0 ∧ bits64 (loadAt.w 2) 43 30 = 0
    ∧ s.localQueue 7 (bits64 (loadAt.w 1) 30 17) = some 12288 ∧ 64 ≤ (s.queue 12288).maxb.toNat ∧ s.mayStart 12288 = true
    ∧ s.window 7 (bits64 (loadAt.w 1) 63 58)
        = some { valid := true, owner := 7, id := 5, die := 3, base := 0, size := 0x10000, access := 7 }
    ∧ 0xFFC0 + 64 ≤ 0x10000 ∧ (7 : Nat).testBit 0 = true
    ∧ (s.copyMem (memAddr .bulk 3 0xFFC0) (memAddr .weight 63 0xFFFC0) 64).regionsOk 63 0xFFFC0 64 = true
    ∧ ((s.modQueue 12288 (fun x => { x with maxb := 63 })).queue 12288).maxb.toNat < 64 := by
  unfold State.clean State.engAt
  decide +kernel

theorem witness_EngineLoads_region :
    let b := bare 1 (loadAt.w 1) (BitVec.ofNat 64 (4096 * 2 ^ 44)) 0
    let bad := (queue7 (window5 (eng [b])) 12288 2 qTask 4 []).modEngine 63 (fun g => { g with scaleSlots := [1] })
    bad.clean ∧ bad.engAt 63 7 b [] ∧ b.notify = false ∧ b.word0Bare = true ∧ bits64 (b.w 2) 63 44 = 4096
    ∧ bad.localQueue 7 (bits64 (b.w 1) 30 17) = some 12288
    ∧ (bad.copyMem (memAddr .bulk 3 0xFFC0) (memAddr .weight 63 4096) 64).regionsOk 63 4096 64 = false := by
  unfold State.clean State.engAt
  decide +kernel

/-- A stage of engines, columns and cores, all of them. -/
def stage1 : StageDesc :=
  { id := 1, adaptable := false, paged := false, chained := true, output := false, crop := false, depth := 0, rate := 1, phase := 0
    offset := 0, epochMode := 0, padRule := 0, padConst := 0, workCycles := 1, engines := 2 ^ 64 - 1, columns := 2 ^ 64 - 1
    cores := 2 ^ 128 - 1, edges := [] }
/-- An image of that stage. -/
def image1 : Image :=
  { imageId := 1, tileDiv := 0, engines := 0, columns := 0, cores := 0, tags := 0, recordMib := 0, windows := [], queues := []
    allowances := [], stages := [stage1], programs := [], weights := [], addrProgs := [], keepEngines := 0, keepTiles := 0
    keepCores := 0, pmin := 1000, brake := 0, floor := 0, m := 0, repairs := [], plan := none }
/-- Instance 7 running that image, with 5 accepted ticks behind it. -/
def inst7 (s : State) : State :=
  s.setInst 7 { st := .running, image := some image1, ticks := 5
                stages := [{ id := 1, st := .running, starts := 5, lastLine := 40 }] }

/-- Engines 62 and 63 of instance 7; 62 holds a CHAIN and `bodies`, whose tags are valid when `ok`. -/
def chained (ok : Bool) (bodies : List Descr) : State :=
  let t : RowTag := { px := 1, chans := 64, pitch := 64, valid := ok, fmt := 7 }
  let s := inst7 ((eng []).wr (Reg.INS_I_ENGINES_HI 7) 0xC0000000)
  { (s.setEngine 62 { queue := bare 5 (1 <<< 62) 0 0 :: bodies, entered := 3, tags := [(0, t)] }).setEngine 63 { tags := [(0, t)] } with
    mem := regionOf 62 ++ regionOf 63 }

theorem witness_EngineWaitsAndChain :
    let d := descr 2 fmtINT8 fmtINT8 fmtINT8 0 0 0
    let s := (eng [d]).modEngine 63 (fun g => { g with tags := [] })
    let c := bare 5 (1 <<< 62) 0 0
    let x := chained true [d, d]
    let full := x.modEngine 63 (fun g => { g with queue := List.replicate 32 d })
    let y := chained true [d]
    let sent (s : State) := s.sendBodies 62 c [d, d] [62, 63]
    let behind := (x.modEngine 63 (fun g => { g with queue := [d] }))
    s.engAt 63 7 d [] ∧ (∃ t ∈ d.tags, (SMap.get {} (s.engine 63).tags t).valid = false)
    ∧ x.engAt 62 7 c [d, d] ∧ c.cls = 5 ∧ c.word0Bare = true ∧ bits64 (c.w 1) 61 0 = 0 ∧ c.w 2 = 0 ∧ c.w 3 = 0 ∧ c.sent = false
    ∧ bits64 (c.w 1) 63 62 + 1 = 2 ∧ x.chainMembers 62 2 = [62, 63] ∧ (∀ m ∈ [63], (x.engine m).takesBody = true)
    ∧ y.engAt 62 7 c [d] ∧ [d].length < 2 ∧ full.engAt 62 7 c [d, d] ∧ (∃ m ∈ [63], (full.engine m).takesBody = false)
    ∧ (sent x).chainWaits 62 c ((sent x).sentBodies 62 c [62, 63]) = false ∧ ((sent x).sentBodies 62 c [62, 63]).length = 2
    ∧ (sent x).engAt 62 7 { c with sent := true } [d]
    ∧ (sent behind).chainWaits 62 c ((sent behind).sentBodies 62 c [62, 63]) = true
    := by
  unfold State.engAt
  decide +kernel

theorem witness_EngineWaitsAndChain_sums :
    let d := descr 2 fmtINT8 fmtINT8 fmtINT8 0 0 0
    let c := bare 5 (1 <<< 62) 0 0
    let x := chained true [d, d]
    x.engAt 62 7 c [d, d] ∧ (x.clean ∧ c.notify = false ∧ x.engOwner 63 = some 7 ∧ x.engPhys 62 ≠ x.engPhys 63 ∧ x.engPhys 63 < 68)
    ∧ (x.engine 63).queue = [] ∧ (x.engine 63).stopped = false ∧ (x.engine 63).swap = 0 ∧ (x.engine 63).epis = []
    ∧ (x.engine 63).fills = [] ∧ (∀ e ∈ [62, 63], ∀ t ∈ d.tags, (SMap.get {} (x.engine e).tags t).valid = true)
    ∧ x.engCause 62 (x.engine 62) d true = none ∧ x.engCause 63 (x.engine 63) d true = none
    ∧ bodyOk [d, d] 0 = true ∧ bodyOk [d, d] 1 = true ∧ d.epi = 0 ∧ d.accInit = 0 ∧ (engMode d.actFmt d.wtFmt).isSome = true := by
  unfold State.engAt State.clean
  decide +kernel

/-- A row of the last pixel that fits: one channel of INT8 in window 5, at its last 64 bytes. -/
def fillAt : Fill :=
  { words := [BitVec.ofNat 64 (7 * 2 ^ 55), BitVec.ofNat 64 (1 * 2 ^ 32 + 5 * 2 ^ 24 + 0x3FF),
              BitVec.ofNat 64 (31 * 2 ^ 59 + 0x1FFF0 * 2 ^ 42 + 16 * 2 ^ 32 + 1), 2], after := 0, core := 3 }
/-- A data token's epilogue for local queue 2. -/
def epiAt : Epi :=
  let d := descr 2 fmtINT8 fmtINT8 fmtINT8 0 1 0
  { d := { d with words := d.words.take 3 ++ [BitVec.ofNat 64 (2 * 2 ^ 39)] }, eBase := 0, tainted := false, flags := 0 }

theorem witness_EpilogueAndFill :
    let s := queue7 ((eng []).modEngine 63 (fun g => { g with epis := [epiAt] })) 12287 2 qToken 4 []
    let l := inst7 s
    let u := queue7 (window5 ((eng []).modEngine 63 (fun g => { g with fills := [fillAt] }))) 12288 2 qTask 4 []
    let v := (inst7 (eng [])).modEngine 63 (fun g => { g with fills := [{ fillAt with words := [fillAt.words.getD 0 0,
      BitVec.ofNat 64 (1 * 2 ^ 32 + 0xFF * 2 ^ 24), fillAt.words.getD 2 0, fillAt.words.getD 3 0] }] })
    let t := fillAt.token
    s.clean ∧ s.engOwner 63 = some 7 ∧ (s.engine 63).epis = [epiAt] ∧ epiAt.d.notify = false
    ∧ s.localQueue 7 epiAt.d.outQueue = some 12287
    ∧ (s.queue 12287).qkind = qToken ∧ (s.queue 12287).full = false ∧ s.stoppedReader 12287 = none
    ∧ (s.inst 7).live = false ∧ l.clean ∧ (l.engine 63).epis = [epiAt] ∧ (l.inst 7).live = true ∧ l.engOwner 63 = some 7
    ∧ l.localQueue 7 epiAt.d.outQueue = some 12287 ∧ l.stoppedReader 12287 = none
    ∧ u.clean ∧ u.engOwner 63 = some 7 ∧ (u.engine 63).fills = [fillAt] ∧ (u.engine 63).fillHeld fillAt = false
    ∧ (u.engine 63).stopped = false ∧ (u.engine 63).swap = 0 ∧ fillAt.ok = true
    ∧ t.window ≠ 0xFF ∧ t.zc = false ∧ fillAt.pxBits % 8 = 0 ∧ fillAt.pxBits / 8 ≤ fillAt.pitch
    ∧ fillAt.base + fillAt.pxCount * fillAt.pitch ≤ 0x20000 ∧ u.localQueue 7 fillAt.queue = some 12288
    ∧ ceilDiv (fillAt.pxCount * fillAt.pxBits) 8 ≤ (u.queue 12288).maxb.toNat ∧ u.mayStart 12288 = true
    ∧ u.window 7 t.window = some { valid := true, owner := 7, id := 5, die := 3, base := 0, size := 0x10000, access := 7 }
    ∧ (7 : Nat).testBit 0 = true
    ∧ (u.rowBytes 7 ((u.inst 7).stageOfEngine 63) t.window t.offset fillAt.maxBytes).isSome = true
    ∧ v.clean ∧ (∀ f ∈ (v.engine 63).fills, f.token.window = 0xFF ∧ f.ok = true ∧ (v.engine 63).fillHeld f = false
        ∧ stage1.tiles.isEmpty = false ∧ ((v.inst 7).stageOfEngine 63) = some stage1) := by
  unfold State.clean
  decide +kernel

/-- Reset with every scrubber on, and one flipped bit in word `w` when given. -/
def scrub (w : Option Nat) : State :=
  { (((State.reset.wr Reg.ENG_CTRL 1).wr Reg.TIL_CTRL 1).wr Reg.SVC_CTRL 1).wr Reg.FLT_CTRL 1 with
    upsets := w.toList.map (fun a => (a, 1)) }

/-- The single flipped bit lies in the stretch that the scrubber of the memory at `lo` goes through next. -/
def scrubHit (s : State) (w lo size rate : Nat) (on : Bool) : Bool :=
  on && decide (s.upsets = [(w, 1)]) && decide (lo ≤ w) && decide (w < lo + min rate size) && SMap.get 0 s.flt.scrubAt lo == 0

theorem witness_Scrubbers :
    let s := scrub none
    let at_ (lo : Nat) : State := scrub (some lo)
    let hit (lo size : Nat) (rate : State → Nat) (on : State → Bool) : Bool := scrubHit (at_ lo) lo lo size (rate (at_ lo)) (on (at_ lo))
    let off : State := ((scrub none).wr Reg.ENG_CTRL 0).wr Reg.FLT_CTRL 0
    off.bit Reg.ENG_CTRL 0 = false ∧ (off.wr Reg.TIL_CTRL 0).bit Reg.TIL_CTRL 0 = false
    ∧ (off.wr Reg.SVC_CTRL 0).bit Reg.SVC_CTRL 0 = false ∧ off.bit Reg.FLT_CTRL 0 = false
    ∧ s.bit Reg.ENG_CTRL 0 = true ∧ s.bit Reg.TIL_CTRL 0 = true ∧ s.bit Reg.SVC_CTRL 0 = true ∧ s.bit Reg.FLT_CTRL 0 = true
    ∧ s.upsets = []
    ∧ hit (memAddr .weight 67 0) 0x100000 (fun s => 256 * s.fld Reg.ENG_SCRUB_RATE 11 0) (fun s => s.bit Reg.ENG_CTRL 0) = true
    ∧ hit (memAddr .tile 65 (0x4000 * 31)) 0x4000 (fun s => 16 * s.fld Reg.TIL_SCRUB_RATE 9 0) (fun s => s.bit Reg.TIL_CTRL 0) = true
    ∧ hit (memAddr .core 127 0) 0x20000 (fun s => 64 * s.fld Reg.SVC_SCRUB_RATE 9 0) (fun s => s.bit Reg.SVC_CTRL 0) = true
    ∧ hit (memAddr .bulk 3 0) 0x6000000 (fun s => 64 * s.fld Reg.FLT_BULK_SCRUB 11 0) (fun s => s.bit Reg.FLT_CTRL 0) = true
    ∧ hit (memAddr .commit 0 0) 0x800000 (fun s => 64 * s.fld Reg.FLT_BULK_SCRUB 11 0) (fun s => s.bit Reg.FLT_CTRL 0) = true
    ∧ ({ s with upsets := [(memAddr .core 127 0, 2)] } : State).upsets = [(memAddr .core 127 0, 2)] ∧ memAddr .core 127 0 % 8 = 0 := by
  decide +kernel

/-! ### Witnesses: service cores -/

/-- Core 127 of instance 7, which runs `image1`; register s1 holds v; 8 transfer tags. -/
def core_ (v : Word) : State :=
  (inst7 ((with_ (Reg.INS_I_CORES 7 3) 0x80000000).wr (Reg.INS_I_TAGS 7) 8)).setCore 127 { st := .running, s := [(1, v)] }

/-- Address of register s1 plus `imm`. -/
def addr (v : Word) (imm : BitVec 16) : Nat := (((core_ v).core 127).sget 1 + imm.signExtend 32).toNat

/-- The word that instruction `i` is fetched from. -/
def wordOf (i : Instr) : BitVec 32 := ((encodeCore i).getD (0, 0)).2
/-- The same core about to execute `i`. -/
def coreAt (v : Word) (i : Instr) : State := (core_ v).wrBytes (memAddr .core 127 0) (leBytes 4 (wordOf i).toNat)
/-- As `State.ready`, of core 127 at pc 0. -/
def readyB (s : State) (i : Instr) : Bool :=
  (s.core 127).active && (wordsOf (memAddr .core 127 (s.core 127).pc.toNat) 4).all (fun w => decide (SMap.find s.upsets w = none))
    && !s.poisoned (memAddr .core 127 (s.core 127).pc.toNat) 4 && decide (decodeCore 127 (s.fetchWord 127) = some i)
theorem ready_of {s : State} {i : Instr} (h : readyB s i = true) : s.ready 127 i := by
  simpa [readyB, State.ready, State.sound, and_assoc] using h

/-- R188 to R195: words written out field by field, from the most significant bit on. -/
theorem test_words :
    decodeCore 0 (0b000001#6 ++ 0b11111#5 ++ 0b00001#5 ++ 0b00010#5 ++ 0b000#3 ++ 0b00000101#8) = some (.sll 0 31 1 2 0)
    ∧ decodeCore 0 (0b000010#6 ++ 0b00001#5 ++ 0b11111#5 ++ 0b1111111111111111#16) = some (.addi 0 1 31 0xFFFF)
    ∧ decodeCore 0 (0b010101#6 ++ 0b00001#5 ++ 0b00010#5 ++ 0b1000000000000000#16) = some (.bgeu 0 1 2 0x8000)
    ∧ decodeCore 0 (0b010110#6 ++ 0b11110#5 ++ 0b100000000000000000001#21) = some (.jal 0 30 0x100001)
    ∧ decodeCore 0 (0b011000#6 ++ 0b1111#4 ++ 0b0001#4 ++ 0b10000#5 ++ 0b1#1 ++ 0b101#3 ++ 0b000110011#9) = some (.vpmask 0 15 1 16 1 5)
    ∧ decodeCore 0 (0b011101#6 ++ 0b0001#4 ++ 0b0010#4 ++ 0b10000#5 ++ 0b00101#5 ++ 0b1#1 ++ 0b110#3 ++ 0b0000#4)
        = some (.vcvt 0 1 2 16 5 1 6 0)
    ∧ decodeCore 0 (0b100001#6 ++ 0b00001#5 ++ 0b00010#5 ++ 0b10000#5 ++ 0b00101#5 ++ 0b1#1 ++ 0b00000#5) = some (.scvt 0 1 2 16 5 1 0)
    ∧ decodeCore 0 (0b100000#6 ++ 0b11111#5 ++ 0b00100#5 ++ 0b00000000111111#14 ++ 0b00#2) = some (.enqe 0 31 63 0)
    ∧ decodeCore 0 (0b000001#6 ++ 0#18 ++ 0b00010110#8) = none ∧ decodeCore 0 0 = none ∧ decodeCore 0 (0b100010#6 ++ 0#26) = none := by
  decide +kernel

/-- One instruction of every shape. -/
def forms : List Instr := [
  .add 127 31 1 2 0, .sraf 127 0 1 1 0, .clz 127 1 31 0 0, .popc 127 1 1 0 0, .addi 127 31 1 0x8000, .slti 127 1 1 0xFFFF,
  .lui 127 1 0 0xFFFF, .shi 127 1 1 0xC01F, .vget 127 1 15 15, .beq 127 1 1 0xFFFF, .bgeu 127 1 2 1, .jal 127 1 0x7FFF,
  .jalr 127 1 1 0, .lw 127 1 1 0xFFFC, .lhu 127 1 1 0xFFFE, .lb 127 1 1 0xFFFF, .sw 127 1 1 60, .sh 127 1 1 62, .sb 127 1 1 63,
  .vst 127 30 1 0, .vste 127 30 1 0x0A, .vld 127 30 1 0, .vlde 127 30 1 0x0A, .vadd 127 15 0 15 0 7, .vfma 127 1 1 1 1 0,
  .vsel 127 1 2 3 0 1, .vbcst 127 1 0 1 1 1, .vrot 127 1 2 1 1 1, .vperm 127 1 2 3 0 1, .vfmin 127 1 2 3 0 1, .vfdiv 127 1 2 3 0 1,
  .vcmpeq 127 7 2 3 0 1, .vpmask 127 7 0 1 1 0, .vrsum 127 1 2 0 0 1, .vfrmin 127 1 2 0 0 1, .vcvt 127 1 2 5 15 1 1 0,
  .scvt 127 1 2 5 15 0 0]
theorem witness_core_ready : ∀ i ∈ forms, (coreAt 0 i).ready 127 i := by
  have h : forms.all (fun i => readyB (coreAt 0 i) i) = true := by decide +kernel
  intro i hi
  exact ready_of (List.all_eq_true.mp h i hi)

theorem witness_ScalarAluResults : (coreAt 0 (.add 127 31 1 2 0)).ready 127 (.add 127 31 1 2 0) := witness_core_ready _ (by decide)
theorem witness_ScalarImmediateResults : (coreAt 0 (.addi 127 31 1 0x8000)).ready 127 (.addi 127 31 1 0x8000) :=
  witness_core_ready _ (by decide)

theorem witness_BranchAndJumpResults :
    (coreAt 0 (.beq 127 1 1 0xFFFF)).ready 127 (.beq 127 1 1 0xFFFF) ∧ (coreAt 0 (.jal 127 1 0x7FFF)).ready 127 (.jal 127 1 0x7FFF)
    ∧ (0 : Int) ≤ ((core_ 0).core 127).pc.toNat + 4 * (0 : BitVec 21).toInt
    ∧ (((core_ 0).core 127).pc.toNat + 4 * (0x7FFF : BitVec 21).toInt : Int) < 0x20000
    ∧ addr 0x1FFFF 0 / 4 * 4 < 0x20000 :=
  ⟨witness_core_ready _ (by decide), witness_core_ready _ (by decide), by decide, by decide, by decide⟩

theorem witness_ScalarLoads :
    let s := coreAt 0x20000
    readyB (s (.lw 127 1 1 0xFFFC)) (.lw 127 1 1 0xFFFC) = true
    ∧ (addr 0x20000 0xFFFC % 4 = 0 ∧ addr 0x20000 0xFFFC + 4 ≤ 0x20000 ∧ (s (.lw 127 1 1 0xFFFC)).sound (memAddr .core 127 0x1FFFC) 4)
    ∧ readyB (s (.lh 127 1 1 0xFFFE)) (.lh 127 1 1 0xFFFE) = true
    ∧ (addr 0x20000 0xFFFE % 2 = 0 ∧ addr 0x20000 0xFFFE + 2 ≤ 0x20000 ∧ (s (.lh 127 1 1 0xFFFE)).sound (memAddr .core 127 0x1FFFE) 2)
    ∧ readyB (s (.lb 127 1 1 0xFFFF)) (.lb 127 1 1 0xFFFF) = true
    ∧ (addr 0x20000 0xFFFF + 1 ≤ 0x20000 ∧ (s (.lb 127 1 1 0xFFFF)).sound (memAddr .core 127 0x1FFFF) 1) := by
  unfold State.sound
  decide +kernel

theorem witness_CoreStores :
    let s := coreAt 0x1FFC0
    readyB (s (.vst 127 30 1 0)) (.vst 127 30 1 0) = true ∧ addr 0x1FFC0 0 % 4 = 0 ∧ addr 0x1FFC0 0 + 64 ≤ 0x20000
    ∧ readyB (s (.sw 127 1 1 60)) (.sw 127 1 1 60) = true ∧ addr 0x1FFC0 60 + 4 ≤ 0x20000
    ∧ readyB (s (.sh 127 1 1 62)) (.sh 127 1 1 62) = true ∧ addr 0x1FFC0 62 % 2 = 0 ∧ addr 0x1FFC0 62 + 2 ≤ 0x20000
    ∧ readyB (s (.sb 127 1 1 63)) (.sb 127 1 1 63) = true ∧ addr 0x1FFC0 63 + 1 ≤ 0x20000
    ∧ (30 : BitVec 5).getLsbD 0 = false
    ∧ readyB (coreAt 0x1FFE0 (.vste 127 30 1 (0#11 ++ BitVec.ofNat 5 fmtFP16))) (.vste 127 30 1 (0#11 ++ BitVec.ofNat 5 fmtFP16)) = true
    ∧ fmtListed fmtFP16 = true ∧ fmtStored fmtFP16 ≤ 16 ∧ 2 * fmtStored fmtFP16 = 32 ∧ fmtListed fmtU1 = true
    ∧ ((core_ 0x1FFE0).core 127).sget 1 + 32 = 0x20000 := by
  decide +kernel

theorem witness_VectorLoads :
    let s := coreAt 0x1FFC0 (.vld 127 30 1 0)
    let e := coreAt 0x1FFE0 (.vlde 127 30 1 (0#11 ++ BitVec.ofNat 5 fmtBF16))
    readyB s (.vld 127 30 1 0) = true ∧ addr 0x1FFC0 0 % 4 = 0 ∧ addr 0x1FFC0 0 + 64 ≤ 0x20000
    ∧ s.sound (memAddr .core 127 0x1FFC0) 64 ∧ (30 : BitVec 5).getLsbD 0 = false
    ∧ readyB e (.vlde 127 30 1 (0#11 ++ BitVec.ofNat 5 fmtBF16)) = true
    ∧ fmtListed fmtBF16 = true ∧ fmtStored fmtBF16 ≤ 16 ∧ (((core_ 0x1FFE0).core 127).sget 1).toNat + 2 * fmtStored fmtBF16 ≤ 0x20000
    ∧ e.sound (memAddr .core 127 0x1FFE0) (2 * fmtStored fmtBF16) := by
  unfold State.sound
  decide +kernel

theorem witness_VectorLaneResults :
    (coreAt 0 (.vadd 127 15 0 15 0 7)).ready 127 (.vadd 127 15 0 15 0 7)
    ∧ (coreAt 0 (.vbcst 127 1 0 1 1 1)).ready 127 (.vbcst 127 1 0 1 1 1) ∧ (1 : BitVec 1) = 1 ∧ (15 : BitVec 5).getLsbD 4 = false :=
  ⟨witness_core_ready _ (by decide), witness_core_ready _ (by decide), rfl, by decide⟩
theorem witness_VectorChoiceResults :
    (coreAt 0 (.vfmin 127 1 2 3 0 1)).ready 127 (.vfmin 127 1 2 3 0 1) ∧ (3 : BitVec 5).getLsbD 4 = false :=
  ⟨witness_core_ready _ (by decide), by decide⟩
theorem witness_VectorPredicateResults :
    (coreAt 0 (.vcmpeq 127 7 2 3 0 1)).ready 127 (.vcmpeq 127 (0#1 ++ 7#3) 2 3 0 1)
    ∧ (coreAt 0 (.vpmask 127 7 0 1 1 0)).ready 127 (.vpmask 127 (0#1 ++ 7#3) 0 1 1 0) :=
  ⟨witness_core_ready _ (by decide), witness_core_ready _ (by decide)⟩
theorem witness_VectorReductionResults :
    (coreAt 0 (.vrsum 127 1 2 0 0 1)).ready 127 (.vrsum 127 1 2 0 0 1) ∧ (0 : BitVec 5).getLsbD 4 = false :=
  ⟨witness_core_ready _ (by decide), by decide⟩

theorem witness_ConversionResults :
    (coreAt 0 (.vcvt 127 1 2 5 15 1 1 0)).ready 127 (.vcvt 127 1 2 5 15 1 1 0)
    ∧ fmtConv (5 : BitVec 5).toNat = true ∧ fmtConv (15 : BitVec 5).toNat = true :=
  ⟨witness_core_ready _ (by decide), by decide, by decide⟩

/-- R189: a major opcode that is not listed, and the all-zero word, spell no instruction; each listed one spells one. -/
theorem witness_CoreWordsRoundTrip :
    encodeCore (.add 127 31 1 2 0) = some (127, 0x07E11000) ∧ decodeCore 127 0x07E11000 = some (.add 127 31 1 2 0)
    ∧ (field 0x88000000 26 6).toNat = 0x22 := by decide +kernel

theorem witness_CoreStopCauses :
    let s := coreAt 0x20000
    let r (i : Instr) : Bool := readyB (s i) i
    let p : State := { core_ 0x20000 with poison := [memAddr .core 127 0] }
    let alone (i : Instr) : State := (((s i).setInst 7 { st := .running }))
    ([.add 127 1 1 2 7, .popc 127 1 1 2 1, .lui 127 1 31 0, .lw 127 1 1 1, .sw 127 1 1 1, .lh 127 1 1 1, .sh 127 1 1 1, .lw 127 1 1 0,
      .qwait 127 1 0x3FFF 0, .qcnt 127 1 0x3FFF 0, .crd 127 1 9 0, .cwr 127 1 8 0, .scvt 127 1 0x12 1 2 0 0] : List Instr).all r = true
    ∧ addr 0x20000 1 % 4 ≠ 0 ∧ addr 0x20000 1 % 2 ≠ 0
    ∧ addr 0x20000 0 % 4 = 0 ∧ 0x20000 ≤ addr 0x20000 0 ∧ (s (.qwait 127 1 0x3FFF 0)).coreQueue 127 0x3FFF = none
    ∧ readyB (alone (.efill 127 1 0 0)) (.efill 127 1 0 0) = true ∧ (alone (.efill 127 1 0 0)).stageOfCoreK 127 = none
    ∧ ctrlReg ((9 : BitVec 14).toNat % 4096) = none ∧ (8 : BitVec 14).toNat % 4096 ≤ 8 ∧ fmtConv (0x12 : BitVec 5).toNat = false
    ∧ (core_ 0).sound (memAddr .core 127 ((core_ 0).core 127).pc.toNat) 4 ∧ decodeCore 127 ((core_ 0).fetchWord 127) = none
    ∧ (p.core 127).active = true ∧ (∀ w ∈ wordsOf (memAddr .core 127 (p.core 127).pc.toNat) 4, SMap.find p.upsets w = none)
    ∧ p.poisoned (memAddr .core 127 (p.core 127).pc.toNat) 4 = true := by
  unfold State.sound
  decide +kernel

theorem witness_CoreStopEffect :
    (127 : Nat) < 128 ∧ (9 : Nat) < 16
    ∧ ((core_ 0).setInst 7 { st := .running }).coreOwner 127 = some 7
    ∧ (((core_ 0).setInst 7 { st := .running }).inst 7).stageOfCore 127 = none := by decide +kernel

theorem witness_ControlRegisterResults :
    let s := coreAt 0
    (([0, 1, 2, 3, 4, 5, 6, 7, 8, 0x10, 0x11, 9] : List (BitVec 14)).all (fun q => readyB (s (.crd 127 1 q 0)) (.crd 127 1 q 0))) = true
    ∧ (([0x10, 0x11, 9, 8] : List (BitVec 14)).all (fun q => readyB (s (.cwr 127 1 q 0)) (.cwr 127 1 q 0))) = true
    ∧ (core_ 0).coreOwner 127 = some 7 ∧ ((core_ 0).inst 7).stageOfCore 127 = some stage1
    ∧ (((core_ 0).inst 7).stage 1).isSome = true
    ∧ ctrlReg ((9 : BitVec 14).toNat % 4096) = none ∧ ctrlReg ((8 : BitVec 14).toNat % 4096) = some false := by
  decide +kernel

/-- A token of epoch 0, line 5. -/
def tok : Entry := { w0 := 5, w1 := 7 }

theorem witness_QueueReadInstructions :
    let p : Instr := .qpop 127 (0#1 ++ 1#4) 2 0 0
    let w : Instr := .qwait 127 1 2 0
    let s (i : Instr) (es : List Entry) : State := queue7 (coreAt 0 i) 12287 2 qToken 4 es
    let h := queue7 (coreAt 0 p) 12287 2 qH2D 4 [tok]
    let o (i : Instr) : State := queue7 (coreAt 0 i) 12287 0 qToken 4 []
    let bad := controlToken 0 0 5 0xFF 0 0
    readyB (s p [tok]) p = true ∧ readyB (s w [tok]) w = true ∧ (s p [tok]).coreQueue 127 2 = some 12287
    ∧ (s p [tok]).delivers 12287 tok [] ∧ (s p [tok]).headSound 12287 ∧ (s w [tok]).isOutput 127 12287 = false
    ∧ (s p [bad]).delivers 12287 bad [] ∧ bad.kind = kindControl ∧ codeListed bad.code = false ∧ readyB (s p [bad]) p = true
    ∧ (1 : BitVec 4) ≠ 0 ∧ tok.kind ≠ kindMarker ∧ ((s p [tok]).queue 12287).judge tok = .deliver
    ∧ (h.queue 12287).qkind = qH2D ∧ (h.queue 12287).entries = [tok] ∧ readyB h p = true
    ∧ readyB (s p []) p = true ∧ ((s p []).queue 12287).entries = [] ∧ ((s p []).queue 12287).emptyMode = false
    ∧ (s p []).isOutput 127 12287 = false
    ∧ (o w).coreQueue 127 0 = some 12287 ∧ readyB (o (.qwait 127 1 0 0)) (.qwait 127 1 0 0) = true ∧ (o w).isOutput 127 12287 = true
    ∧ readyB (o (.qcnt 127 1 0 0)) (.qcnt 127 1 0 0) = true ∧ ((o w).queue 12287).full = false := by
  unfold State.delivers State.headSound State.sound
  decide +kernel

theorem witness_QueueIssueInstructions :
    let s (i : Instr) : State := queue7 (coreAt 0 i) 12287 2 qToken 4 []
    let full (i : Instr) : State := queue7 (coreAt 0 i) 12287 2 qToken 2 [tok, tok, tok, tok]
    let d (i : Instr) : State := queue7 (coreAt 0 i) 12287 2 qD2H 4 []
    let c (i : Instr) : State := (queue7 (coreAt 0 i) 12288 2 qTask 4 []).modInst 7 (fun x =>
      { x with image := some { image1 with addrProgs := [{ id := 0, core := 127, bytes := [] }] } })
    let l (i : Instr) : State := queue7 (coreAt 0 i) 14336 2 qLight 4 []
    let push : Instr := .qpush 127 2 2 0
    let enq : Instr := .enqe 127 2 63 0
    let fil : Instr := .efill 127 2 63 0
    let sub : Instr := .xsub 127 2 2 0
    let lit : Instr := .xlit 127 2 2 0
    readyB (s push) push = true ∧ (s push).coreQueue 127 2 = some 12287 ∧ ((s push).queue 12287).full = false
    ∧ (s push).stoppedReader 12287 = none ∧ readyB (full push) push = true ∧ ((full push).queue 12287).full = true
    ∧ readyB (d push) push = true ∧ ((d push).queue 12287).qkind = qD2H ∧ (d push).follows = false
    ∧ readyB (s enq) enq = true ∧ readyB (s fil) fil = true ∧ (s enq).engineCause 127 63 = none ∧ (s enq).tagFree 7 = true
    ∧ ((s enq).wr (Reg.INS_I_TAGS 7) 0).tagFree 7 = false
    ∧ (s enq).instOfCore 127 = 7 ∧ ((s enq).engine 63).queue.length < 32
    ∧ readyB (c sub) sub = true ∧ (c sub).coreQueue 127 2 = some 12288 ∧ ((c sub).queue 12288).qkind = qTask
    ∧ ((c sub).queue 12288).full = false ∧ (c sub).tagFree 7 = true
    ∧ (c sub).progAddr 127 ((((c sub).core 127).sget 2).toNat % 65536) = some 0x1FF80 ∧ (c sub).sound (memAddr .core 127 0x1FF80) 128
    ∧ readyB (l lit) lit = true ∧ (l lit).coreQueue 127 2 = some 14336 ∧ ((l lit).queue 14336).qkind = qLight
    ∧ ((l lit).queue 14336).full = false := by
  unfold State.sound
  decide +kernel

theorem witness_TickwaitAndFence :
    let tw : Instr := .tickwait 127 1 0 0
    let fe : Instr := .fence 127 1 (0#10 ++ 0xC#4) 0
    let s := coreAt 0 tw
    let e := s.modCore 127 (fun c => { c with starts := 5 })
    let h : LineSlot := { tick := 4, line := 40, admitted := true, dropped := false, flags := 0, sheet := 0 }
    let n := (s.setInst 7 { st := .running, ticks := 5, hist := [h] }).modCore 127 (fun c => { c with st := .tickwait, starts := 4 })
    let m := n.modCad (fun c => { c with pulse := some 0, tickEdge := some 0 })
    let f := coreAt 0 fe
    let b := (queue7 f 12288 2 qTask 4 [{ core := 127 }]).setEngine 63 { queue := [{ bare 1 0 0 0 with core := 127 }] }
    readyB s tw = true ∧ s.stageOfCoreK 127 = some stage1 ∧ (s.inst 7).stage 1 = some { id := 1, st := .running, starts := 5, lastLine := 40 }
    ∧ (s.core 127).starts < 5 ∧ readyB e tw = true ∧ 5 ≤ (e.core 127).starts
    ∧ readyB n tw = true ∧ n.stageOfCoreK 127 = none ∧ (n.core 127).st = .tickwait ∧ (n.core 127).starts < (n.inst 7).ticks
    ∧ n.markOpen = false ∧ (n.inst 7).hist = h :: [] ∧ readyB m tw = true ∧ m.markOpen = true ∧ (m.inst 7).marked = false
    ∧ readyB (s.setInst 7 {}) tw = true ∧ (s.setInst 7 {}).stageOfCoreK 127 = none ∧ ((s.setInst 7 {}).core 127).st ≠ .tickwait
    ∧ readyB f fe = true ∧ f.coreTransfers 127 = false ∧ f.coreCommands 127 = false
    ∧ readyB b fe = true ∧ b.coreTransfers 127 = true ∧ b.coreCommands 127 = true ∧ (0xC : BitVec 4).getLsbD 2 = true
    ∧ (0xC : BitVec 4).getLsbD 3 = true := by
  decide +kernel

/-! ### Witnesses: tiles, queues and transfers -/

/-- Tile (63, 31) runs; instance 7 owns column 63; send target 5 is tile queue 5 of row 31 of the same column. -/
def tile_ : State :=
  (with_ (Reg.INS_I_COLS 7) 0x013F).setTile 63 31 { running := true, tgt := [(5, BitVec.ofNat 64 (63 * 2 ^ 56 + 31 * 2 ^ 51 + 5 * 2 ^ 48))] }

/-- The same tile at bundle `w`. -/
def tileAt (w : DWord) : State := tile_.wrBytes (tile_.tileAddr 63 31 0) (leBytes 8 w.toNat)

theorem witness_TileAluResults :
    let w : DWord := 0x01#6 ++ 31#5 ++ 1#5 ++ 2#5 ++ 1#1 ++ 2#2 ++ 0#40
    (tileAt w).tileReady 63 31 w ∧ (tileAt 0).tileReady 63 31 0 ∧ (15 : BitVec 5).toNat < 16 := by
  unfold State.tileReady State.sound
  decide +kernel

theorem witness_TileControlResults :
    let w : DWord := 0#44 ++ 0x08#5 ++ 0#3 ++ 2047#11 ++ 0#1
    (tileAt w).tileReady 63 31 w ∧ (2047 : BitVec 11).toNat + ((tileAt w).tile 63 31).sel.toNat < 2048 ∧ (7 : BitVec 3) ≠ 6 := by
  unfold State.tileReady State.sound
  decide +kernel

/-- RECV from tile queue 5 into l(31), and SEND of l(31) to target 5. -/
def recv5 : DWord := 0#44 ++ 0x01#5 ++ 5#3 ++ 31#5 ++ 0#3 ++ 0#1 ++ 0#3
def send5 : DWord := 0#44 ++ 0x02#5 ++ 5#3 ++ 31#5 ++ 0#7
/-- Device queue of tile queue 5 of tile (63, 31). -/
def dev5 : Nat := 192 * 63 + 6 * 31 + 5

theorem witness_TileTokenResults :
    let s (es : List Entry) := queue7 (tileAt recv5) dev5 2 qToken 4 es
    let g := (((tileAt send5).tile 63 31).target 5)
    let u := queue7 (tileAt send5) dev5 2 qToken 4 []
    let bad := controlToken 0 0 5 0xFF 0 0
    (s [tok]).tileReady 63 31 recv5 ∧ (5 : BitVec 3).toNat < 6 ∧ (s [tok]).delivers dev5 tok [] ∧ (s [tok]).headSound dev5
    ∧ (s [bad]).tileReady 63 31 recv5 ∧ (s [bad]).delivers dev5 bad [] ∧ codeListed bad.code = false ∧ bad.kind = kindControl
    ∧ (1 : BitVec 4) ≠ 0 ∧ tok.kind ≠ kindMarker ∧ ((s [tok]).queue dev5).judge tok = .deliver
    ∧ (s []).tileReady 63 31 recv5 ∧ ((s []).queue dev5).entries = [] ∧ ((s []).queue dev5).emptyMode = false
    ∧ u.tileReady 63 31 send5 ∧ tgtKind g = 0 ∧ tgtQueue g < 6 ∧ u.inRun 63 (tgtCol g) = true
    ∧ 192 * tgtCol g + 6 * tgtRow g + tgtQueue g = dev5 ∧ (u.queue dev5).full = false ∧ u.stoppedReader dev5 = none := by
  unfold State.tileReady State.delivers State.headSound State.sound
  decide +kernel

theorem witness_TileTokenResults_router :
    let u := (queue7 (tileAt send5) dev5 2 qToken 4 [tok]).modInst 7 (fun x => { x with st := .running })
    u.tileReady 63 31 send5 ∧ u.passes 63 31 ((u.tile 63 31).target 5) 63 31 = true ∧ u.colOwner 63 = some 7
    ∧ (u.inst 7).st = .running ∧ u.flt.fenced.length < 1024 := by
  unfold State.tileReady State.sound
  decide +kernel

/-- A router fault fences the column with cause 2 and no spare, raises TIL_C_EVT.router_fault, and parks the instance
(R182, R353). -/
theorem test_router_fault :
    let t := (tile_.modInst 7 (fun x => { x with st := .running })).routerFault 63 31 5
    t.flt.fenced = [(1, 63, 2, 0, 0, 0xFFFFFFFF)] ∧ (t.inst 7).st = .kickstand ∧ t.rd (Reg.TIL_C_EVT 63) = 0x80
    ∧ t.rd (Reg.TIL_C_ERR 63) = 0x501F0005 := by decide +kernel

/-- Parity fails in word 0: the VOID has the line after the last delivered; in word 1, the stored line (R226). -/
theorem test_entry_parity :
    let s := (queue7 tile_ 5 2 qToken 4 [tok]).modQueue 5 (fun x => { x with lastLine := 8 })
    ((s.upsetHead 5 1).readQueue 5).2.map (·.tokLine) = some 9 ∧ ((s.upsetHead 5 2).readQueue 5).2.map (·.tokLine) = some 5
    ∧ ((s.upsetHead 5 2).readQueue 5).2.map (·.code) = some codeVoid := by decide +kernel

/-- Address program `id`: two bytes from the start of window 5 to its end, posting on local queue 3; flags as given. -/
def prog (id flags : Nat) : List Byte :=
  leBytes 2 id ++ [BitVec.ofNat 8 flags, 1] ++ leBytes 4 2 ++ leBytes 2 3 ++ List.replicate 6 0 ++ leBytes 8 0x55
    ++ leBytes 8 (5 * 2 ^ 52) ++ leBytes 8 (5 * 2 ^ 52) ++ leBytes 4 0 ++ leBytes 4 0xFFFE ++ List.replicate 80 0
/-- A task of task queue 12288, with `prog 9`. -/
def task (id flags : Nat) (marked done : Bool) : Task :=
  { id := id, q := 12288, inst := 7, core := 127, eng := 15, prog := prog 9 flags, k := 0, line := 5, pos := 0, marked := marked
    done := done }
/-- Window 5, task queue 12288 with an entry of `prog 9`, token queue 12287 as local queue 3, and tasks. -/
def moving (ts : List Task) : State :=
  { queue7 (queue7 (window5 (core_ 0)) 12288 2 qTask 4 [{ w0 := 9, bytes := prog 9 0, core := 127, line := 5 }]) 12287 3 qToken 4 [] with
    tasks := ts, nextTask := 4 }
/-- A location was found, and it is `l`. -/
def locIs (r : Except Nat Loc) (l : Loc) : Bool := match r with | .ok x => decide (x = l) | .error _ => false
theorem locIs_ok {r : Except Nat Loc} {l : Loc} (h : locIs r l = true) : r = .ok l := by
  unfold locIs at h
  split at h
  · simp_all
  · cases h

/-- The byte of program `p` that run 0 reads or writes. -/
def locates (s : State) (p : List Byte) (j : Nat) : Bool :=
  locIs (s.locOf 7 (progSrc p) (srcOffset p 0 0 j) false) (.mem .bulk (memAddr .bulk 3 0 + j))
    && locIs (s.locOf 7 (progDst p) (dstOffset p 0 0 j) true) (.mem .bulk (memAddr .bulk 3 0xFFFE + j))
    && s.locWritable (.mem .bulk (memAddr .bulk 3 0xFFFE + j))

theorem witness_TransferTasks :
    let s := moving []
    let e : Entry := { w0 := 9, bytes := prog 9 0, core := 127, line := 5 }
    let held := moving [task 0 2 true false, task 3 2 true false]
    let free := moving [task 3 2 true false]
    let done := moving [task 3 1 false true]
    let run := s.modInst 7 (fun x => { x with st := .running })
    let loud : Entry := { e with bytes := prog 9 1 }
    s.clean ∧ (s.queue 12288).entries = e :: [] ∧ (s.queue 12288).qkind = qTask ∧ s.mayStart 12288 = true
    ∧ (s.queue 12288).owner = 7 ∧ s.firstWaiting 12288 = true
    ∧ (run.inst 7).st = .running ∧ run.clean ∧ run.mayStart 12288 = true ∧ run.firstWaiting 12288 = true
    ∧ State.taskCause (s.queue 12288) { e with bad := true } = some 8
    ∧ State.taskCause (s.queue 12288) { e with bytes := prog 8 0 } = some 4
    ∧ State.taskCause (s.queue 12288) { loud with bad := e.bad || true } = some 8 ∧ progNotify loud.bytes = true
    ∧ s.localQueue 7 (progNotifyQ loud.bytes) = some 12287 ∧ (s.queue 12287).qkind = qToken ∧ (s.queue 12287).full = false
    ∧ s.stoppedReader 12287 = none ∧ State.taskCause (s.queue 12288) e = none ∧ progRuns e.bytes = 1 ∧ progWaitPrev e.bytes = false
    ∧ leField e.bytes 0x0A 2 < 0x8000 ∧ leField e.bytes 0x0C 2 < 0x8000 ∧ progRun e.bytes = 2
    ∧ locates s e.bytes 0 = true ∧ locates s e.bytes 1 = true
    ∧ held.clean ∧ (∀ v ∈ held.tasks, v.id < held.nextTask ∧ v.inst < 8 ∧ v.eng < 16)
    ∧ held.tasks.find? (fun t => t.id == 3) = some (task 3 2 true false) ∧ held.depHolds (task 3 2 true false) 0 = true
    ∧ free.tasks.find? (fun t => t.id == 3) = some (task 3 2 true false) ∧ free.depHolds (task 3 2 true false) 0 = false
    ∧ 0 + 1 = progRuns (prog 9 2)
    ∧ done.tasks.find? (fun t => t.id == 3) = some (task 3 1 false true) ∧ progNotify (prog 9 1) = true
    ∧ progNotify (prog 9 2) = false ∧ done.localQueue 7 (progNotifyQ (prog 9 1)) = some 12287
    ∧ (done.queue 12287).qkind = qToken ∧ (done.queue 12287).full = false ∧ done.stoppedReader 12287 = none := by
  unfold State.clean
  decide +kernel

/-- A light request of 64 bytes between the end of core 127's SRAM and the start of window 5, posting on local queue `l`. -/
def light (op l : Nat) : Entry :=
  { w0 := BitVec.ofNat 64 (op * 2 ^ 60 + 63 * 2 ^ 52 + l * 2 ^ 38 + 0x1FFC0 * 2 ^ 21), w1 := BitVec.ofNat 64 (5 * 2 ^ 56), core := 127, line := 5 }
def lightAt (op l : Nat) : State := queue7 (queue7 (window5 (core_ 0)) 14336 2 qLight 4 [light op l]) 12287 3 qToken 4 []

/-- The hypotheses of LightRequests, but for the notify queue. -/
def lightOk (op l : Nat) : Bool :=
  let s := lightAt op l
  let e := light op l
  let x := s.queue 14336
  decide (x.entries = [e]) && x.qkind == qLight && x.owner == 7 && s.bit Reg.XFR_CTRL 0 && bits x.cap 15 0 != 0
    && decide (State.lightCause x e = none) && s.ownsCore 7 e.core && bits64 e.w0 37 21 + (bits64 e.w0 57 52 + 1) == 0x20000
    && (List.range 64).all (fun j =>
      locIs (s.locOf 7 (lightFar e.w0 e.w1) j (op != 1)) (.mem .bulk (memAddr .bulk 3 0 + j))
        && s.locWritable (if op = 1 then .mem .core (memAddr .core e.core (bits64 e.w0 37 21) + j) else .mem .bulk (memAddr .bulk 3 0 + j)))

theorem near_unit (k o j : Nat) (hk : k < 256) (h : o + j < 0x10000000) : (unitOf (memAddr .core k o + j)).1 = k := by
  simp only [unitOf, memAddr, MemKind.num]
  omega
/-- `lightOk` with its core looked up once. -/
def lightSeen (op l : Nat) : Bool :=
  let s := lightAt op l
  let e := light op l
  let x := s.queue 14336
  decide (x.entries = [e]) && x.qkind == qLight && x.owner == 7 && s.bit Reg.XFR_CTRL 0 && bits x.cap 15 0 != 0
    && decide (State.lightCause x e = none) && s.ownsCore 7 e.core && bits64 e.w0 37 21 + (bits64 e.w0 57 52 + 1) == 0x20000
    && s.coreWritable 127
    && (List.range 64).all (fun j => locIs (s.locOf 7 (lightFar e.w0 e.w1) j (op != 1)) (.mem .bulk (memAddr .bulk 3 0 + j)))
theorem light_seen (op l : Nat) (hn : bits64 (light op l).w0 37 21 ≤ 0x20000) (h : lightSeen op l = true) : lightOk op l = true := by
  simp only [lightOk, lightSeen, Bool.and_eq_true, List.all_eq_true] at h ⊢
  refine ⟨h.1.1, fun j hj => ⟨h.2 j hj, ?_⟩⟩
  have hj : j < 64 := by simpa using hj
  split
  · have : (unitOf (memAddr .core (light op l).core (bits64 (light op l).w0 37 21) + j)).1 = 127 :=
      near_unit 127 _ j (by omega) (by omega)
    rw [State.locWritable, this]
    exact h.1.2
  · rfl

theorem witness_LightRequests :
    (lightAt 1 2).clean ∧ (lightAt 1 3).clean ∧ (lightAt 2 9).clean ∧ lightOk 1 3 = true ∧ lightOk 2 9 = true ∧ (lightAt 2 9).localQueue 7 (bits64 (light 2 9).w0 51 38) = none
    ∧ (lightAt 1 3).localQueue 7 (bits64 (light 1 3).w0 51 38) = some 12287 ∧ 12287 ≠ 14336
    ∧ ((lightAt 1 3).queue 12287).qkind = qToken ∧ ((lightAt 1 3).queue 12287).full = false
    ∧ (lightAt 1 3).stoppedReader 12287 = none := by
  unfold State.clean
  refine ⟨?_, ?_, ?_, light_seen 1 3 ?_ ?_, light_seen 2 9 ?_ ?_, ?_⟩ <;> decide +kernel

/-- Host ring 16383, of the manager's doorbell 2047: kind, write and read pointer, 16 entries at host address 0. -/
def ring_ (kind wr rd : Nat) (es : List Entry) : State :=
  { State.reset.setQueue 16383 { cfg := BitVec.ofNat 32 (kind * 2 ^ 28 + 4 * 2 ^ 16), assign := 0x88000000, entries := es, wr := wr, rd := rd } with
    hostMem := (List.range 64).map (fun j => (j, BitVec.ofNat 8 j)) }

theorem witness_QueueCommands :
    let s := State.reset
    let x := (queue7 (s.setInst 7 { st := .running }) 0 2 qToken 4 [tok])
    let d := ring_ qD2H 4 0 []
    let h := ring_ qH2D 16 16 []
    s.direct 0 Reg.QUE_CMD ∧ s.queDenied 0 (s.queSel 0) = false ∧ s.mayFlush (s.queSel 0) = true
    ∧ x.direct 0 Reg.QUE_CMD ∧ x.queDenied 0 (x.queSel 0) = false ∧ x.mayFlush (x.queSel 0) = false
    ∧ s.fnOn 0 = true ∧ s.tdm.st ≠ 2 ∧ s.tdm.takeover = false ∧ s.ringOf 0 16383 = none
    ∧ d.ringOf 0 2047 = some 16383 ∧ (d.queue 16383).qkind = qD2H
    ∧ ((d.queue 16383).wr + (d.queue 16383).ptrMod - bits 4 15 0 % (d.queue 16383).ptrMod) % (d.queue 16383).ptrMod ≤ (d.queue 16383).depth
    ∧ (d.queue 16383).depth < ((d.queue 16383).wr + (d.queue 16383).ptrMod - bits 5 15 0 % (d.queue 16383).ptrMod) % (d.queue 16383).ptrMod
    ∧ h.ringOf 0 2047 = some 16383 ∧ (h.queue 16383).qkind = qH2D ∧ (h.queue 16383).rd < (h.queue 16383).ptrMod
    ∧ bits 17 15 0 % (h.queue 16383).ptrMod = ((h.queue 16383).rd + (h.queue 16383).fill + 1) % (h.queue 16383).ptrMod
    ∧ (h.queue 16383).fill < (h.queue 16383).depth
    ∧ (h.hostBytes ((h.queue 16383).base.toNat + 64 * ((h.queue 16383).wr % (h.queue 16383).depth)) 64).isSome = true
    ∧ s.direct 0 Reg.XFR_CMD := by
  unfold State.direct
  decide +kernel

/-! ### Witnesses: adaptation, outputs -/

/-- `image1` with a plan without entries. -/
def planned : Image := { image1 with plan := some { auto := false, sampleN := 4, margin := 0, entries := [] } }
/-- Instance 7 of that image in state `st`, with adaptation state `a`; records partition 2 is its own when `part` is set. -/
def adapt (st : InstState) (a : Adp) (part : Bool) (ts : List Txn) : State :=
  { inst_ 7 { st := st, image := some planned, adp := a, stages := [{ id := 1 }] } with
    store := { st := 2, txns := ts, nextTxn := 9 }
    regs := if part then [(Reg.STO_P_CFG 2, 0x87000040)] else [] }
/-- Transaction 8 of partition 2: a checkpoint for `image1`, in a phase. -/
def ckpt (phase : Nat) : Txn :=
  { num := 8, kind := 2, part := 2, inst := 7, payload := leBytes 8 1 ++ List.replicate 8 0, phase := phase }

theorem witness_AdaptationCommands :
    let a := adapt .running {} false []
    let b := adapt .running { ckptBusy := true } false []
    let c := adapt .running {} true []
    let h := adapt .held {} false []
    let r := adapt .held {} true [ckpt 2]
    let d (p : Nat) := adapt .running { ckptBusy := true, ckptTxn := some 8 } true [ckpt p]
    (a.inst 7).plan.isSome = true ∧ a.direct 0 (Reg.ADP_I_CMD 7) ∧ (b.inst 7).adp.ckptBusy = true ∧ (a.inst 7).adp.ckptBusy = false
    ∧ a.partOf 7 = none ∧ c.clean ∧ c.partOf 7 = some 2 ∧ c.storeOpen = true ∧ (c.inst 7).adp.ckptBusy = false
    ∧ (a.inst 7).st ≠ .held ∧ (h.inst 7).st = .held ∧ (h.inst 7).image = some planned
    ∧ planned.plan = some { auto := false, sampleN := 4, margin := 0, entries := [] }
    ∧ h.findCkpt 7 planned { auto := false, sampleN := 4, margin := 0, entries := [] } = none
    ∧ r.findCkpt 7 planned { auto := false, sampleN := 4, margin := 0, entries := [] } = some (ckpt 2)
    ∧ a.direct 0 (Reg.ADP_I_MARGIN 7) ∧ 0xFFFF &&& beMask 2 ≠ 0
    ∧ marginOk (bits (merge (a.rd (Reg.ADP_I_MARGIN 7)) 0x3800 (0xFFFF &&& beMask 3)) 15 0) = true
    ∧ marginOk (bits (merge (a.rd (Reg.ADP_I_MARGIN 7)) 0x3801 (0xFFFF &&& beMask 3)) 15 0) = false
    ∧ ((d 2).inst 7).adp.ckptOrdered = false ∧ ((d 2).inst 7).adp.ckptTxn = some 8 ∧ (d 2).txn 8 = some (ckpt 2) ∧ (ckpt 2).phase = 2
    ∧ (d 3).txn 8 = some (ckpt 3) ∧ (ckpt 3).phase = 3 := by
  unfold State.direct State.clean
  decide +kernel

/-- A line that was admitted at accepted tick 4. -/
def slot40 : LineSlot := { tick := 4, line := 40, admitted := true, dropped := false, flags := 0, sheet := 0 }
/-- Instance 7 running in window 5: result queue 12287 (local id 2) and request queue 12286 (3), action queue 12285 (4),
holding `r` and `a`; sheets and editions as given. -/
def outputs (r a : List Entry) (hs : List Sheet) (eds : List Edition) : State :=
  let s := window5 ((((core_ 0).wr (Reg.OUT_I_QUEUES 7) 2).wr (Reg.ACT_I_QUEUES 7) 0x00040003).wr (Reg.OUT_I_RES 7) 0x05000000)
  let s := queue7 (queue7 (queue7 s 12287 2 qToken 4 r) 12286 3 qToken 4 a) 12285 4 qToken 4 []
  s.setInst 7 { st := .running, ticks := 261, image := some image1, hist := [slot40], sheets := hs, editions := eds }
/-- A data token of line 40 with 65 boxes. -/
def boxTok : Entry := { w0 := 40, w1 := BitVec.ofNat 64 (65 * 2 ^ 32) }

theorem witness_ResultsAndRequests :
    let s := outputs [boxTok] [] [] []
    let v := outputs [voidToken 0 0 40 0] [] [] []
    let a := outputs [] [boxTok] [] []
    let w := outputs [] [voidToken 0 0 40 0] [] []
    s.clean ∧ s.tdm.st ≠ 2 ∧ (∀ w ∈ s.tdm.waiting, w.1.inst ≠ 7) ∧ (s.inst 7).st = .running ∧ s.delivers 12287 boxTok []
    ∧ s.localQueue 7 (s.fld (Reg.OUT_I_QUEUES 7) 13 0) = some 12287
    ∧ s.localQueue 7 (s.fld (Reg.ACT_I_QUEUES 7) 13 0) = some 12286 ∧ 12286 ≠ 12287 ∧ (s.queue 12286).entries = []
    ∧ boxTok.kind = kindData ∧ (s.inst 7).slotOf boxTok.tokLine = some slot40 ∧ slot40.admitted = true
    ∧ slot40.lost = false
    ∧ (s.resultSlot 7 boxTok.tokLine).map (fun p => decide (p.2 + 0x40 ≤ p.1.size)) = some true
    ∧ v.clean ∧ v.delivers 12287 (voidToken 0 0 40 0) [] ∧ (voidToken 0 0 40 0).kind = kindControl ∧ (voidToken 0 0 40 0).code = codeVoid
    ∧ a.clean ∧ (a.inst 7).live = true ∧ a.delivers 12286 boxTok [] ∧ 12285 ≠ 12286 ∧ a.takes 12285
    ∧ a.localQueue 7 (a.fld (Reg.ACT_I_QUEUES 7) 29 16) = some 12285
    ∧ w.clean ∧ w.delivers 12286 (voidToken 0 0 40 0) [] ∧ w.takes 12285 := by
  unfold State.clean State.delivers State.takes
  decide +kernel

/-- A record of 64 bytes for sheet 6, in record queue 16000 of instance 7. -/
def record_ : Entry := { bytes := [0, 0, 0, 0] ++ leBytes 4 64 ++ List.replicate 8 0 ++ leBytes 4 6 ++ List.replicate 44 0 }
/-- Sheet 6, ended at tick 5, with transaction 8. -/
def sheet6 : Sheet := { num := 6, ended := some 5, txn := some 8 }
/-- The record queue with `e`, with the buffer's limit in KiB. -/
def recordedAs (kib : Nat) (h : Sheet) (e : Entry) : State :=
  let s := queue7 (((outputs [] [] [h] []).wr (Reg.STO_I_BUF 7) (BitVec.ofNat 32 kib)).wr (Reg.STO_P_CFG 2) 0x87000040) 16000 9 qRecord 4 [e]
  { s with store := { st := 2, txns := [{ ckpt 0 with kind := 1 }], nextTxn := 9 } }
def recorded (kib : Nat) : State := recordedAs kib sheet6 record_

theorem witness_ResultsAndRequests_records :
    let s := recorded 1
    let first := { sheet6 with txn := none }
    let o := recordedAs 1 first record_
    let b := recordedAs 1 sheet6 { record_ with bad := true }
    let y := s.queue 16000
    let len := max 64 (leField record_.bytes 4 4)
    y.qkind = qRecord ∧ y.owner = 7 ∧ y.entries = record_ :: [] ∧ recordEntries len ≤ y.entries.length
    ∧ 1024 * (recorded 0).fld (Reg.STO_I_BUF 7) 13 0 < (recorded 0).bufUsed 7 + ((y.entries.take 1).flatMap (·.bytes)).length
    ∧ s.bufUsed 7 + ((y.entries.take 1).flatMap (·.bytes)).length ≤ 1024 * s.fld (Reg.STO_I_BUF 7) 13 0
    ∧ s.partOf 7 = some 2 ∧ sheet6.txn = some 8 ∧ (s.txn 8).isSome = true
    ∧ (s.inst 7).recordSheet (BitVec.ofNat 24 (leField record_.bytes 0x10 4)) = some sheet6
    ∧ (∀ x ∈ y.entries.take (recordEntries len), x.bad = false)
    ∧ (b.queue 16000).entries = { record_ with bad := true } :: [] ∧ (b.queue 16000).owner = 7
    ∧ (o.queue 16000).entries = record_ :: [] ∧ first.txn = none ∧ o.storeOpen = true ∧ o.txn o.store.nextTxn = none ∧ o.partOf 7 = some 2
    ∧ (o.inst 7).recordSheet (BitVec.ofNat 24 (leField record_.bytes 0x10 4)) = some first := by decide +kernel

/-- A seal of sheet 6 without a map. -/
def sealTok : Entry := controlToken 0 0 6 codeUser 0 0
/-- Edition 3, without a transaction. -/
def edition3 : Edition := { num := 3, sheet := 5, status := 0, bytes := [], txn := none }
/-- As `outputs`, with the seal queue 12287. -/
def sealed (hs : List Sheet) (eds : List Edition) : State := (outputs [sealTok] [] hs eds).wr (Reg.OUT_I_QUEUES 7) 0x00020000

theorem witness_EditionsAndOutlet :
    let s := sealed [] []
    let f := sealed [sheet6] [edition3]
    let d := f.modInst 7 (fun x => { x with ticks := 262 })
    let e := sealed [] [edition3]
    let v := sealed [sheet6] []
    let g : OutSeg := { lane := 7, inst := 7, edition := 3, first := 0, units := 1, sending := true, words := [] }
    let o : State := { State.reset with outSegs := [g] }
    let p : State := { State.reset with sig := { gpioEnd := [(7, 100)] } }
    (s.inst 7).live = true ∧ s.headSound 12287 ∧ f.headSound 12287 ∧ s.delivers 12287 sealTok [] ∧ s.localQueue 7 (s.fld (Reg.OUT_I_QUEUES 7) 29 16) = some 12287
    ∧ sealTok.kind = kindControl ∧ sealTok.code = codeUser ∧ (s.inst 7).unsealed = []
    ∧ f.delivers 12287 sealTok [] ∧ (f.inst 7).unsealed = sheet6 :: [] ∧ sheet6.num = sealTok.tokLine.setWidth 24
    ∧ sheet6.ended = some 5 ∧ (f.inst 7).ticks ≤ 5 + 256 ∧ (f.inst 7).editions ≠ []
    ∧ v.headSound 12287 ∧ v.delivers 12287 sealTok [] ∧ (v.inst 7).live = true ∧ (v.inst 7).unsealed = sheet6 :: []
    ∧ (v.inst 7).editions = [] ∧ (v.inst 7).sheets.find? (fun g => g.ended.isSome && !g.sealed_) = some sheet6
    ∧ (d.inst 7).unsealed = sheet6 :: [] ∧ 5 + 256 < (d.inst 7).ticks
    ∧ (e.inst 7).editions = [edition3] ∧ e.editionReady edition3 = true ∧ (e.inst 7).sheets.all (fun h => h.sealReq.isNone) = true
    ∧ State.reset.direct 0 (Reg.OUT_I_CMD 7) ∧ (State.reset.inst 7).lastEdition = none
    ∧ ((inst_ 7 { lastEdition := some edition3 }).inst 7).lastEdition = some edition3
    ∧ o.outSegs = g :: [] ∧ g.lane = 7 ∧ g.sending = true
    ∧ SMap.find p.sig.gpioEnd 7 = some 100 ∧ 100 ≤ max p.now 100 := by
  unfold State.direct State.delivers State.headSound State.sound
  decide +kernel

/-! ### Witnesses: a smallest load image and stage patch, and the instances -/

/-- Bytes filled with 0 up to a multiple of 64. -/
def pad64 (bs : List Byte) : List Byte := bs ++ List.replicate ((64 - bs.length % 64) % 64) 0
def zeroB (n : Nat) : List Byte := List.replicate n 0

/-- The resources section: column 63, one tag, and token queue 0 with two entries (R73). -/
def resSec : List Byte :=
  zeroB 8 ++ leBytes 8 (2 ^ 63) ++ zeroB 16 ++ leBytes 4 1 ++ leBytes 2 0 ++ leBytes 2 1 ++ zeroB 24
    ++ (leBytes 2 0 ++ [0, 0] ++ leBytes 4 2 ++ zeroB 8)
/-- The stages section: stage 1 with one edge from the inlet (R74). -/
def stageSec : List Byte :=
  leBytes 2 1 ++ zeroB 14 ++ ([1, 0, 2, 0] ++ leBytes 2 1 ++ [0, 0] ++ leBytes 4 1 ++ zeroB 2 ++ leBytes 2 1 ++ zeroB 36
    ++ leBytes 4 80 ++ zeroB 8) ++ ([0, 1, 0, 0] ++ leBytes 2 4 ++ zeroB 4 ++ [0xFF, 0] ++ zeroB 4)

/-- The directory of sections (type, CRC-32C, bytes) from byte `off` on (R72). -/
def dirOf : Nat → List (Nat × Nat × List Byte) → List Byte
  | _, [] => []
  | off, (t, c, b) :: bs =>
    leBytes 2 t ++ [0, 0] ++ leBytes 4 off ++ leBytes 4 b.length ++ leBytes 4 c ++ dirOf (off + (pad64 b).length) bs

/-- A header of 60 bytes with its CRC, the directory, and the sections. -/
def wrap (head : List Byte) (ss : List (Nat × Nat × List Byte)) : List Byte :=
  pad64 (head ++ leBytes 4 (crc32c head).toNat ++ dirOf (64 * ((64 + 16 * ss.length + 63) / 64)) ss) ++ ss.flatMap (fun s => pad64 s.2.2)

/-- A load image of sections 1 to 9 for an engine clock (R69 to R82). -/
def imageBytes (khz : Nat) : List Byte :=
  wrap ([0x56, 0x59, 0x4C, 0x49] ++ leBytes 2 2 ++ zeroB 2 ++ leBytes 4 960 ++ leBytes 2 0x8A ++ [0, 1] ++ leBytes 4 khz ++ leBytes 2 0
    ++ leBytes 2 9 ++ leBytes 8 1 ++ zeroB 28)
    [(1, 0x972FA669, resSec), (2, 0xD1762365, stageSec), (3, 0x8C28B28A, zeroB 8), (4, 0x8C28B28A, zeroB 8), (5, 0x8C28B28A, zeroB 8),
     (6, 0x42709AEA, zeroB 16), (7, 0xA6E304B4, leBytes 4 1000 ++ zeroB 12), (8, 0xC514CFAD, leBytes 2 1 ++ zeroB 6),
     (9, 0x8C28B28A, zeroB 8)]

/-- Instance 7 in state `st`, with image bytes that have come in. -/
def loading (st : InstState) (l : Option (Option (List Byte))) : State :=
  (((inst_ 7 { st := st, load := l }).wr (Reg.INS_I_COLS 7) 0x013F).wr (Reg.INS_I_TAGS 7) 8).wr (Reg.STO_P_CFG 2) 0x87000001

theorem grade_khz : gradeKhz = 1000000 ∨ gradeKhz = 800000 := by
  unfold gradeKhz
  split
  · exact .inl rfl
  · exact .inr rfl

/-- A CRC-32C in two parts. -/
theorem crc_parts (a b : List Byte) (x : Word)
    (h : a.foldl (fun c b => crcShift 0x82F63B78 8 (c ^^^ b.setWidth 32)) 0xFFFFFFFF = x) :
    crc32c (a ++ b) = ~~~ (b.foldl (fun c b => crcShift 0x82F63B78 8 (c ^^^ b.setWidth 32)) x) := by
  subst h
  simp [crc32c, crcOf, List.foldl_append]
theorem crc_resSec : crc32c resSec = 0x972FA669 := by
  rw [← List.take_append_drop 48 resSec, crc_parts _ _ 0x720CE000 (by decide +kernel)]
  decide +kernel
theorem crc_stageSec : crc32c stageSec = 0xD1762365 := by
  rw [← List.take_append_drop 48 stageSec, crc_parts _ _ 0xCAB9C10A (by decide +kernel)]
  decide +kernel

/-- The directory of both images. -/
def dir1 : List Sec := [
  { type := 1, off := 256, len := 80, crc := 0x972FA669 }, { type := 2, off := 384, len := 96, crc := 0xD1762365 },
  { type := 3, off := 512, len := 8, crc := 0x8C28B28A }, { type := 4, off := 576, len := 8, crc := 0x8C28B28A },
  { type := 5, off := 640, len := 8, crc := 0x8C28B28A }, { type := 6, off := 704, len := 16, crc := 0x42709AEA },
  { type := 7, off := 768, len := 16, crc := 0xA6E304B4 }, { type := 8, off := 832, len := 8, crc := 0xC514CFAD },
  { type := 9, off := 896, len := 8, crc := 0x8C28B28A }]

theorem crcs_ok (bs : List Byte) (hd : directory bs = dir1) (h1 : slice bs 256 80 = resSec) (h2 : slice bs 384 96 = stageSec)
    (h3 : ([3, 4, 5, 6, 7, 8, 9] : List Nat).all (fun t => match secOf dir1 t with
      | some x => (crc32c (slice bs x.off x.len)).toNat == x.crc | none => false) = true) : crcsOk bs = true := by
  unfold crcsOk
  rw [hd]
  simp only [dir1, secOf, List.all_cons, List.all_nil, List.find?_cons] at h3 ⊢
  simp_all [crc_resSec, crc_stageSec]

theorem check_first (s : State) (n : Nat) (bs : List Byte) (c1 : headerOk bs false = true) (c2 : partOk bs = true)
    (c3 : directoryOk bs false = true) (c4 : crcsOk bs = true)
    (c5 : s.resourcesOk n (leField bs 0x0F 1) (secBytes bs (directory bs) 1) = true)
    (c6 : s.stagesOk n (parseResources (secBytes bs (directory bs) 1)) (secBytes bs (directory bs) 2) = true)
    (c7 : scheduleOk (parseStages (secBytes bs (directory bs) 2)) (secBytes bs (directory bs) 7) = true) :
    s.checkFirst n bs = .ok () := by
  simp only [State.checkFirst, c1, c2, c3, c4, c5, c6, c7, chk, if_true]
  rfl
theorem check_last (s : State) (n : Nat) (bs : List Byte) (c9 : s.keepOk n (secBytes bs (directory bs) 6) = true)
    (cA : depthOk (secBytes bs (directory bs) 7) (secBytes bs (directory bs) 8) = true)
    (cB : repairsForm (secBytes bs (directory bs) 9) = true) (cP : parseRepairs (secBytes bs (directory bs) 9) = [])
    (cS : secOf (directory bs) 10 = none) (cG : s.signatureOk bs = true) : s.checkLast n bs = .ok () := by
  simp only [State.checkLast, c9, cA, cB, cP, cS, cG, chk, if_true, List.all_nil, Option.isNone_none, Bool.and_true, Bool.true_or]
  rfl
theorem image_weights (bs : List Byte) : (parseImage bs).weights = parseWeights (secBytes bs (directory bs) 4) := rfl
theorem check_image (s : State) (n : Nat) (bs : List Byte) (h1 : s.checkFirst n bs = .ok ())
    (h2 : s.codeOk n (secBytes bs (directory bs) 2) (secBytes bs (directory bs) 3) (secBytes bs (directory bs) 4)
      (secBytes bs (directory bs) 5) = true)
    (h3 : (s.writeImage n (parseImage bs)).weightsOk (parseImage bs).weights = true) (h4 : s.checkLast n bs = .ok ()) :
    ∃ im t, s.checkImage n bs = .ok (im, t) := by
  refine ⟨parseImage bs, s.writeImage n (parseImage bs), ?_⟩
  simp only [State.checkImage, h1, h2, h3, h4, chk, if_true]
  rfl

/-- Both images pass every check of R85. -/
theorem image_ok (khz : Nat) (hk : khz = 1000000 ∨ khz = 800000) (h : gradeKhz = khz) :
    ∃ im t, (loading .loading (some (some (imageBytes khz)))).checkImage 7 (imageBytes khz) = .ok (im, t) := by
  have hd : directory (imageBytes khz) = dir1 := by rcases hk with rfl | rfl <;> decide +kernel
  have s1 : slice (imageBytes khz) 256 80 = resSec := by rcases hk with rfl | rfl <;> decide +kernel
  have s2 : slice (imageBytes khz) 384 96 = stageSec := by rcases hk with rfl | rfl <;> decide +kernel
  have s3 : ([3, 4, 5, 6, 7, 8, 9] : List Nat).map (fun t => secBytes (imageBytes khz) dir1 t)
      = [zeroB 8, zeroB 8, zeroB 8, zeroB 16, leBytes 4 1000 ++ zeroB 12, leBytes 2 1 ++ zeroB 6, zeroB 8] := by
    rcases hk with rfl | rfl <;> decide +kernel
  have c1 : headerOk (imageBytes khz) false = true := by rcases hk with rfl | rfl <;> decide +kernel
  have c2 : partOk (imageBytes khz) = true := by
    unfold partOk
    rw [h]
    rcases hk with rfl | rfl <;> decide +kernel
  have c3 : directoryOk (imageBytes khz) false = true := by rcases hk with rfl | rfl <;> decide +kernel
  have c4 : crcsOk (imageBytes khz) = true := by
    refine crcs_ok _ hd s1 s2 ?_
    rcases hk with rfl | rfl <;> decide +kernel
  have e1 : secBytes (imageBytes khz) dir1 1 = resSec := s1
  have e2 : secBytes (imageBytes khz) dir1 2 = stageSec := s2
  simp only [List.map_cons, List.map_nil, List.cons.injEq, and_true] at s3
  obtain ⟨e3, e4, e5, e6, e7, e8, e9⟩ := s3
  have hdiv : leField (imageBytes khz) 0x0F 1 = 1 := by rcases hk with rfl | rfl <;> decide +kernel
  have c5 : (loading .loading (some (some (imageBytes khz)))).resourcesOk 7 1 resSec = true := by
    rcases hk with rfl | rfl <;> decide +kernel
  have c6 : (loading .loading (some (some (imageBytes khz)))).stagesOk 7 (parseResources resSec) stageSec = true := by
    rcases hk with rfl | rfl <;> decide +kernel
  have c7 : scheduleOk (parseStages stageSec) (leBytes 4 1000 ++ zeroB 12) = true := by
    unfold scheduleOk fitsPeriod
    simp only [h]
    rcases hk with rfl | rfl <;> decide +kernel
  have c8 : (loading .loading (some (some (imageBytes khz)))).codeOk 7 stageSec (zeroB 8) (zeroB 8) (zeroB 8) = true := by
    rcases hk with rfl | rfl <;> decide +kernel
  have cw (u : State) : u.weightsOk (parseImage (imageBytes khz)).weights = true := by
    have h4 : parseWeights (zeroB 8) = [] := by decide +kernel
    rw [image_weights, hd, e4, h4]
    rfl
  have c9 : (loading .loading (some (some (imageBytes khz)))).keepOk 7 (zeroB 16) = true := by
    rcases hk with rfl | rfl <;> decide +kernel
  have cA : depthOk (leBytes 4 1000 ++ zeroB 12) (leBytes 2 1 ++ zeroB 6) = true := by decide +kernel
  have cB : repairsForm (zeroB 8) = true := by decide +kernel
  have cP : parseRepairs (zeroB 8) = [] := by decide +kernel
  have cS : secOf dir1 10 = none := by decide +kernel
  have cG : (loading .loading (some (some (imageBytes khz)))).signatureOk (imageBytes khz) = true := by
    unfold State.signatureOk
    rw [hd]
    rcases hk with rfl | rfl <;> decide +kernel
  refine check_image _ _ _ (check_first _ _ _ c1 c2 c3 c4 ?_ ?_ ?_) ?_ (cw _) (check_last _ _ _ ?_ ?_ ?_ ?_ ?_ cG)
  · rw [hd, e1, hdiv]; exact c5
  · rw [hd, e1, e2]; exact c6
  · rw [hd, e2, e7]; exact c7
  · rw [hd, e2, e3, e4, e5]; exact c8
  · rw [hd, e6]; exact c9
  · rw [hd, e7, e8]; exact cA
  · rw [hd, e9]; exact cB
  · rw [hd, e9]; exact cP
  · rw [hd]; exact cS

theorem check_bad (s : State) (n : Nat) (bs : List Byte) (h : headerOk bs false = false) : s.checkImage n bs = .error 1 := by
  simp only [State.checkImage, State.checkFirst, h, chk]
  rfl

/-- A committed boot image with index 0. -/
def bootTxn : Txn := { num := 8, kind := 3, part := 1, inst := 0xFF, payload := [1], phase := 2, pages := [3] }
/-- Instance 7 exists, unloaded, after the mapping of the store. -/
def unloaded_ (mapped : Bool) (src : Word) : State :=
  let s := (loading .unloaded none).wr (Reg.INS_I_LOAD_SRC 7) src
  { s with hif := { s.hif with vfEnabled := 0x80 }, sig := { s.sig with mapped := mapped }, store := { s.store with txns := [bootTxn] } }

theorem witness_LoadingInstances :
    let u := unloaded_ true 0
    let l := loading .loading none
    let bad := loading .loading (some (some []))
    let a := Reg.INS_I_ENGINES_LO 7
    let o := (u.wr (Reg.INS_I_ENGINES_LO 6) 1).wr (Reg.INS_I_COLS 6) 0x0100
    (u.inst 7).st = .unloaded ∧ u.instExists 7 = true ∧ u.flt.down = false ∧ u.sig.mapped = true ∧ u.tdm.takeover = false
    ∧ u.bit (Reg.INS_I_LOAD_SRC 7) 31 = false ∧ u.direct 0 a ∧ (regAt a).any (fun d => wd d.prv &&& beMask 15 != 0) = true
    ∧ u.direct 0 (Reg.INS_I_LOAD_SRC 7) ∧ 0x800000FF &&& beMask 15 ≠ 0 ∧ u.direct 0 (Reg.INS_I_CMD 7)
    ∧ (unloaded_ false 0).sig.mapped = false ∧ (unloaded_ false 0).direct 0 (Reg.INS_I_CMD 7)
    ∧ (unloaded_ true 0x80000000).bit (Reg.INS_I_LOAD_SRC 7) 31 = true
    ∧ (unloaded_ true 0x80000000).bootImage ((unloaded_ true 0x80000000).fld (Reg.INS_I_LOAD_SRC 7) 7 0) = some bootTxn
    ∧ (unloaded_ true 0x80000000).direct 0 (Reg.INS_I_CMD 7)
    ∧ u.unitTaken 7 a (merge (u.rd a) 1 15) = false ∧ o.unitTaken 7 a (merge (o.rd a) 1 15) = true ∧ o.direct 0 a
    ∧ (o.inst 7).st = .unloaded ∧ u.direct 0 (Reg.INS_I_COLS 7) ∧ o.direct 0 (Reg.INS_I_COLS 7)
    ∧ u.unitTaken 7 (Reg.INS_I_COLS 7) 0x013F = false ∧ o.unitTaken 7 (Reg.INS_I_COLS 7) 0x0100 = true
    ∧ ((loading .loading (some none)).sig.boot = 0 ∨ 7 ≠ 0)
    ∧ l.direct 0 a ∧ l.direct 0 (Reg.INS_I_LOAD_SRC 7) ∧ (l.inst 7).st ≠ .unloaded ∧ l.direct 0 (Reg.INS_I_CMD 7)
    ∧ ((loading .loading (some none)).inst 7).load = some none ∧ ((loading .loading (some none)).inst 7).st = .loading
    ∧ (bad.inst 7).load = some (some []) ∧ headerOk [] false = false
    ∧ ∀ khz, ((loading .loading (some (some (imageBytes khz)))).inst 7).load = some (some (imageBytes khz)) := by
  unfold State.direct
  repeat' apply And.intro
  all_goals first | decide +kernel | exact fun _ => rfl

/-! #### Release, reset, reload -/

theorem filter_none {α : Type} : ∀ l : List α, l.filter (fun _ => false) = []
  | [] => rfl
  | _ :: l => filter_none l
theorem check_patch (s : State) (n sid : Nat) (bs : List Byte) (im : Image) (d : StageDesc) (h0 : (s.inst n).image = some im)
    (h1 : (s.inst n).stageDesc sid = some d) (c1 : headerOk bs true = true)
    (c2 : (leField bs 0x24 1 == sid && leField bs 0x18 8 == im.imageId) = true) (c3 : directoryOk bs true = true)
    (c4 : crcsOk bs = true) (c5 : fitsPeriod (leField bs 0x28 4) im.brake im.floor im.pmin = true) (c6 : s.patchCodeOk n d bs = true)
    (c7 : (if (secOf (directory bs) 4).isSome then parseWeights (secBytes bs (directory bs) 4) else []) = [])
    (c8 : s.signatureOk bs = true) : ∃ p, s.checkPatch n sid bs = .ok p := by
  simp only [State.checkPatch, h0, h1, c1, c2, c3, c4, c5, c6, c7, c8, chk, if_true, List.foldl_nil, List.any_nil, Bool.and_false,
    State.weightsOk, filter_none, List.filter_nil, List.all_nil]
  exact ⟨_, rfl⟩

theorem check_patch_bad (s : State) (n sid : Nat) (bs : List Byte) (h : headerOk bs true = false) : s.checkPatch n sid bs = .error 1 := by
  simp only [State.checkPatch, h, chk]
  rfl

/-- A patch of stage 1 of image 1 with an empty section of weights (R301). -/
def patchBytes : List Byte :=
  wrap ([0x56, 0x59, 0x4C, 0x50] ++ leBytes 2 2 ++ zeroB 2 ++ leBytes 4 192 ++ zeroB 8 ++ leBytes 2 0 ++ leBytes 2 1 ++ leBytes 8 1
    ++ zeroB 4 ++ [1] ++ zeroB 23) [(4, 0x8C28B28A, zeroB 8)]

/-- Instance 7 of `image1`, in state `st`, at release step `rel`, with a reload in hand. -/
def reloading (st : InstState) (rel : Nat) (r : Option (Option (List Byte))) (g : Stage) : State :=
  let s := ((window5 (inst_ 7 { st := st, relStep := rel, image := some image1, stages := [g], reload := r, reloadAt := (5, 0, 0) })).wr
    (Reg.INS_I_RELOAD 7) 0x501).wr (Reg.INS_I_RELOAD_STAT 7) 0x100
  { s with mem := ((List.range 192).map (fun k => (memAddr .bulk 3 0 + k, patchBytes.getD k 0))).filter (fun c => c.2 != 0)
           hif := { s.hif with vfEnabled := 0x80 }, hostMem := (List.range 64).map (fun j => (j, BitVec.ofNat 8 j)) }
def patching : State := reloading .running 0 (some (some patchBytes)) { id := 1, st := .running }

theorem patch_ok : ∃ p, patching.checkPatch 7 (patching.fld (Reg.INS_I_RELOAD_STAT 7) 15 8)
    (patching.rdBytes (memAddr .bulk 3 0) patchBytes.length) = .ok p := by
  have e : patching.rdBytes (memAddr .bulk 3 0) patchBytes.length = patchBytes := by decide +kernel
  have f : patching.fld (Reg.INS_I_RELOAD_STAT 7) 15 8 = 1 := by decide +kernel
  rw [e, f]
  refine check_patch _ _ _ _ image1 stage1 rfl rfl ?_ ?_ ?_ ?_ ?_ ?_ ?_ ?_ <;> try decide +kernel
  unfold fitsPeriod
  rcases grade_khz with h | h <;> rw [h] <;> decide +kernel

theorem witness_ReleaseResetReload :
    let g : Stage := { id := 1, st := .running }
    let h (k : Nat) := reloading .held k none g
    let b := (reloading .running 0 none g).wr (Reg.INS_I_LOAD_LEN 7) 64
    let p := patching
    (h 0).direct 0 (Reg.INS_I_CMD 7) ∧ ((h 0).inst 7).st = .held ∧ ((h 0).inst 7).relStep = 0
    ∧ (loading .loading none).direct 0 (Reg.INS_I_CMD 7) ∧ ((loading .loading none).inst 7).st = .loading
    ∧ p.direct 0 (Reg.INS_I_CMD 7) ∧ (p.inst 7).st ≠ .held ∧ (p.inst 7).st ≠ .loading ∧ (p.inst 7).st ≠ .unloaded
    ∧ (p.inst 7).st ≠ .resetting ∧ (p.inst 7).live = true ∧ p.bit (Reg.INS_I_CMD 7) 3 = false ∧ p.tdm.takeover = false
    ∧ (p.placeHost []).hostSource 7 = none ∧ b.direct 0 (Reg.INS_I_CMD 7) ∧ (b.inst 7).live = true ∧ b.bit (Reg.INS_I_CMD 7) 3 = false
    ∧ ((b.placeHost []).hostSource 7).map List.length = some 64 ∧ b.tdm.takeover = false
    ∧ b.fld (Reg.INS_I_RELOAD 7) 15 8 = 5 ∧ b.fld (Reg.INS_I_RELOAD_OFF 7) 31 6 * 64 + 64 ≤ 0x10000
    ∧ b.window 7 5 = some { valid := true, owner := 7, id := 5, die := 3, base := 0, size := 0x10000, access := 7 } := by
  unfold State.direct
  decide +kernel

theorem witness_ReleaseResetReload_later :
    let g : Stage := { id := 1, st := .running }
    let h (k : Nat) := reloading .held k none g
    let r := reloading .resetting 0 none g
    let d := reloading .running 0 none { g with relStep := 3, change := some { patch := none } }
    let p := patching
    let b := reloading .running 0 (some (some (zeroB 63))) g
    headerOk (b.rdBytes (memAddr .bulk 3 0) 63) true = false ∧ (b.inst 7).reload = some (some (zeroB 63)) ∧ b.clean
    ∧ ((h 1).inst 7).relStep = 1 ∧ ((h 1).inst 7).st = .held ∧ ((h 1).inst 7).image = some image1 ∧ ((h 2).inst 7).relStep = 2
    ∧ (r.inst 7).st = .resetting ∧ r.programsLeft 7 = false ∧ r.swapBusy 7 = false
    ∧ ((reloading .running 0 (some none) g).inst 7).reload = some none
    ∧ p.clean ∧ (p.inst 7).reload = some (some patchBytes)
    ∧ p.reloadPlace 7 patchBytes.length = some ({ valid := true, owner := 7, id := 5, die := 3, base := 0, size := 0x10000, access := 7 }, 0)
    ∧ p.reloadReady 7 (p.inst 7).reloadAt.2.2 = true
    ∧ (p.inst 7).stage (p.fld (Reg.INS_I_RELOAD_STAT 7) 15 8) = some g ∧ g.armed = none ∧ (p.inst 7).st = .running
    ∧ (d.inst 7).stage 1 = some { g with relStep := 3, change := some { patch := none } } ∧ (d.inst 7).live = true ∧ (d.inst 7).plan = none
    ∧ p.fnOn 8 = true := by
  unfold State.clean
  decide +kernel

/-- A patch of stage 1 that has one program, which starts at byte 8 of the window, for core 127. -/
def progPatch : Patch :=
  { imageId := 1, stage := 1, workCycles := 2, weights := [], addrProgs := [], progAt := 8
    programs := some [{ profile := 1, stage := 1, entry := 0, bytes := zeroB 8, first := 127, count := 1, rowMask := 0, pos := 16 }] }
/-- Stage 1 at release step `k` of its reload with that patch, or the same patch without programs. -/
def rewriting (k : Nat) (code : Bool) : Stage :=
  { id := 1, st := .reloading, relStep := k
    change := some { patch := some (if code then progPatch else { progPatch with programs := none }), src := memAddr .bulk 3 0 } }

theorem witness_StagesAndSpares :
    let s (g : Stage) : State := reloading .running 0 none g
    let w : Stage := { id := 1, st := .running, working := some slot40 }
    let d : Stage := { id := 1, st := .draining }
    ((s w).inst 7).stage 1 = some w ∧ w.working.isSome = true ∧ (∀ h ∈ ((s w).inst 7).stages, h.marks = [])
    ∧ ((s d).inst 7).stage 1 = some d ∧ ((s d).inst 7).stageDesc 1 = some stage1 ∧ (s d).drained 7 1 = true
    ∧ (∀ code ∈ [true, false], ∀ k ∈ [0, 1, 2], let g := rewriting k code
        ((s g).inst 7).stage 1 = some g ∧ ((s g).inst 7).stageDesc 1 = some stage1
        ∧ ((s g).inst 7).image = some image1 ∧ g.relStep = k ∧ g.waiting = [] ∧ g.st = .reloading ∧ (s g).clean
        ∧ (g.change.map (fun c => decide ((s g).reloadReady 7 c.queue = true))) = some true
        ∧ (g.change.bind (fun c => c.patch)).map (fun p => (p.stage, p.weights.length, p.addrProgs.length)) = some (1, 0, 0)) := by
  unfold State.clean
  decide +kernel

/-- Spare 67 of the engines and 65 of the columns are free. -/
def spares : State := State.reset.modFlt (fun _ => { engFree := [67], colFree := [65] })

theorem witness_StagesAndSpares_spares :
    let z := spares
    let n := z.modFlt (fun f => { f with engFree := [], colFree := [] })
    let i : State := (((inst_ 7 { st := .running, image := some image1, stages := [{ id := 1 }] }).wr (Reg.INS_I_ENGINES_HI 7) 0x80000000).wr
      (Reg.INS_I_COLS 7) 0x013F).modFlt (fun _ => {})
    let e (k : Nat) := (z.modEngine 63 (fun g => { g with swap := k })).modFlt (fun f => { f with engRepair := some (63, 67) })
    let t (on : Bool) := z.modFlt (fun f => { f with takeover := some { col := 63, toCol := 65, back := false, on := on } })
    z.direct 0 Reg.INS_REPAIR ∧ z.repairBusy = false ∧ z.flt.engFree = 67 :: [] ∧ z.flt.colFree = 65 :: []
    ∧ n.direct 0 Reg.INS_REPAIR ∧ n.repairBusy = false ∧ n.flt.engFree = [] ∧ n.flt.colFree = [] ∧ n.unitStage 0 63 = none ∧ n.unitStage 1 63 = none
    ∧ i.direct 0 Reg.INS_REPAIR ∧ i.repairBusy = false ∧ i.unitStage 0 63 = some (7, stage1) ∧ i.unitStage 1 63 = some (7, stage1)
    ∧ i.flt.engFree = [] ∧ i.flt.colFree = []
    ∧ (e 0).flt.repairWait = [] ∧ (e 0).engPhys 63 ≠ 67 ∧ (e 0).engPhys 63 < 68 ∧ (e 0).copyMayStart 0 63 = true ∧ ((e 0).engine 63).swap < 2
    ∧ ((e 0).engine 63).epis = [] ∧ ((e 2).engine 63).swap = 2 ∧ (e 2).engPhys 63 ≠ 67 ∧ Memory.wf (e 2) = true
    ∧ (t false).colPhys 63 ≠ 65 ∧ (t false).colPhys 63 < 66 ∧ (t false).copyMayStart 1 63 = true ∧ (t true).colPhys 63 ≠ 65
    ∧ Memory.wf (t true) = true := by
  unfold State.direct
  decide +kernel

/-! ### Witnesses: the record store -/

/-- The store in state `st` with some of its parts given, over the targets of `mask`. -/
def sto (mask : Word) (st : Nat) (f : Store → Store) : State := { with_ Reg.STO_TARGETS mask with store := f { st := st } }
/-- A journal page, and a page of transaction 8. -/
def jPage : Page := { kind := 2, part := 0, seq := 0, txn := 0, index := 0, payload := [] }
def dPage : Page := { kind := 3, part := 2, seq := 0, txn := 8, index := 0, payload := [1] }
/-- A program of page `a`, the first of block 16, in hand; transaction 8 in a phase. -/
def programming (p : Page) (commits : List Nat) (phase : Nat) : State :=
  sto 1 2 (fun y => { y with todo := [{ addr := 0x10000, page := p, commits := commits }], txns := [ckpt phase], nextTxn := 9
                             blocks := [(16, { st := 1 })] })
/-- Block 16 is to be erased, and block 17 only holds nothing that lives. -/
def erasing : State := sto 1 2 (fun y => { y with erasing := [16], blocks := [(16, { st := 1 }), (17, { st := 1 })] })
/-- Page 5 of block 0, or a scan of it. -/
def scanning : State :=
  let s := sto 1 2 (fun y => { y with pages := [(5, dPage)], txns := [{ ckpt 2 with pages := [5] }], blocks := [(0, { st := 2 })]
                                      jobs := [{ op := 0x12, fn := 0, tag := 0, part := 0, txn := 0, addr := 5, offset := 0, length := 0, got := []
                                                 pages := [(5, 1)], bad := false }] })
  s.wr Reg.STO_CTRL 0x101
/-- A medium with superblock 3, whose map object is transaction 8 at page 16,384; the journal starts at block 20, with no page yet. -/
def medium (st : Nat) : State :=
  sto 1 st (fun y => { y with
    pages := [(0, { kind := 1, part := 0, seq := 5, txn := 0, index := 0
                    payload := leBytes 4 1 ++ leBytes 4 3 ++ zeroB 24 ++ leBytes 4 16384 ++ leBytes 8 4 ++ leBytes 4 (4096 * 20) ++ zeroB 16 }),
              (16384, { dPage with seq := 4 })]
    maps := [(8, { txns := [{ ckpt 2 with onMedium := 1, pages := [16384] }], blocks := [(4, { st := 1 })], seq := 4, jaddr := 4096 * 20, next := 9 })]
    jchain := [(20, 20, 21)] })

theorem witness_StoreMediumEvents :
    let z := State.reset
    let close := sto 1 2 (fun y => { y with jopen := some (4096 * 20, 4096 * 21) })
    let o := sto 1 1 id
    let init := sto 1 0 (fun y => { y with initing := true })
    z.direct 0 Reg.STO_CMD ∧ z.flt.down = false ∧ (∀ st ∈ [0, 1, 2, 3, 4], (sto 1 st id).direct 0 Reg.STO_CMD ∧ (sto 1 st id).store.st = st)
    ∧ close.store.todo = [] ∧ close.store.unplaced = [] ∧ close.store.txns = [] ∧ close.store.jbuf = [] ∧ close.store.jopen = some (81920, 86016)
    ∧ close.targets.headD 0 = 0 ∧ 81920 % 4096 + 1 < 64
    ∧ init.store.initing = true ∧ o.store.st = 1 ∧ o.store.todo = [] ∧ o.store.unplaced = [] ∧ o.targets = [0] ∧ (o.rebuild []).isNone = true
    ∧ (sto 0 1 id).targets = [] ∧ (sto 0 1 id).store.st = 1
    ∧ (medium 1).store.st = 1 ∧ (medium 1).targets = [0]
    ∧ (medium 1).store.todo = [] ∧ (medium 1).store.unplaced = [] ∧ (medium 1).store.unread = []
    ∧ (medium 1).readerOf 16384 = none ∧ SMap.find (medium 1).store.pages 16384 = some { dPage with seq := 4 }
    ∧ ((medium 1).rebuild [16384]).isNone = true
    ∧ ((medium 1).rebuild []).map (fun q => (q.1.nextTxn, q.1.jpages, q.1.txns.map (·.phase), q.2)) = some (9, 0, [2], 0) := by
  unfold State.direct
  decide +kernel

/-- A geometry of R308 leaves the mount a journal page to write next, and a close room for its entry. -/
theorem witness_StoreMediumEvents_journal (h : 64 ≤ (Config.nandParam 0).pages) :
    ((medium 1).rebuild []).map (fun q => q.1.jopen.isSome) = some true ∧ 81920 % 4096 + 1 < (Config.nandParam 0).pages := by
  have e : ((medium 1).rebuild []).map (fun q => q.1.jopen)
      = some (if (decide (0 < (Config.nandParam 0).pages) && true && true) = true then some (81920, 86016) else none) := rfl
  have p : 0 < (Config.nandParam 0).pages := by omega
  refine ⟨?_, by omega⟩
  simp only [p, decide_true, Bool.and_self, if_true, Option.map_eq_some_iff] at e ⊢
  obtain ⟨a, h1, h2⟩ := e
  exact ⟨a, h1, by rw [h2]; rfl⟩

theorem witness_StoreMediumEvents_programs :
    let j := programming jPage [8] 1
    let d := programming dPage [] 0
    let x := scanning
    let job : PageJob := { addr := 0x10000, page := jPage, commits := [8] }
    j.store.todo.find? (fun k => k.addr == 0x10000) = some job ∧ j.startable job = true
    ∧ (∀ k ∈ j.store.todo, blockOf k.addr = 16 → 0x10000 ≤ k.addr)
    ∧ (∀ k ∈ j.store.todo, k.addr ≠ 0x10000 → k.page.kind = 2 → k.page.seq ≠ 0)
    ∧ j.txn 8 = some (ckpt 1) ∧ 8 < j.store.nextTxn ∧ j.store.hold = 0 ∧ j.store.closing = none ∧ job.old = none
    ∧ d.store.todo.find? (fun k => k.addr == 0x10000) = some { job with page := dPage, commits := [] }
    ∧ d.startable { job with page := dPage, commits := [] } = true ∧ d.txn dPage.txn = some (ckpt 0) ∧ d.store.hold = 0
    ∧ erasing.eraseable 16 = true ∧ erasing.eraseable 17 = true
    ∧ x.bit Reg.STO_CTRL 8 = true ∧ x.store.st = 2 ∧ SMap.find x.store.pages 5 = some dPage ∧ x.livePage 5 = true
    ∧ (x.readerOf 5).map (fun r => (r.1.op, r.1.pages, r.2)) = some (0x12, [(5, 1)], 0)
    ∧ (x.blk (blockOf 5)).reads + 1 < (x.rd Reg.STO_RD_LIMIT).toNat ∧ (x.blk (blockOf 5)).st = 2 ∧ blockOf 5 ∉ x.store.halving
    ∧ x.storeOpen = true ∧ (x.txn 8).any (fun v => v.pages.contains 5) = true := by
  decide +kernel

/-! #### Pages as the medium gives them -/

theorem zeros_get : ∀ (l : List Nat), l.all (· == 0) = true → ∀ k, l.getD k 0 = 0
  | [], _, _ => rfl
  | a :: l, h, 0 => by simp at h ⊢; exact h.1
  | a :: l, h, k + 1 => by simp at h; exact zeros_get l (by simpa using h.2) k
theorem gf_zero (b n : Nat) : gfMulN 0 b n = 0 := by
  induction n generalizing b with
  | zero => rfl
  | succ n ih => simp [gfMulN, ih]
theorem eval_high (c a k m : Nat) (h : c < 2 ^ k) : evalAt c a (k + m) 0 = evalAt c a k 0 := by
  induction m with
  | zero => rfl
  | succ m ih =>
    have hb : c.testBit (k + m) = false := Nat.testBit_lt_two_pow (Nat.lt_of_lt_of_le h (Nat.pow_le_pow_right (by omega) (by omega)))
    rw [← ih, ← Nat.add_assoc]
    simp [evalAt, hb, gfMul, gf_zero]
theorem bch_clean (c : Nat) (ss : List Nat) (h : ss.all (· == 0) = true) : bchCorrect c ss = some (c, 0) := by
  rw [bchCorrect, if_pos h]
theorem bch_zero : bchDecode 0 = some (0, 0) := by
  have h : (syndromes 0).all (· == 0) = true := by
    simp only [syndromes, List.all_map, List.all_eq_true, Function.comp]
    intro j _
    have := eval_high 0 (gfExp (j + 1)) 0 9092 (by omega)
    simp only [Nat.zero_add] at this
    rw [this]
    rfl
  rw [bchDecode, bch_clean _ _ h]
theorem le_zero (n : Nat) : leBytes n 0 = List.replicate n 0 := by
  induction n with
  | zero => rfl
  | succ n ih => simp [leBytes, ih, List.replicate_succ]
theorem sector_some (raw : List Byte) (c v : Nat) (h : bchDecode (sectorWord raw) = some (c, v)) :
    sectorDecode raw = (beBytes 1024 (c / 2 ^ 900), some v) := by
  rw [sectorDecode, h, sectorData]
theorem sector_none (raw : List Byte) (h : bchDecode (sectorWord raw) = none) : (sectorDecode raw).2 = none := by
  rw [sectorDecode, h, sectorData]
theorem massey_none (c : Nat) (x : Massey) (h : 61 ≤ x.l) : x.correct c = none := by
  unfold Massey.correct
  simp only
  rw [if_neg (by omega)]
theorem bch_none (c : Nat) (ss : List Nat) (k : Nat) (h : ss.getD k 0 ≠ 0) (hl : 61 ≤ (errorLocator ss).l) : bchCorrect c ss = none := by
  rw [bchCorrect, if_neg (fun a => h (zeros_get ss a k)), massey_none _ _ hl]
theorem be_zero (n m : Nat) : beBytes n (0 / m) = List.replicate n 0 := by
  rw [Nat.zero_div, beBytes, le_zero, List.reverse_replicate]
theorem sector_zero : sectorDecode [] = (List.replicate 1024 0, some 0) := by
  have h : sectorWord [] = 0 := rfl
  rw [sector_some [] 0 0 (by rw [h]; exact bch_zero), be_zero]
theorem take_replicate (n m : Nat) (b : Byte) (l : List Byte) (h : n ≤ m) : (List.replicate m b ++ l).take n = List.replicate n b := by
  simp [List.take_append_of_le_length, h]
theorem filterMap_const {α β : Type} (x : β) : ∀ l : List α, (l.filterMap (fun _ => some x)).length = l.length
  | [] => rfl
  | _ :: l => by simp

/-- A page that was never programmed: no sector fails, and it has no magic. -/
theorem witness_StoreMediumEvents_erased : (decodePage []).programmed = false ∧ (decodePage []).uncorrectable = 0 := by
  have h : ∀ j, sectorDecode (slice [] (1137 * j) 1137) = (List.replicate 1024 0, some 0) := by
    intro j
    rw [show slice ([] : List Byte) (1137 * j) 1137 = [] by rw [slice, List.drop_nil, List.take_nil]]
    exact sector_zero
  have hr : List.range 16 = 0 :: (List.range 15).map (· + 1) := by decide
  constructor
  · simp only [decodePage, h]
    rw [hr, List.map_cons, List.flatMap_cons, take_replicate 4 1024 0 _ (by omega)]
    decide
  · simp only [decodePage, h, List.filterMap_map, Function.comp_def, filterMap_const, List.length_range]

theorem massey_mono (ss : List Nat) (x : Massey) (n : Nat) : x.l ≤ (Massey.step ss x n).l := by
  unfold Massey.step
  dsimp only
  split
  · exact Nat.le_refl _
  · split
    · dsimp only
      omega
    · exact Nat.le_refl _
theorem massey_fold (ss : List Nat) : ∀ (l : List Nat) (x : Massey), x.l ≤ (l.foldl (Massey.step ss) x).l
  | [], _ => Nat.le_refl _
  | n :: l, x => Nat.le_trans (massey_mono ss x n) (massey_fold ss l _)
theorem massey_zeros (ss : List Nat) (n : Nat) (h : ∀ k, k < n → ss.getD k 0 = 0) :
    (List.range n).foldl (Massey.step ss) { c := [1], b := [1], l := 0, m := 1, d := 1 } = { c := [1], b := [1], l := 0, m := 1 + n, d := 1 } := by
  induction n with
  | zero => rfl
  | succ n ih =>
    rw [List.range_succ, List.foldl_append, ih (fun k hk => h k (by omega))]
    have h0 := h n (by omega)
    simp only [List.foldl_cons, List.foldl_nil, Massey.step, Nat.zero_add, List.range_one, Nat.sub_zero, h0]
    have z : gfMul (([1] : List Nat).getD 0 0) 0 = 0 := by decide
    have z' : gfMul 1 0 = 0 := z
    simp [z', Nat.add_assoc]

theorem locator_long (ss : List Nat) (z : ∀ k, k < 60 → ss.getD k 0 = 0) (h : gfMul 1 (ss.getD 60 0) ≠ 0) :
    61 ≤ (errorLocator ss).l := by
  have hr : List.range 120 = List.range 60 ++ (60 :: (List.range 59).map (61 + ·)) := by decide
  unfold errorLocator
  rw [hr, List.foldl_append, massey_zeros _ _ z, List.foldl_cons]
  refine Nat.le_trans ?_ (massey_fold _ _ _)
  have hd : gfMul (([1] : List Nat).getD 0 0) (ss.getD 60 0) ≠ 0 := h
  simp only [Massey.step, Nat.zero_add, List.range_one, List.foldl_cons, List.foldl_nil, Nat.sub_zero, Nat.zero_xor, hd, if_false]
  rw [if_pos (by omega)] <;> exact Nat.le_refl 61

/-- A product of minimal polynomials: zero at α to α^60 and not at α^61. -/
def wrong : Nat := 2920256786456371917196518143545916814360672984274114115708729913917248361375898404609966381997575156515336904043183387712863173378239479
/-- Its sector, of which only the last bytes count. -/
def wrongRaw : List Byte := (beBytes 58 (16 * wrong)).map (fun b => ~~~ b)
/-- `gfMulN` without case splits. -/
def gfMulFlat (a b : Nat) : Nat → Nat
  | 0 => 0
  | n + 1 =>
    let t := 2 * gfMulFlat a (b / 2) n
    t ^^^ (0x8003 * (t / 0x8000 % 2)) ^^^ (a * (b % 2))
theorem gf_flat (a b n : Nat) : gfMulFlat a b n = gfMulN a b n := by
  induction n generalizing b with
  | zero => rfl
  | succ n ih =>
    simp only [gfMulFlat, gfMulN, ih, Nat.testBit, Nat.shiftRight_eq_div_pow, Nat.one_and_eq_mod_two, Nat.pow_zero, Nat.div_one, show 2 ^ 15 = 0x8000 from rfl]
    generalize 2 * gfMulN a (b / 2) n = t
    obtain h | h := Nat.mod_two_eq_zero_or_one (t / 0x8000) <;> obtain h' | h' := Nat.mod_two_eq_zero_or_one b <;> simp [h, h']
/-- `evalAt`, which looks at its value in every step, so that the kernel keeps it as a number. -/
def evalSeen (c a : Nat) : Nat → Nat → Nat
  | 0, t => t
  | n + 1, t => if t = t + 1 then 0 else evalSeen c a n (gfMulFlat t a 15 ^^^ (c / 2 ^ n % 2))
theorem eval_seen (c a n t : Nat) : evalSeen c a n t = evalAt c a n t := by
  induction n generalizing t with
  | zero => rfl
  | succ n ih =>
    have h : c / 2 ^ n % 2 = if c.testBit n then 1 else 0 := by
      rw [Nat.testBit, Nat.shiftRight_eq_div_pow, Nat.one_and_eq_mod_two]
      obtain h | h := Nat.mod_two_eq_zero_or_one (c / 2 ^ n) <;> simp [h]
    simp [evalSeen, evalAt, ih, gf_flat, gfMul, h]
/-- `wrong` is zero at ten powers of α, from α^(k + 1) on. -/
def wrongTen (k : Nat) : Bool := (List.range 10).all (fun j => evalSeen wrong (gfExp (k + j + 1)) 451 0 == 0)
theorem wrong_ten0 : wrongTen 0 = true := by decide +kernel
theorem wrong_ten1 : wrongTen 10 = true := by decide +kernel
theorem wrong_ten2 : wrongTen 20 = true := by decide +kernel
theorem wrong_ten3 : wrongTen 30 = true := by decide +kernel
theorem wrong_ten4 : wrongTen 40 = true := by decide +kernel
theorem wrong_ten5 : wrongTen 50 = true := by decide +kernel
theorem wrong_ten (i k : Nat) (h : wrongTen i = true) (a : i ≤ k) (b : k < i + 10) : evalAt wrong (gfExp (k + 1)) 451 0 = 0 := by
  have := List.all_eq_true.mp h (k - i) (by simp; omega)
  rw [eval_seen, show i + (k - i) = k by omega] at this
  simpa using this
theorem wrong_values (k : Nat) (h : k < 60) : evalAt wrong (gfExp (k + 1)) 451 0 = 0 := by
  by_cases h3 : k < 30
  · by_cases h1 : k < 10
    · exact wrong_ten 0 k wrong_ten0 (by omega) (by omega)
    · by_cases h2 : k < 20
      · exact wrong_ten 10 k wrong_ten1 (by omega) (by omega)
      · exact wrong_ten 20 k wrong_ten2 (by omega) (by omega)
  · by_cases h1 : k < 40
    · exact wrong_ten 30 k wrong_ten3 (by omega) (by omega)
    · by_cases h2 : k < 50
      · exact wrong_ten 40 k wrong_ten4 (by omega) (by omega)
      · exact wrong_ten 50 k wrong_ten5 (by omega) (by omega)
theorem wrong_next : evalAt wrong (gfExp 61) 451 0 ≠ 0 ∧ gfMul 1 (evalAt wrong (gfExp 61) 451 0) ≠ 0 := by
  simp only [← eval_seen]
  decide +kernel
theorem wrong_small : wrong < 2 ^ 451 := by
  decide +kernel
theorem wrong_syndrome (k : Nat) (hk : k < 120) : (syndromes wrong).getD k 0 = evalAt wrong (gfExp (k + 1)) 451 0 := by
  have := eval_high wrong (gfExp (k + 1)) 451 8641 wrong_small
  simp [syndromes, List.getD_eq_getElem?_getD, hk, this]
theorem wrong_stands : bchDecode wrong = none := by
  have z : ∀ k, k < 60 → (syndromes wrong).getD k 0 = 0 := by
    intro k hk
    rw [wrong_syndrome k (by omega)]
    exact wrong_values k hk
  have n60 : (syndromes wrong).getD 60 0 = evalAt wrong (gfExp 61) 451 0 := wrong_syndrome 60 (by omega)
  rw [bchDecode]
  exact bch_none _ _ 60 (by rw [n60]; exact wrong_next.1) (locator_long _ z (by rw [n60]; exact wrong_next.2))

theorem page_bad (raw : List Byte) (h0 : (sectorDecode (slice raw (1137 * 0) 1137)).2 = none) :
    (decodePage raw).bad = true ∧ (decodePage raw).uncorrectable ≠ 0 := by
  have hr : List.range 16 = 0 :: (List.range 15).map (· + 1) := by decide
  have hn : (((List.range 16).map (fun j => sectorDecode (slice raw (1137 * j) 1137))).filterMap (·.2)).length < 16 := by
    rw [hr, List.map_cons, List.filterMap_cons_none h0]
    refine Nat.lt_of_le_of_lt (List.length_filterMap_le _ _) ?_
    simp
  constructor
  · simp only [decodePage, hn, decide_true, Bool.true_or]
  · simp only [decodePage]
    omega

/-- A page whose first sector cannot be corrected. -/
theorem witness_StoreMediumEvents_uncorrectable : (decodePage wrongRaw).bad = true ∧ (decodePage wrongRaw).uncorrectable ≠ 0 := by
  have hw : sectorWord (slice wrongRaw (1137 * 0) 1137) = wrong := by decide +kernel
  exact page_bad _ (sector_none _ (by rw [hw]; exact wrong_stands))

/-- Function f's command queue 14335 (local id 3 of instance 7) holds `op` on partition `p`, of transaction 8, at host address 0,
64 bytes; the store is in state `st`. -/
def ordered_ (f op p st : Nat) (ts : List Txn) : State :=
  let bs : List Byte := [BitVec.ofNat 8 op, BitVec.ofNat 8 p, 0, 0] ++ leBytes 4 9 ++ leBytes 8 8 ++ zeroB 16 ++ leBytes 4 64 ++ zeroB 28
  let s := (queue7 State.reset 14335 3 qH2D 4 [{ bytes := bs }])
  let s := if f = 0 then s.wr Reg.STO_CMDQ 14335 else (s.wr (Reg.STO_I_QUEUES 7) 3)
  let s := (s.wr (Reg.STO_P_CFG 2) 0x87000001).wr (Reg.STO_P_CFG 1) 1
  { s with store := { st := st, txns := ts, nextTxn := 9 }, hostMem := (List.range 64).map (fun j => (j, BitVec.ofNat 8 j)) }

/-- The command at the head of that queue. -/
def cmd_ (op p : Nat) : StoCmd := { op := op, part := p, tag := 9, txn := 8, addr := 0, offset := 0, length := 64, index := 0 }

theorem witness_StoreCommands :
    (∀ f ∈ [0, 8], ∀ op ∈ [0, 1, 2, 3, 4, 5, 6], (ordered_ f op 2 2 []).stoHead f = some (14335, cmd_ op 2)
      ∧ (ordered_ f op 2 2 []).mayName f 2 = true)
    ∧ stoOpListed 0 = false ∧ (ordered_ 8 5 2 2 []).follower = false ∧ (ordered_ 8 2 3 2 []).mayName 8 3 = false
    ∧ (ordered_ 8 2 3 2 []).stoHead 8 = some (14335, cmd_ 2 3)
    ∧ (∀ op ∈ [1, 2, 3, 4, 5, 6], ∀ st ∈ [0, 1, 4, 5], (ordered_ 0 op 1 st []).stoHead 0 = some (14335, cmd_ op 1)
        ∧ (ordered_ 0 op 1 st []).mayName 0 1 = true ∧ (ordered_ 0 op 1 st []).store.st = st)
    ∧ (ordered_ 0 1 2 2 [ckpt 2]).follows = false
    ∧ (ordered_ 0 2 2 2 [ckpt 2]).store.txns.find? (fun t => t.phase == 2 && t.part == 2 && t.num == 8) = some (ckpt 2)
    ∧ 0 < (ckpt 2).bytes.length ∧ (∃ t ∈ (ordered_ 0 4 2 2 [ckpt 1]).store.txns, t.part = 2 ∧ t.phase = 1)
    ∧ ((ordered_ 0 5 1 2 []).hostBytes 0 64).map List.length = some 64
    ∧ (ordered_ 0 5 1 2 []).partBytes 1 + 64 ≤ 0x100000 * (ordered_ 0 5 1 2 []).fld (Reg.STO_P_CFG 1) 15 0
    ∧ ((ordered_ 0 5 1 2 []).wr (Reg.STO_P_CFG 1) 0).fld (Reg.STO_P_CFG 1) 15 0 = 0
    ∧ ((ordered_ 0 5 1 2 []).wr (Reg.STO_P_CFG 1) 0).stoHead 0 = some (14335, cmd_ 5 1) := by decide +kernel

/-- Reads beyond a transaction's end, the four outcomes of a boot write, and a format over one target. -/
theorem witness_StoreCommands_outcomes :
    let empty := ordered_ 0 2 2 2 [{ ckpt 2 with payload := [] }]
    let lost : State := { ordered_ 0 5 1 2 [] with hostMem := [] }
    let full := (ordered_ 0 5 1 2 []).wr (Reg.STO_P_CFG 1) 0x80000000
    let fits := (ordered_ 0 5 1 2 []).wr (Reg.STO_P_CFG 1) 0x80000001
    let target (st : Nat) := (ordered_ 0 6 1 st []).wr Reg.STO_TARGETS 1
    let fenced : State := (target 4).modStore (fun y => { y with fences := [(0, 63, 2, 0, 0, 0)] })
    empty.stoHead 0 = some (14335, cmd_ 2 2) ∧ empty.mayName 0 2 = true
    ∧ empty.store.txns.find? (fun t => t.phase == 2 && t.part == 2 && t.num == 8) = some { ckpt 2 with payload := [] }
    ∧ ({ ckpt 2 with payload := [] } : Txn).bytes.length ≤ (cmd_ 2 2).offset ∧ (cmd_ 2 2).offset < (ckpt 2).bytes.length
    ∧ lost.stoHead 0 = some (14335, cmd_ 5 1) ∧ lost.mayName 0 1 = true ∧ lost.hostBytes 0 64 = none ∧ lost.tdm.st ≠ 2 ∧ lost.store.st = 2
    ∧ full.stoHead 0 = some (14335, cmd_ 5 1) ∧ (full.hostBytes 0 64).map List.length = some 64 ∧ full.bit (Reg.STO_P_CFG 1) 31 = true
    ∧ 0x100000 * full.fld (Reg.STO_P_CFG 1) 15 0 < full.partBytes 1 + 64 ∧ full.bit (Reg.STO_P_CFG 1) 23 = false
    ∧ fits.stoHead 0 = some (14335, cmd_ 5 1) ∧ (fits.hostBytes 0 64).map List.length = some 64
    ∧ fits.partBytes 1 + 64 ≤ 0x100000 * fits.fld (Reg.STO_P_CFG 1) 15 0
    ∧ (∀ st ∈ [0, 1, 3, 4, 5], (target st).stoHead 0 = some (14335, cmd_ 6 1) ∧ (target st).mayName 0 1 = true ∧ (target st).store.st = st
        ∧ (target st).flt.down = false ∧ (target st).targets = [0])
    ∧ (target 4).store.fences = [] ∧ fenced.store.fences ≠ [] ∧ fenced.stoHead 0 = some (14335, cmd_ 6 1) ∧ fenced.targets = [0]
    ∧ (ordered_ 0 6 1 0 []).targets = [] := by decide +kernel

theorem witness_PowerAndHoldUp :
    let on := with_ Reg.PWR_STAT 0xC0000000
    let low := with_ Reg.PWR_STAT 0x40000000
    let up (h : Nat) (r : Option Nat) := { on with store := { st := 2, hold := h, mainRise := r } }
    let cut : State := { with_ Reg.PWR_STAT 0x80000000 with store := { st := 2, hold := 1 } }
    on.bit Reg.PWR_STAT 31 = true ∧ on.bit Reg.PWR_STAT 30 = true ∧ on.store.hold = 0
    ∧ (with_ Reg.PWR_STAT 0x80000000).bit Reg.PWR_STAT 31 = true ∧ (with_ Reg.PWR_STAT 0x80000000).bit Reg.PWR_STAT 30 = false
    ∧ (up 1 none).store.hold = 1 ∧ (up 1 none).bit Reg.PWR_STAT 31 = true ∧ (up 1 none).bit Reg.PWR_STAT 30 = true
    ∧ (up 2 none).store.hold ≠ 0 ∧ (up 2 none).store.hold ≠ 1 ∧ (up 2 none).bit Reg.PWR_STAT 31 = true
    ∧ cut.store.hold = 1 ∧ cut.bit Reg.PWR_STAT 31 = true ∧ cut.bit Reg.PWR_STAT 30 = false
    ∧ (∀ st ∈ [1, 2, 3], ({ on with store := { st := st } } : State).store.hold = 0 ∧ ({ on with store := { st := st } } : State).bit Reg.PWR_STAT 31 = true)
    ∧ low.bit Reg.PWR_STAT 31 = false ∧ low.bit Reg.PWR_STAT 30 = true ∧ low.store.hold ≠ 1
    ∧ (up 2 (some 0)).store.mainRise = some 0 ∧ (up 2 (some 0)).bit Reg.PWR_STAT 31 = true ∧ 2 ≤ (up 2 (some 0)).store.hold
    ∧ 0 + 10000000 ≤ ((up 2 (some 0)).at_ 10000000).now
    ∧ ({ low with store := { hold := 1 } } : State).store.hold = 1 ∧ ({ low with store := { hold := 1 } } : State).bit Reg.PWR_STAT 30 = true := by
  decide +kernel

/-! ### Witnesses: clocks, the brake and heat -/

theorem witness_ClocksBrakeHeat :
    let z := State.reset
    let d (x : Domain) := z.setDom 91 x
    gateable 91 = true ∧ (z.dom 91).stopped = false ∧ (z.wr Reg.CLK_CTRL 1).bit Reg.CLK_CTRL 0 = true
    ∧ ((z.wr Reg.CLK_CTRL 1).wr (Reg.CLK_D_CFG 91) 0).kept 91 = false ∧ (d {}).domIdle 91 = true ∧ ((d {}).dom 91).gated = false ∧ ((d {}).dom 91).ramp = 0
    ∧ ((d { gated := true }).dom 91).gated = true ∧ (d { gated := true }).bit Reg.PWR_STAT 28 = false
    ∧ ((d { ramp := 2 }).dom 91).ramp = 2 ∧ ((d { ramp := 1, ratio := 3 }).dom 91).ramp = 1
    ∧ (d { gated := true }).direct 0 (Reg.CLK_D_CFG 91) ∧ 0x103 &&& beMask 15 ≠ 0
    ∧ (merge ((d { gated := true }).rd (Reg.CLK_D_CFG 91)) 0 (0x103 &&& beMask 15)).getLsbD 8 = false := by
  unfold State.direct
  decide +kernel

theorem witness_ClocksBrakeHeat_ramps :
    let z := State.reset
    let g (x : Domain) := ((z.setDom 91 x).wr Reg.CLK_CTRL 1).wr (Reg.CLK_D_CFG 91) 0
    let held := (z.setDom 91 { ramp := 2 }).wr (Reg.CLK_D_CFG 91) 0x100
    let cold := (g { ramp := 2 }).wr Reg.PWR_STAT 0x10000000
    let up := z.setDom 91 { ratio := 3 }
    (g { ramp := 2 }).kept 91 = false ∧ (g { ramp := 2 }).bit Reg.CLK_CTRL 0 = true ∧ ((g { ramp := 2 }).dom 91).ramp = 2
    ∧ (held.kept 91 = true ∨ held.bit Reg.CLK_CTRL 0 = false) ∧ (held.dom 91).ramp = 2 ∧ (held.dom 91).gated = false
    ∧ held.bit Reg.PWR_STAT 28 = false ∧ cold.bit Reg.PWR_STAT 28 = true ∧ (cold.dom 91).ramp = 2
    ∧ z.hif.parityBad = [] ∧ up.direct 0 (Reg.CLK_D_CFG 91) ∧ (up.dom 91).gated = false ∧ (up.dom 91).ramp = 0
    ∧ (up.dom 91).ratio ≠ bits (merge (up.rd (Reg.CLK_D_CFG 91)) 0 (0x103 &&& beMask 15)) 1 0
    ∧ (merge (up.rd (Reg.CLK_D_CFG 91)) 0 (0x103 &&& beMask 15)).getLsbD 8 = false := by
  unfold State.direct
  decide +kernel

theorem witness_ClocksBrakeHeat_reference :
    let z := State.reset
    let pll := with_ Reg.CLK_STAT 0x400003FF
    z.fld Reg.CLK_MON_LIM 11 0 ≤ z.fld Reg.CLK_MON_LIM 27 16 ∧ z.fld Reg.CLK_MON_LIM 27 16 < 4096
    ∧ pll.bit Reg.CLK_STAT 30 = true ∧ pll.clk.onRc = false ∧ pll.bit Reg.CLK_STAT 9 = true ∧ pll.bit Reg.CLK_STAT 28 = false
    ∧ pll.sig.released = false ∧ pll.fld Reg.CLK_STAT 9 0 = 0x3FF ∧ pll.store.st = 0 ∧ pll.flt.down = false
    ∧ (pll.wr Reg.STO_CTRL 1).bit Reg.STO_CTRL 0 = true ∧ (pll.wr Reg.STO_CTRL 0).bit Reg.STO_CTRL 0 = false := by
  decide +kernel

theorem witness_ClocksBrakeHeat_sensors :
    let z := State.reset
    let hot := List.replicate 16 (BitVec.ofNat 16 (4 * 110))
    let park : State := { z with clk := { parkCount := 1 } }
    let brk : State := { z with clk := { braking := 0x8000 } }
    let dv := merge (z.rd Reg.PWR_DROOP) 0x003202E4 (0xFF03FF &&& beMask 15)
    let tv := merge (z.rd Reg.PWR_THERM) 0x006E0069 (0xFF00FF &&& beMask 15)
    0 < z.fld Reg.PWR_DROOP 9 0 ∧ z.clk.braking.getLsbD 15 = false ∧ brk.clk.braking.getLsbD 15 = true ∧ brk.covers 15 91 = true ∧ (brk.dom 91).stopped = false
    ∧ (∀ m, m < 16 → m ≠ 15 → brk.clk.braking.getLsbD m = false)
    ∧ hot.length = 16 ∧ quarterDegrees (z.fld Reg.PWR_THERM 23 16) ≤ (hottest hot).toInt ∧ 1 ≤ park.clk.parkCount
    ∧ park.bit Reg.PWR_STAT 28 = false ∧ z.direct 0 Reg.PWR_CMD ∧ z.direct 0 Reg.PWR_DROOP ∧ z.direct 0 Reg.PWR_THERM
    ∧ 650 ≤ bits dv 9 0 ∧ bits dv 9 0 ≤ 740 ∧ 2 ≤ bits dv 23 16 ∧ bits dv 23 16 ≤ 50
    ∧ 60 ≤ bits tv 7 0 ∧ bits tv 7 0 ≤ 105 ∧ 80 ≤ bits tv 23 16 ∧ bits tv 23 16 ≤ 110 := by
  unfold State.direct
  decide +kernel

/-! ### Witnesses: tests, repairs and logs -/

/-- A test of physical engine 67, of no logical engine, and one of channel lane 7 of the tandem. -/
def engTest : TestJob := ⟨0, 67, 1, 63, false⟩
def laneTest : TestJob := ⟨7, 7, 1, 0xFFFF, false⟩
/-- Instance 7 with a repair in hand of `image1`'s region 0: one piece of 64 bytes of engine 63. -/
def repairing (phase source : Nat) : State :=
  let d : RepairDesc := { kind := 0, unit := 63, index := 0, dest := 0xFFFC0, length := 64, source := source, ref := 3 }
  let im := { image1 with repairs := [d] }
  { queue7 (inst_ 7 { st := .running, image := some im, stages := [{ id := 1, st := .running }], ticks := 100000
                      repairs := [{ desc := 0, piece := 0, stage := 1, phase := phase, bytes := [1], since := 0 }] }) 14335 3 qH2D 4
      [{ bytes := leBytes 2 0 ++ zeroB 14 ++ leBytes 8 0 ++ zeroB 40 }] with
    hostMem := (List.range 64).map (fun j => (j, BitVec.ofNat 8 j)) }

theorem witness_FaultsTestsRepairs :
    let z := State.reset
    let named := with_ Reg.FLT_TEST 0x70000007
    let fenced : State := { named with flt := { fenced := [(7, 7, 1, 0, 0, 0)] } }
    let q : State := { z with flt := { testQ := [engTest], engMap := [(63, 66)] } }
    let t (j : TestJob) : State := { z with flt := { testing := [j] } }
    named.direct 0 Reg.FLT_CMD ∧ named.testNamed (named.rd Reg.FLT_TEST) = some laneTest ∧ z.testNamed 0x20000000 = none
    ∧ fenced.isFenced 7 7 = true ∧ fenced.direct 0 Reg.FLT_CMD
    ∧ q.flt.testQ = [engTest] ∧ engTest ∉ ([] : List TestJob) ∧ q.testFree engTest = true ∧ q.serves engTest = none
    ∧ (t engTest).flt.testing = [engTest] ∧ (t engTest).tdm.verdictMine = [] ∧ engTest.spoiled = false ∧ engTest.cause ≠ 3 ∧ engTest.kind ≠ 1
    ∧ (t engTest).flt.history = [] ∧ (t engTest).flt.fenced.length < 1024 := by
  unfold State.direct
  decide +kernel

theorem witness_FaultsTestsRepairs_later :
    let z := State.reset
    let c : State := { z with flt := { remapping := [(3, 383, 387)] } }
    let r := (repairing 2 1)
    c.flt.remapping = [(3, 383, 387)]
    ∧ z.direct 0 (Reg.FLT_I_CMD 7) ∧ z.direct 0 (Reg.FLT_I_LOG_TAIL 7) ∧ z.direct 0 Reg.FLT_LOG_TAIL ∧ (z.ring 8).tail < ringMod 8
    ∧ (1 + ringMod 8 - (z.ring 8).tail) % ringMod 8 > (z.ring 8).fill 8
    ∧ (∀ phase ∈ [1, 2], ∀ src ∈ [0, 1], ((repairing phase src).inst 7).repairs.map (·.phase) = [phase]
        ∧ ((repairing phase src).inst 7).image.map (fun im => im.repairs.map (·.source)) = some [src])
    ∧ r.localQueue 7 3 = some 14335 ∧ (r.queue 14335).entries.map (fun e => (leField e.bytes 0 2, leField e.bytes 4 4, leField e.bytes 16 8)) = [(0, 0, 0)]
    ∧ r.tdm.st ≠ 2 ∧ (r.hostBytes 0 64).map List.length = some 64 ∧ r.repairExpired 7 = some 1 ∧ (r.inst 7).st.parks = true
    ∧ z.repairExpired 7 = none := by
  unfold State.direct
  decide +kernel

/-! ### Witnesses: the tandem -/

/-- Tandem state `st` in role `role`, strapped for it, with messages in the inbox and TDM_CTRL.enable. -/
def pair_ (st role : Nat) (inbox : List (List Byte)) : State :=
  { State.reset with tdm := { st := st, role := role, strap := role, inbox := inbox } }
def msg_ (bs : List Byte) : List Byte := bs ++ zeroB (64 - bs.length)
/-- A link frame of lane 7 with one message of zeros, its trailer over the bytes plus `x`. -/
def linkFrame (seq : Nat) (x : Word) : Frame :=
  let h0 := BitVec.ofNat 64 (0x1300000000000000 + seq)
  let h2 : DWord := BitVec.ofNat 64 (2 ^ 32 + 8 * 2 ^ 16)
  let ws : List DWord := [h0, 0, h2, 0, 0, 0, 0, 0, 0, 0, 0]
  { lane := 7, start := 0, octets := startOctets
    blocks := ws.map .data ++ [.data ((crc32 (octets ws) + x).setWidth 64), .term] }

theorem witness_TandemLink :
    let z := State.reset
    let p := pair_ 2 2 []
    let u : State := { p with tdm := { p.tdm with unacked := [{ seq := 1, msgs := [] }] } }
    z.direct 0 Reg.TDM_CMD ∧ z.allUnloaded = true ∧ (inst_ 7 { st := .held }).allUnloaded = false ∧ (inst_ 7 { st := .held }).direct 0 Reg.TDM_CMD
    ∧ (pair_ 0 1 []).tdm.strap = 1 ∧ (pair_ 0 1 []).allUnloaded = true ∧ (pair_ 0 1 []).direct 0 Reg.TDM_CMD ∧ z.tdm.strap = 0
    ∧ p.fnOn 0 = true ∧ p.owns 0 Reg.TDM_CMD = true ∧ (p.dom 110).stopped = false ∧ p.tdm.st = 2 ∧ p.tdm.role = 2
    ∧ (pair_ 1 1 []).tdm.st = 1 ∧ (pair_ 1 1 []).tdm.pairAt + 100000000 ≤ ((pair_ 1 1 []).at_ 100000000).now
    ∧ p.tdm.lastTx + 250 ≤ (p.at_ 250).now
    ∧ (p.wr Reg.TDM_LANE_EN 0xFF).bit Reg.TDM_LANE_EN 7 = true ∧ p.isFenced 7 7 = false ∧ p.flt.testing = []
    ∧ u.tdm.unacked ≠ [] ∧ u.tdm.lastAck + 500 ≤ (u.at_ 500).now
    ∧ leField (msg_ [8, 0, 2]) 0 1 = 8 ∧ (pair_ 1 1 [msg_ [8, 0, 1]]).helloFits (msg_ [8, 0, 1]) = false
    ∧ leField (msg_ [9]) 0 1 = 9 ∧ p.tdm.lanesUp = 0 := by
  unfold State.direct
  decide +kernel

/-- What that frame parses to. -/
def linkVlf (seq : Nat) (x : Word) : Vlf :=
  let h0 := BitVec.ofNat 64 (0x1300000000000000 + seq)
  let h2 : DWord := BitVec.ofNat 64 (2 ^ 32 + 8 * 2 ^ 16)
  { h0 := h0, h1 := 0, h2 := h2, payload := List.replicate 8 0
    trailer := (crc32 (octets ([h0, 0, h2] ++ List.replicate 8 0)) + x).setWidth 64 }
theorem parse_link (seq : Nat) (x : Word) : parseFrame (linkFrame seq x) = some (linkVlf seq x) := by
  simp [parseFrame, frameBody, linkFrame, takeData, linkVlf, bits64]
theorem trailer_low (w : Word) : bits64 (w.setWidth 64) 31 0 = w.toNat := by
  have := w.isLt
  simp [bits64]
  omega
theorem trailer_high (w : Word) : bits64 (w.setWidth 64) 63 32 = 0 := by
  have := w.isLt
  simp [bits64, Nat.shiftRight_eq_div_pow]
  omega

/-- The follower's partner is a lead of the same part, stepping and grade. -/
theorem witness_TandemLink_hello :
    (pair_ 1 2 []).helloFits (msg_ [8, 0, 1, 0, 0x8A, 0, 0xA1, BitVec.ofNat 8 (Config.grade % 2)]) = true := by
  unfold State.helloFits State.hello
  generalize BitVec.ofNat 8 (Config.grade % 2) = b
  have h : ((msg_ [8, 0, 1, 0, 0x8A, 0, 0xA1, b]).drop 4).take 4
      = ((message64 [8, BitVec.ofNat 8 (pair_ 1 2 []).tdm.st, BitVec.ofNat 8 (pair_ 1 2 []).tdm.role, 0, 0x8A, 0, 0xA1, b]).drop 4).take 4 := rfl
  rw [h, beq_self_eq_true]
  rfl

theorem link_trailer (n : Nat) (x : Word) : bits64 (linkVlf n x).trailer 31 0 = ((linkVlf n x).crc + x).toNat := trailer_low _
theorem link_ok (n : Nat) (hn : n ∈ [0, 1]) : (linkVlf n 0).linkOk = true := by
  have hz : bits64 (linkVlf n 0).trailer 63 32 = 0 := trailer_high _
  simp only [Vlf.linkOk, hz]
  simp only [List.mem_cons, List.not_mem_nil, or_false] at hn
  rcases hn with rfl | rfl <;> rfl
theorem plus_one (w : Word) : w.toNat ≠ (w + 1).toNat := by
  intro e
  have := w.isLt
  simp at e
  omega
theorem no_octets (f : Frame) (h : f.octets = []) : parseFrame f = none := by
  simp only [parseFrame, h, startOctets]
  split <;> simp

theorem witness_TandemLink_frames :
    parseFrame { linkFrame 1 0 with octets := [] } = none
    ∧ (linkVlf 1 1).crc.toNat ≠ bits64 (linkVlf 1 1).trailer 31 0
    ∧ (∀ n ∈ [0, 1], (linkVlf n 0).crc.toNat = bits64 (linkVlf n 0).trailer 31 0 ∧ (linkVlf n 0).linkOk = true)
    ∧ (linkVlf (2 ^ 32) 0).linkOk = false
    ∧ (linkVlf 0 0).seq = (pair_ 2 2 []).tdm.rxSeq ∧ (linkVlf 1 0).seq = (pair_ 2 2 []).tdm.rxSeq + 1 := by
  refine ⟨no_octets _ rfl, ?_, fun n hn => ⟨?_, link_ok n hn⟩, rfl, rfl, rfl⟩
  · rw [link_trailer]
    exact plus_one _
  · rw [link_trailer]
    simp

theorem witness_TandemMessages :
    let z := pair_ 2 1 []
    let f := pair_ 2 2 []
    let due := f.modCad (fun c => { c with due := [{ at_ := 9, src := 3, mark := false }] })
    let g : Sign := { inst := 7, void := false, line := 5, sig := 0, flags := 0 }
    let w : State := { z with tdm := { z.tdm with waiting := [(g, 0)], faults := [(7, 0)] } }
    z.follower = false ∧ f.follower = true ∧ (f.wr Reg.TDM_LINK_NS 0).fld Reg.TDM_LINK_NS 11 0 ≤ f.fld Reg.TDM_DELAY 11 0
    ∧ ((f.wr Reg.TDM_LINK_NS 0xFFF).wr Reg.TDM_DELAY 0).fld Reg.TDM_DELAY 11 0 < 0xFFF ∧ due.tickDue = true ∧ f.tickDue = false
    ∧ toTdm 0 0x10 = false ∧ toTdm 0 0x1F0004 = true
    ∧ dataOpen (msg_ [4, 0, 1, 0, 0, 0, 0, 0]) = false ∧ leField (msg_ [4, 3]) 1 1 = 3
    ∧ leField (msg_ [2, 7, 0, 0, 5]) 1 1 = 7 ∧ leField (msg_ [2, 7, 0, 0, 5]) 4 4 = 5 ∧ z.tdm.waiting = [] ∧ w.tdm.waiting = [(g, 0)]
    ∧ 0 + w.fld Reg.TDM_CTRL 11 0 ≤ (w.at_ 5000).now ∧ (∃ f ∈ w.tdm.faults, f.1 = 7) ∧ z.tdm.faults = [] := by
  decide +kernel

/-- DATA of an image of 64 bytes for instance 7, which loads as a follower's. -/
theorem witness_TandemMessages_data :
    let m : List Byte := msg_ [4, 1, 7, 0, 1] ++ List.replicate 64 0x5A
    let s : State := { (inst_ 7 { st := .loading }).wr (Reg.INS_I_LOAD_LEN 7) 64 with tdm := { st := 2, role := 2, strap := 2, inbox := [m] } }
    let d : DataIn := { kind := 1, id := 7, off := leField m 8 8, bytes := (m.drop 64).take (dataUnits m) }
    let took : State := { s with tdm := { s.tdm with inbox := [], dataIn := addData s.tdm.dataIn d } }
    leField m 0 1 = 4 ∧ dataOpen m = false ∧ leField m 1 1 = 1 ∧ leField m 2 2 = 7 ∧ s.tickDue = false
    ∧ (s.inst 7).st = .loading ∧ (s.inst 7).load = none ∧ s.bit (Reg.INS_I_LOAD_SRC 7) 31 = false ∧ s.fld (Reg.INS_I_LOAD_LEN 7) 29 0 = 64
    ∧ (took.dataBytes 1 7 0 64).map List.length = some 64
    ∧ leField (msg_ [4, 3, 7]) 1 1 = 3 ∧ dataOpen (msg_ [4, 3, 7]) = false ∧ leField (msg_ [4, 0, 7]) 1 1 = 0 ∧ dataOpen (msg_ [4, 0, 7]) = false := by
  decide +kernel

theorem witness_TandemMessages_later :
    let z := pair_ 2 1 []
    let mine (v : Verdict) : State := { z with tdm := { z.tdm with verdictMine := [(7, v)] } }
    let r := { repairing 0 0 with tdm := z.tdm }
    leField (msg_ [5, 7]) 0 1 = 5 ∧ leField (msg_ [6, 7, 0]) 0 1 = 6 ∧ SMap.find z.tdm.verdictMine 7 = none
    ∧ (SMap.find (mine { engine := 0, column := 0, engLeft := false, colLeft := false, failed := false }).tdm.verdictMine 7).map (fun v => (v.engLeft, v.colLeft, v.failed))
        = some (false, false, false)
    ∧ leField (msg_ [6, 7, 0]) 2 1 % 2 = 0 ∧ leField (msg_ [7, 7]) 0 1 = 7 ∧ leField (msg_ [10, 7]) 0 1 = 10
    ∧ leField (msg_ [11, 7]) 0 1 = 11 ∧ leField (msg_ [11, 7]) 2 1 = 0
    ∧ (match (r.inst 7).image with
        | some im => (match im.repairs[0]? with
          | some d => (r.descBase 7 d).isSome && (List.range (d.length / 4096 + 2)).find? (fun j => d.pieceOffset j == 0) == some 0
          | none => false)
        | none => false) = true := by
  decide +kernel

/-! ### Witnesses: host access, pins and debug -/

theorem witness_HostAccess :
    let z := State.reset
    let a := Reg.CAD_SHEET_WIDTH
    (regAt a).map (fun d => (d.rw, d.w1c, d.cmd)) = some (0xFFFF, 0, 0) ∧ plainReg a = true ∧ z.noPlan a = false ∧ a % 4 = 0
    ∧ a < 0x4000000 ∧ (∀ h ∈ hooks, rowOf h.base h.stride h.count a = none) ∧ evtReg a = false ∧ evtReg (a - 4) = false ∧ z.direct 0 a
    ∧ wd 0xFFFF &&& beMask 15 ≠ 0 ∧ wd 0xFFFF &&& beMask 0 = 0 ∧ 0x11 % 4 ≠ 0 ∧ 0x11 < 0x100000
    ∧ regAt 0x100FFC = none ∧ aliasOf 0x100FFC = 0 ∧ z.tdm.st ≠ 2 ∧ (z.dom (regDomain 0x100FFC)).stopped = false
    ∧ z.fnOn 8 = false ∧ z.fnOn 0 = true := by
  unfold State.direct
  decide +kernel

theorem witness_HostAccess_later :
    let z := State.reset
    let v : State := { z with hif := { z.hif with vfEnabled := 0x80, pba := [256 * 8 + 31] } }
    let p (role : Nat) := (pair_ 2 role []).modCad (fun c => { c with due := [{ at_ := 9, src := 3, mark := false }] })
    let c := Reg.SVC_K_RETIRED_LO 127
    v.fnOn 8 = true ∧ aliasOf 8 = 0 ∧ gateable (regDomain 0x100008) = false ∧ v.owns 8 0x100008 = false ∧ (regAt 0x100008).isSome = true
    ∧ (p 2).tdm.role = 2 ∧ (p 1).tdm.role = 1 ∧ (p 1).tickDue = true
    ∧ latched Reg.CAD_TICK_LO = false ∧ latched (Reg.CAD_TICK_LO + 4) = true ∧ gateable (regDomain Reg.CAD_TICK_LO) = false
    ∧ wideLow c = true ∧ z.direct 0 c := by
  unfold State.direct
  decide +kernel

theorem witness_HostAccess_parity :
    let z := State.reset
    let g (x : Domain) := z.setDom (regDomain (Reg.OUT_I_QUEUES 7)) x
    let a := Reg.OUT_I_QUEUES 7
    let r : State := { z with hif := { z.hif with parityReported := [a] } }
    let v : Word := BitVec.ofNat 32 (2 ^ 31 + a)
    a < 2 ^ 26 ∧ hasParity a = true ∧ a ∉ z.hif.parityReported ∧ a ∈ r.hif.parityReported ∧ z.parityOwner a = some 7
    ∧ hasParity Reg.CAD_SHEET_WIDTH = true ∧ z.parityOwner Reg.CAD_SHEET_WIDTH = none ∧ z.direct 0 Reg.HIF_PAR_INJ ∧ v.getLsbD 31 = true
    ∧ (z.dom (regDomain a)).gated = false ∧ (z.dom (regDomain a)).stopped = false
    ∧ ((g { gated := true }).dom (regDomain a)).gated = true ∧ ((g { stopped := true }).dom (regDomain a)).stopped = true
    ∧ bits v 25 2 * 4 = a ∧ queReg a = false ∧ a ≠ Reg.HIF_PAR_INJ ∧ (255 : Nat) < 256 := by
  unfold State.direct
  decide +kernel

/-- After the mapping of the store, strapped to boot image 0, with the images `ts`. -/
def booting (ts : List Txn) : State :=
  { with_ Reg.HIF_STRAPS 1 with sig := { mapped := true }, store := { st := 2, txns := ts } }

theorem witness_BootPinsAndDebug :
    let z := State.reset
    let held : State := { z with store := { hold := 1 } }
    let b := booting []
    let x := booting [{ bootTxn with payload := [] }]
    z.sig.straps = none ∧ z.store.hold = 0 ∧ held.store.hold ≠ 0 ∧ ({ z with sig := { perst := true } } : State).sig.perst = true
    ∧ b.sig.mapped = true ∧ b.flashStrap = true ∧ b.flt.down = false ∧ (b.inst 0).st = .unloaded ∧ b.sig.boot = 0 ∧ b.bootImage 0 = none
    ∧ b.bootImage 1 = none ∧ x.flashStrap = true ∧ x.bootImage (x.bootIndex 1) = some { bootTxn with payload := [] }
    ∧ x.hif.vfWritten = false ∧ x.sig.bootAgain = false
    ∧ (x.bootAssign (parseResources (secBytes [] (directory []) 1))).isSome = true := by decide +kernel

theorem witness_BootPinsAndDebug_ports :
    let z := State.reset
    let m : State := { inst_ 7 { st := .held } with store := { st := 2 } }
    let d := ((with_ Reg.DBG_MEM_ADDR_HI 0x003F0000).wr Reg.DBG_MEM_ADDR_LO 0xFFFF8)
    let a := Reg.CAD_SHEET_WIDTH
    smbReads 0x1D0000 = true ∧ smbReads 0x100000 = false ∧ (z.dom 114).stopped = false ∧ Reg.PWR_EVT ∉ [Reg.HIF_EVT, Reg.CLK_EVT]
    ∧ z.allUnloaded = true ∧ z.store.st = 0 ∧ m.allUnloaded = false
    ∧ (with_ Reg.HIF_STRAPS 0x1000).bit Reg.HIF_STRAPS 12 = true ∧ z.bit Reg.HIF_STRAPS 12 = false ∧ dbgBad 2 = true ∧ dbgBad 0x100008 = false
    ∧ (regAt a).map (fun d => (d.lck, d.prv, d.cnt, d.w1c, d.cmd)) = some (0, 0, 0, 0, 0)
    ∧ z.direct 0 Reg.DBG_MEM_CMD ∧ z.sig.memOp = none ∧ (with_ Reg.DBG_MEM_ADDR_HI 0xF0000000).debugWord = none ∧ d.debugWord.isSome = true
    ∧ (memOf 0).isSome = true ∧ z.direct 0 (Reg.DBG_P_CNT 3) ∧ 0xFFFF &&& beMask 15 ≠ 0 := by
  unfold State.direct
  decide +kernel

end Slice0Tests
end

section
/-! Main power and the hold-up supply (O54): events, what the response to a fault keeps, the hold-up commit and the cold start. -/

-- As in the tests: a check of the whole text as one file runs out of threads otherwise.
set_option Elab.async false

namespace Sys2Proof.Machine

/-! ### Events change only their register and the interrupts (R410, R411) -/

theorem Events.refl (s : State) (as : List Nat) : Events s s as := ⟨fun _ _ => rfl, rfl⟩

theorem Events.trans {s t u : State} {as : List Nat} (h : Events s t as) (k : Events t u as) : Events s u as := by
  refine ⟨fun a ha => (k.1 a ha).trans (h.1 a ha), k.2.trans ?_⟩
  rw [h.2]

theorem Events.mono {s t : State} {as bs : List Nat} (h : Events s t as) (hs : as ⊆ bs) : Events s t bs :=
  ⟨fun a ha => h.1 a (fun hm => ha (List.cons_subset_cons _ hs hm)), h.2⟩

theorem Events.foldl {α : Type} {s t : State} {as : List Nat} {g : State → α → State} (h : Events s t as)
    (hg : ∀ u x, Events u (g u x) as) (l : List α) : Events s (l.foldl g t) as := by
  induction l generalizing t with
  | nil => exact h
  | cons x l ih => exact ih (h.trans (hg t x))

theorem events_wr (s : State) (a : Nat) (v : Word) : Events s (s.wr a v) [a] :=
  ⟨fun b hb => s.rd_wr_ne (by simp only [List.mem_cons, not_or] at hb; exact hb.2.1) v, rfl⟩

theorem events_dropCount (s : State) (as : List Nat) : Events s (s.count Reg.HIF_MSG_DROP) as :=
  ⟨fun _ hb => s.rd_wr_ne (List.ne_of_not_mem_cons hb) _, rfl⟩

theorem events_sendVec (s : State) (f vec : Nat) (as : List Nat) : Events s (s.sendVec f vec) as := by
  unfold State.sendVec
  generalize (if f = 0 then 256 else 32) = n
  split
  · exact events_dropCount s as
  · split <;> exact ⟨fun _ _ => rfl, rfl⟩

theorem events_message (s : State) (f src : Nat) (as : List Nat) : Events s (s.message f src) as := by
  unfold State.message
  split
  · exact .refl s as
  · exact events_sendVec s _ _ as

theorem events_pendSet (s : State) (src f : Nat) (as : List Nat) : Events s (s.pendSet src f) as := by
  unfold State.pendSet
  split
  · exact .refl s as
  · exact Events.trans (t := { s with hif := { s.hif with pend := insKey (f * 32 + src) s.hif.pend } })
      ⟨fun _ _ => rfl, rfl⟩ (events_message _ f src as)

theorem Events.ite {s t u : State} {as : List Nat} {c : Prop} [Decidable c] (h : Events s t as) (k : Events s u as) :
    Events s (if c then t else u) as := by
  split
  · exact h
  · exact k

theorem Events.alerted {s t : State} {as : List Nat} (h : Events s t as) :
    Events s { t with sig := { t.sig with alert := true } } as := h.trans ⟨fun _ _ => rfl, rfl⟩

/-- After its bits have risen, a raise brings interrupts alone. -/
theorem events_raise_wr (s : State) (a : Nat) (b : Word) : Events (s.wr a (s.rd a ||| b)) (s.raise a b) [] :=
  have h := Events.refl (s.wr a (s.rd a ||| b)) []
  .ite (.foldl (.ite h.alerted h) (fun u f => events_pendSet u (sourceOf a) f []) _) (.ite h.alerted h)

theorem events_raise (s : State) (a : Nat) (b : Word) : Events s (s.raise a b) [a] :=
  (events_wr s a _).trans ((events_raise_wr s a b).mono (List.nil_subset _))

/-- An event changes its register, and the interrupts. -/
theorem events_event (s : State) (a n : Nat) : Events s (s.event a n) [a] := events_raise s a _

theorem rd_raise_self (s : State) {a : Nat} (b : Word) (ha : a ≠ Reg.HIF_MSG_DROP) : (s.raise a b).rd a = s.rd a ||| b := by
  rw [(events_raise_wr s a b).1 a (by simpa using ha), State.rd_wr_self]

theorem rd_event_self (s : State) {a : Nat} (n : Nat) (ha : a ≠ Reg.HIF_MSG_DROP) :
    (s.event a n).rd a = s.rd a ||| BitVec.ofNat 32 (2 ^ n) := rd_raise_self s _ ha

theorem rd_event_ne (s : State) {a b : Nat} (n : Nat) (hb : b ≠ Reg.HIF_MSG_DROP) (ha : b ≠ a) :
    (s.event a n).rd b = s.rd b := (events_event s a n).1 b (by simp [hb, ha])

/-! ### Fields and bits of registers -/

theorem getLsbD_fieldMask {hi lo : Nat} (h : lo ≤ hi) (n : Nat) :
    (fieldMask hi lo).getLsbD n = decide (n < 32 ∧ lo ≤ n ∧ n ≤ hi) := by
  simp only [fieldMask, BitVec.getLsbD_ofNat, Nat.testBit_shiftLeft, Nat.testBit_two_pow_sub_one, Bool.decide_and]
  congr 1
  by_cases hn : lo ≤ n
  · simp only [hn, decide_true, Bool.true_and]
    congr 1
    exact propext (by omega)
  · simp [hn]

theorem getLsbD_setBits_outside (v : Word) {hi lo n : Nat} (x : Nat) (h : lo ≤ hi) (hn : n < lo ∨ hi < n) :
    (setBits v hi lo x).getLsbD n = v.getLsbD n := by
  have hm : (fieldMask hi lo).getLsbD n = false := by rw [getLsbD_fieldMask h]; simp; omega
  by_cases h32 : n < 32
  · simp only [setBits, BitVec.getLsbD_or, BitVec.getLsbD_and, BitVec.getLsbD_not, hm, h32]
    simp
  · rw [BitVec.getLsbD_of_ge _ n (by omega), BitVec.getLsbD_of_ge _ n (by omega)]

theorem getLsbD_setBits_bit (v : Word) {n : Nat} (b : Bool) (hn : n < 32) :
    (setBits v n n (if b then 1 else 0)).getLsbD n = b := by
  have hm : (fieldMask n n).getLsbD n = true := by rw [getLsbD_fieldMask (Nat.le_refl n)]; simpa using hn
  simp only [setBits, BitVec.getLsbD_or, BitVec.getLsbD_and, BitVec.getLsbD_not, BitVec.getLsbD_ofNat, hm, hn]
  cases b <;> simp [Nat.testBit_shiftLeft]

theorem State.bit_wr_ne (s : State) {a b : Nat} (v : Word) (n : Nat) (h : b ≠ a) : (s.wr a v).bit b n = s.bit b n := by
  rw [State.bit, s.rd_wr_ne h, State.bit]

theorem State.bit_setFld_outside (s : State) (a b : Nat) {hi lo n : Nat} (x : Nat) (h : lo ≤ hi) (hn : n < lo ∨ hi < n) :
    (s.setFld a hi lo x).bit b n = s.bit b n := by
  by_cases hb : b = a
  · subst hb
    rw [State.bit, State.setFld, State.rd_wr_self, getLsbD_setBits_outside _ x h hn, State.bit]
  · exact s.bit_wr_ne _ n hb

theorem State.bit_setBit_self (s : State) (a : Nat) {n : Nat} (b : Bool) (hn : n < 32) : (s.setBit a n b).bit a n = b := by
  rw [State.bit, State.setBit, State.setFld, State.rd_wr_self, getLsbD_setBits_bit _ b hn]

theorem State.bit_setBit_ne (s : State) (a c : Nat) {n m : Nat} (b : Bool) (h : m ≠ n) : (s.setBit a n b).bit c m = s.bit c m :=
  s.bit_setFld_outside a c _ (Nat.le_refl n) (by omega)

theorem State.bit_event_self (s : State) {a n : Nat} (ha : a ≠ Reg.HIF_MSG_DROP) (hn : n < 32) : (s.event a n).bit a n = true := by
  rw [State.bit, rd_event_self s n ha, BitVec.getLsbD_or, BitVec.getLsbD_ofNat]
  simp [hn, Nat.testBit_two_pow_self]

/-! ### What parking, closing and leaving a pair keep (R6, R299, R330, R355) -/

/-- Offsets that an instance fault, a device fault, the end of a pair and the closing of the store may write: every
block beyond HIF's but PWR_STAT, and HIF_MSG_DROP. -/
def faultReg (a : Nat) : Prop := (0x10000 ≤ a ∧ a ≠ Reg.PWR_STAT) ∨ a = Reg.HIF_MSG_DROP

/-- What the response to a fault keeps: the time, the power states, the HIF registers but HIF_MSG_DROP, the parity marks
and shadows, the device fault, the flash and the hold-up commit; an instance stays in its state or is at its kickstand,
and the store stays in its state or is closed. -/
structure FaultKept (s t : State) : Prop where
  now : t.now = s.now
  power : ∀ n, 9 ≤ n → t.bit Reg.PWR_STAT n = s.bit Reg.PWR_STAT n
  hifRegs : ∀ a, a < 0x10000 → a ≠ Reg.HIF_MSG_DROP → t.rd a = s.rd a
  hif : t.hif = { s.hif with pend := t.hif.pend, pba := t.hif.pba, msgs := t.hif.msgs }
  down : t.flt.down = s.flt.down
  inst : ∀ n, (t.inst n).st = (s.inst n).st ∨ (t.inst n).st = .kickstand
  flash : t.store.pages = s.store.pages
  hold : t.store.hold = s.store.hold ∧ t.store.holdFrom = s.store.holdFrom
  storeSt : t.store.st = s.store.st ∨ t.store.st = 4

/-- The registers that these operations write. -/
@[simp] theorem faultReg_device :
    faultReg Reg.FLT_SRC_SUM ∧ faultReg Reg.FLT_EVT ∧ faultReg Reg.FLT_LOG_OVF ∧ faultReg Reg.FLT_LOG_LASTDROP
    ∧ faultReg Reg.FLT_TEST_STAT ∧ faultReg Reg.FLT_BULK_CE ∧ faultReg Reg.FLT_BULK_UE ∧ faultReg Reg.FLT_BULK_POISON
    ∧ faultReg Reg.TDM_EVT ∧ faultReg Reg.STO_EVT ∧ faultReg Reg.STO_HOLD ∧ faultReg Reg.STO_TXN_LO ∧ faultReg Reg.STO_TXN_HI
    ∧ faultReg Reg.PWR_EVT ∧ faultReg Reg.HIF_MSG_DROP := by
  simp [faultReg, Reg.FLT_SRC_SUM, Reg.FLT_EVT, Reg.FLT_LOG_OVF, Reg.FLT_LOG_LASTDROP, Reg.FLT_TEST_STAT, Reg.FLT_BULK_CE,
    Reg.FLT_BULK_UE, Reg.FLT_BULK_POISON, Reg.TDM_EVT, Reg.STO_EVT, Reg.STO_HOLD, Reg.STO_TXN_LO, Reg.STO_TXN_HI, Reg.PWR_EVT,
    Reg.PWR_STAT]

/-- The rows that they write, for every index: a field of the state may name a unit or partition that does not exist, and
its row then lies beyond its block, but never at PWR_STAT. -/
@[simp] theorem faultReg_rows (i : Nat) :
    faultReg (Reg.FLT_I_EVT i) ∧ faultReg (Reg.FLT_I_SRC_SUM i) ∧ faultReg (Reg.FLT_I_LOG_OVF i)
    ∧ faultReg (Reg.FLT_I_LOG_LASTDROP i) ∧ faultReg (Reg.FLT_I_REPAIR i) ∧ faultReg (Reg.FLT_I_TAINT i)
    ∧ faultReg (Reg.INS_I_EVT i) ∧ faultReg (Reg.INS_I_CMD i) ∧ faultReg (Reg.OUT_I_EVT i) ∧ faultReg (Reg.OUT_I_RESULTS i)
    ∧ faultReg (Reg.OUT_I_MIRROR_DROP i) ∧ faultReg (Reg.TDM_I_STAT i) ∧ faultReg (Reg.TDM_I_EVT i)
    ∧ faultReg (Reg.TDM_I_TIMING i) ∧ faultReg (Reg.TDM_I_MISMATCH i) ∧ faultReg (Reg.TDM_I_LAST i)
    ∧ faultReg (Reg.STO_I_EVT i) ∧ faultReg (Reg.STO_I_COMMITS i) ∧ faultReg (Reg.STO_P_USED i)
    ∧ faultReg (Reg.STO_P_WRAPPED i) ∧ faultReg (Reg.STO_P_LOST i)
    ∧ faultReg (Reg.ENG_E_CE i) ∧ faultReg (Reg.ENG_E_UE i) ∧ faultReg (Reg.ENG_E_EVT i) ∧ faultReg (Reg.ENG_E_POISON i)
    ∧ faultReg (Reg.TIL_C_CE i) ∧ faultReg (Reg.TIL_C_UE i) ∧ faultReg (Reg.TIL_C_EVT i) ∧ faultReg (Reg.TIL_C_POISON i)
    ∧ faultReg (Reg.SVC_K_CE i) ∧ faultReg (Reg.SVC_K_UE i) ∧ faultReg (Reg.SVC_K_EVT i) ∧ faultReg (Reg.SVC_K_POISON i) := by
  simp only [faultReg, Reg.PWR_STAT, Reg.HIF_MSG_DROP, Reg.FLT_I_EVT, Reg.FLT_I_SRC_SUM, Reg.FLT_I_LOG_OVF, Reg.FLT_I_LOG_LASTDROP,
    Reg.FLT_I_REPAIR, Reg.FLT_I_TAINT, Reg.INS_I_EVT, Reg.INS_I_CMD, Reg.OUT_I_EVT, Reg.OUT_I_RESULTS, Reg.OUT_I_MIRROR_DROP,
    Reg.TDM_I_STAT, Reg.TDM_I_EVT, Reg.TDM_I_TIMING, Reg.TDM_I_MISMATCH, Reg.TDM_I_LAST, Reg.STO_I_EVT, Reg.STO_I_COMMITS,
    Reg.STO_P_USED, Reg.STO_P_WRAPPED, Reg.STO_P_LOST, Reg.ENG_E_CE, Reg.ENG_E_UE, Reg.ENG_E_EVT, Reg.ENG_E_POISON,
    Reg.TIL_C_CE, Reg.TIL_C_UE, Reg.TIL_C_EVT, Reg.TIL_C_POISON, Reg.SVC_K_CE, Reg.SVC_K_UE, Reg.SVC_K_EVT, Reg.SVC_K_POISON]
  omega

namespace FaultKept

variable {s t u : State}

theorem refl (s : State) : FaultKept s s :=
  ⟨rfl, fun _ _ => rfl, fun _ _ _ => rfl, rfl, rfl, fun _ => .inl rfl, rfl, ⟨rfl, rfl⟩, .inl rfl⟩

theorem trans (h : FaultKept s t) (k : FaultKept t u) : FaultKept s u where
  now := k.now.trans h.now
  power n hn := (k.power n hn).trans (h.power n hn)
  hifRegs a ha hm := (k.hifRegs a ha hm).trans (h.hifRegs a ha hm)
  hif := k.hif.trans (by rw [h.hif])
  down := k.down.trans h.down
  inst n := by
    rcases k.inst n with e | e
    · rw [e]; exact h.inst n
    · exact .inr e
  flash := k.flash.trans h.flash
  hold := ⟨k.hold.1.trans h.hold.1, k.hold.2.trans h.hold.2⟩
  storeSt := by
    rcases k.storeSt with e | e
    · rw [e]; exact h.storeSt
    · exact .inr e

/-! #### Updates of the state -/

/-- An update of anything that the relation does not speak of. -/
theorem same (h : FaultKept s t) (hn : u.now = t.now := by rfl) (hr : u.regs = t.regs := by rfl) (hh : u.hif = t.hif := by rfl)
    (hd : u.flt.down = t.flt.down := by rfl) (hi : u.insts = t.insts := by rfl)
    (hs : u.store.pages = t.store.pages ∧ u.store.hold = t.store.hold ∧ u.store.holdFrom = t.store.holdFrom
      ∧ u.store.st = t.store.st := by exact ⟨rfl, rfl, rfl, rfl⟩) : FaultKept s u :=
  have rd (a : Nat) : u.rd a = t.rd a := by rw [State.rd, hr, State.rd]
  have ⟨hp, hh', hf, hst⟩ := hs
  h.trans
    { now := hn, power := fun n _ => by rw [State.bit, rd, State.bit], hifRegs := fun a _ _ => rd a, hif := by rw [hh], down := hd
      inst := fun n => .inl (by rw [State.inst, hi, State.inst]), flash := hp, hold := ⟨hh', hf⟩, storeSt := .inl hst }

theorem ite {c : Prop} [Decidable c] (h : FaultKept s t) (k : FaultKept s u) : FaultKept s (if c then t else u) := by
  split
  · exact h
  · exact k

theorem foldl {α : Type} {g : State → α → State} (h : FaultKept s t) (hg : ∀ t x, FaultKept s t → FaultKept s (g t x)) (l : List α) :
    FaultKept s (l.foldl g t) := by
  induction l generalizing t with
  | nil => exact h
  | cons x l ih => exact ih (hg t x h)

theorem events {as : List Nat} (h : FaultKept s t) (k : Events t u as) (ha : ∀ a ∈ as, faultReg a) : FaultKept s u := by
  have hm {a : Nat} (hn : ¬faultReg a) : u.rd a = t.rd a := by
    refine k.1 a (fun hm => ?_)
    rcases List.mem_cons.mp hm with rfl | hm
    · exact hn (.inr rfl)
    · exact hn (ha a hm)
  refine h.trans
    { now := by rw [k.2], power := fun n _ => ?_, hifRegs := fun a hl hd => hm ?_, hif := by rw [k.2], down := by rw [k.2]
      inst := fun n => .inl (by rw [k.2]; rfl), flash := by rw [k.2], hold := by rw [k.2]; exact ⟨rfl, rfl⟩
      storeSt := .inl (by rw [k.2]) }
  · rw [State.bit, hm (by simp [faultReg, Reg.PWR_STAT, Reg.HIF_MSG_DROP]), State.bit]
  · simp only [faultReg, hd, or_false]; omega

theorem wr (h : FaultKept s t) {a : Nat} {v : Word} (ha : faultReg a := by simp) : FaultKept s (t.wr a v) :=
  h.events (events_wr t a v) (by simpa using ha)

theorem event (h : FaultKept s t) {a n : Nat} (ha : faultReg a := by simp) : FaultKept s (t.event a n) :=
  h.events (events_event t a n) (by simpa using ha)

theorem sendVec (h : FaultKept s t) {f v : Nat} : FaultKept s (t.sendVec f v) := h.events (events_sendVec t f v []) (by simp)

theorem pendSet (h : FaultKept s t) {k f : Nat} : FaultKept s (t.pendSet k f) := h.events (events_pendSet t k f []) (by simp)

theorem countBy (h : FaultKept s t) {a n : Nat} (ha : faultReg a := by simp) : FaultKept s (t.countBy a n) := h.wr ha
theorem count (h : FaultKept s t) {a : Nat} (ha : faultReg a := by simp) : FaultKept s (t.count a) := h.wr ha
theorem setFld (h : FaultKept s t) {a hi lo x : Nat} (ha : faultReg a := by simp) : FaultKept s (t.setFld a hi lo x) := h.wr ha

/-- An instance takes the state that it had, or that of a kickstand. -/
theorem setInst (h : FaultKept s t) {i : Nat} {x : Inst} (hx : x.st = (s.inst i).st ∨ x.st = .kickstand) :
    FaultKept s (t.setInst i x) where
  now := h.now
  power := h.power
  hifRegs := h.hifRegs
  hif := h.hif
  down := h.down
  inst n := by
    by_cases e : n = i
    · subst e; rw [State.inst_setInst_self]; exact hx
    · rw [t.inst_setInst_ne e]; exact h.inst n
  flash := h.flash
  hold := h.hold
  storeSt := h.storeSt

theorem modInst (h : FaultKept s t) {i : Nat} {g : Inst → Inst} (hg : ∀ x, (g x).st = x.st := by intro; rfl) :
    FaultKept s (t.modInst i g) := h.setInst (by rw [hg]; exact h.inst i)

/-- The store closes. -/
theorem closed (h : FaultKept s t) : FaultKept s (t.modStore (fun y => { y with st := 4 })) :=
  { h with storeSt := .inr rfl }

theorem modStore (h : FaultKept s t) {g : Store → Store}
    (hg : ∀ y, (g y).pages = y.pages ∧ (g y).hold = y.hold ∧ (g y).holdFrom = y.holdFrom ∧ (g y).st = y.st := by
      intro; exact ⟨rfl, rfl, rfl, rfl⟩) : FaultKept s (t.modStore g) := h.same (hs := hg t.store)

theorem draw (h : FaultKept s t) : FaultKept s t.draw.2 := h.same
theorem setQueue (h : FaultKept s t) {q : Nat} {x : Queue} : FaultKept s (t.setQueue q x) := h.same

/-! #### Queues and the log -/

theorem queueEvent (h : FaultKept s t) {q n : Nat} : FaultKept s (t.queueEvent q n) :=
  .ite (h.setQueue.foldl (fun _ _ k => k.pendSet) _) h.setQueue

theorem ringReport (h : FaultKept s t) {n : Nat} {e : LogEntry} : FaultKept s (t.ringReport n e) := by
  unfold State.ringReport
  dsimp only
  split
  · exact h.same
  · split
    · have ho : faultReg (if n = 0 then Reg.FLT_LOG_OVF else Reg.FLT_I_LOG_OVF (n - 1)) := by split <;> simp
      have hd : faultReg (if n = 0 then Reg.FLT_LOG_LASTDROP else Reg.FLT_I_LOG_LASTDROP (n - 1)) := by split <;> simp
      exact .ite ((h.count ho).wr hd).event ((h.count ho).wr hd)
    · have he : faultReg (ringEvt n) := by unfold ringEvt; split <;> simp
      exact FaultKept.event h.same he

theorem report (h : FaultKept s t) {src code sev : Nat} {o : Option Nat} {stage unit : Nat} {detail : Word} :
    FaultKept s (t.report src code sev o stage unit detail) := by
  cases o with
  | none => exact h.wr.ringReport
  | some i => exact h.wr.ringReport.wr.ringReport

theorem notice (h : FaultKept s t) {q : Nat} : FaultKept s (t.notice q) := by
  unfold State.notice
  dsimp only
  split
  · split
    · exact .ite h h.sendVec
    · exact h
  · exact h.queueEvent

theorem wrBytesRaw (h : FaultKept s t) {a : Nat} {bs : List Byte} : FaultKept s (t.wrBytesRaw a bs) := by
  induction bs generalizing t a with
  | nil => exact h
  | cons b bs ih => exact ih (t := t.wrByte a b) h.same

theorem wrBytes (h : FaultKept s t) {a : Nat} {bs : List Byte} : FaultKept s (t.wrBytes a bs) :=
  (h.wrBytesRaw (a := a) (bs := bs)).same

theorem wrHost (h : FaultKept s t) {a : Nat} {bs : List Byte} : FaultKept s (t.wrHost a bs) := by
  induction bs generalizing t a with
  | nil => exact h
  | cons b bs ih => exact ih (t := { t with hostMem := SMap.put a b t.hostMem }) h.same

theorem openBytes (h : FaultKept s t) {n : Nat} : FaultKept s (t.openBytes n).2 := h.same

theorem storeEntry (h : FaultKept s t) {q : Nat} {x : Queue} {e : Entry} : FaultKept s (t.storeEntry q x e) :=
  .ite h.wrBytes (.ite (.ite h h.wrHost.wrHost) h)

theorem pushEntry (h : FaultKept s t) {q : Nat} {e : Entry} : FaultKept s (t.pushEntry q e) :=
  have k := h.storeEntry (q := q) (x := t.queue q) (e := e)
  .ite (notice k.same) k.same

theorem pushToken (h : FaultKept s t) {q : Nat} {e : Entry} : FaultKept s (t.pushToken q e) := by
  unfold State.pushToken
  split
  · exact h.modInst
  · exact h.pushEntry

theorem pushDrop (h : FaultKept s t) {q : Nat} {e : Entry} : FaultKept s (t.pushDrop q e) :=
  .ite h.setQueue.queueEvent.report (.ite h.pushToken h.pushEntry)

/-! #### Kickstand (R298, R299) -/

theorem tdmFrame (h : FaultKept s t) {ms : List (List Byte)} : FaultKept s (t.tdmFrame ms) := h.same

theorem tdmPost (h : FaultKept s t) {m : List Byte} : FaultKept s (t.tdmPost m) := .ite h.tdmFrame h

/-- The row of a transfer engine that does not exist may lie at PWR_STAT; its count of contexts is bits 8 to 0. -/
theorem busyContexts (h : FaultKept s t) {x : Nat} : FaultKept s (t.busyContexts x) := by
  refine h.trans ⟨rfl, fun n hn => ?_, fun a ha _ => ?_, rfl, rfl, fun _ => .inl rfl, rfl, ⟨rfl, rfl⟩, .inl rfl⟩
  · exact t.bit_setFld_outside _ _ _ (by omega) (by omega)
  · exact t.rd_wr_ne (by simp only [Reg.XFR_E_STAT]; omega) _

theorem dropTransfers (h : FaultKept s t) {i : Nat} : FaultKept s (t.dropTransfers i) :=
  foldl h.same (fun _ _ k => k.busyContexts) _

theorem holdUnits (h : FaultKept s t) {i : Nat} : FaultKept s (t.holdUnits i) := h.same

theorem kick (h : FaultKept s t) {i : Nat} : FaultKept s (t.kick i) :=
  have k := (h.dropTransfers.holdUnits (i := i)).setInst (i := i) (.inr rfl)
  .ite h (.ite k.event.setFld.event k.event)

theorem tdmFault (h : FaultKept s t) {i : Nat} : FaultKept s (t.tdmFault i) :=
  .ite (.ite h.tdmPost.same h.tdmPost.same) h

theorem parkInst (h : FaultKept s t) {i : Nat} : FaultKept s (t.parkInst i) := .ite h.kick.tdmFault h

theorem instFault (h : FaultKept s t) {o : Option Nat} {src code stage unit : Nat} {detail : Word} :
    FaultKept s (t.instFault o src code stage unit detail) := by
  unfold State.instFault
  split
  · exact h.report
  · exact h.report.parkInst

theorem noPath (h : FaultKept s t) {i sid unit : Nat} {detail : Word} : FaultKept s (t.noPath i sid unit detail) :=
  h.event.instFault

/-! #### Errors of memories (R338 to R347) -/

theorem testStat (h : FaultKept s t) : FaultKept s t.testStat := h.setFld.setFld

theorem queueTest (h : FaultKept s t) {j : TestJob} : FaultKept s (t.queueTest j) :=
  .ite h (.ite h.report (testStat h.same))

theorem marchBank (h : FaultKept s t) {k : MemKind} {p off : Nat} : FaultKept s (t.marchBank k p off) := h.queueTest

theorem lineTaint (h : FaultKept s t) {i : Nat} : FaultKept s (t.lineTaint i) := by
  unfold State.lineTaint
  dsimp only
  split
  · exact h
  · exact h.wr.modInst.report

theorem taintStage (h : FaultKept s t) {i sid : Nat} {k : MemKind} : FaultKept s (t.taintStage i sid k) := h.modInst

theorem repairReg (h : FaultKept s t) {i : Nat} : FaultKept s (t.repairReg i) := by
  unfold State.repairReg
  split <;> exact h.wr

theorem setRepairs (h : FaultKept s t) {i : Nat} {x : Inst} {rs : List Repair} (hx : x.st = (s.inst i).st ∨ x.st = .kickstand) :
    FaultKept s (t.setInst i { x with repairs := rs }) := h.setInst hx

theorem repairSource (h : FaultKept s t) {i : Nat} : FaultKept s (t.repairSource i) := by
  have hi := h.inst i
  unfold State.repairSource
  dsimp only
  split
  · split
    · exact h
    · split
      · split
        · exact (h.setRepairs hi).repairReg
        · exact h.noPath
      · exact (h.setRepairs hi).repairReg.event
  · exact h

theorem startRepair (h : FaultKept s t) {i : Nat} : FaultKept s (t.startRepair i) := by
  have hi := h.inst i
  unfold State.startRepair
  dsimp only
  split
  · split
    · exact h
    · exact .ite (h.report.setRepairs hi).repairReg.tdmPost h.report.repairSource
  · exact h

theorem askRepair (h : FaultKept s t) {i sid a : Nat} : FaultKept s (t.askRepair i sid a) := by
  have hi := h.inst i
  unfold State.askRepair
  dsimp only
  split
  · exact h.noPath
  · split
    · exact h
    · exact .ite h (.ite h.noPath (.ite (h.setRepairs hi).startRepair (h.setRepairs hi).repairReg))

theorem corrected (h : FaultKept s t) {k : MemKind} {p off : Nat} : FaultKept s (t.corrected k p off) := by
  unfold State.corrected
  cases k with
  | weight | staging | acc | tile => exact FaultKept.report (.ite h.count.event h)
  | core => exact h.count.event.report
  | bulk | commit => exact h.count.report

theorem recordUe (h : FaultKept s t) {k : MemKind} {p off u : Nat} : FaultKept s (t.recordUe k p off u) := by
  unfold State.recordUe
  cases k with
  | weight | staging | acc | tile => exact .ite h.count.event.wr h
  | core => exact h.count.event.wr
  | bulk | commit => exact h.count.wr

theorem spoilBank (h : FaultKept s t) {k : MemKind} {p off : Nat} : FaultKept s (t.spoilBank k p off) := h.same

theorem pickTxn (h : FaultKept s t) : FaultKept s t.pickTxn.2 := h.draw

theorem markTxn (h : FaultKept s t) {n : Nat} : FaultKept s (t.markTxn n) := h.same

theorem discover (h : FaultKept s t) {k : MemKind} {p off : Nat} : FaultKept s (t.discover k p off) := by
  unfold State.discover
  dsimp only
  generalize t.placeOf k p off = pl
  have hm : FaultKept s { t with poison := insKey (memAddr k p off) t.poison, upsets := SMap.del (memAddr k p off) t.upsets } := h.same
  replace hm := (hm.recordUe (k := k) (p := p) (off := off) (u := pl.2.2)).spoilBank (k := k) (p := p) (off := off)
  revert hm
  generalize (State.spoilBank _ k p off) = v
  intro hm
  split
  · split
    · exact hm.pickTxn.markTxn.report.marchBank
    · exact hm.pickTxn.report.marchBank
  · split
    · exact hm.report.marchBank
    · exact .ite hm.report.taintStage.askRepair.marchBank hm.report.lineTaint.marchBank

theorem meetUpset (h : FaultKept s t) {k : MemKind} {w : Nat} : FaultKept s (State.meetUpset k t w) := by
  unfold State.meetUpset
  split
  · exact h
  · exact .ite h.corrected h.discover

theorem secded (h : FaultKept s t) {k : MemKind} {a n : Nat} : FaultKept s (t.secded k a n).1 :=
  h.foldl (fun _ _ k => k.meetUpset) _

/-! #### Results (R270 to R272, R288) and the end of a pair (R366, R371) -/

theorem readWindow (h : FaultKept s t) {w : Win} {off n : Nat} : FaultKept s (t.readWindow w off n).2 := h.secded.openBytes

theorem writeWindow (h : FaultKept s t) {w : Win} {off : Nat} {bs : List Byte} : FaultKept s (t.writeWindow w off bs) :=
  .ite h.wrBytes h

theorem slotWrite (h : FaultKept s t) {i : Nat} {line : Word} {off : Nat} {bs : List Byte} :
    FaultKept s (t.slotWrite i line off bs) := by
  unfold State.slotWrite
  split
  · exact h.writeWindow
  · exact h

theorem slotRead (h : FaultKept s t) {i : Nat} {line : Word} {off n : Nat} : FaultKept s (t.slotRead i line off n).2 := by
  unfold State.slotRead
  split
  · exact h.readWindow
  · exact h.openBytes

theorem sendMark (h : FaultKept s t) {i : Nat} : FaultKept s (t.sendMark i) := .ite h.tdmPost h

theorem ringPush (h : FaultKept s t) {i l : Nat} {bs : List Byte} : FaultKept s (t.ringPush i l bs) := by
  unfold State.ringPush
  split
  · exact h.pushDrop
  · exact h

theorem mirrorResult (h : FaultKept s t) {i : Nat} {line : Word} : FaultKept s (t.mirrorResult i line) :=
  .ite h (.ite h.count.event
    (sendMark (modInst (.ite (ringPush (.ite h.slotRead.wrHost h.slotRead)) (.ite h.slotRead.wrHost h.slotRead)))))

theorem gpioAlarm (h : FaultKept s t) {i : Nat} {al : Byte} : FaultKept s (t.gpioAlarm i al) :=
  .ite h (h.foldl (fun _ _ k => .ite k.same k) _)

theorem commitResult (h : FaultKept s t) {i : Nat} {g : Sign} {m : Bool} : FaultKept s (t.commitResult i g m) := by
  have hr : FaultKept s (if (t.resultSlot i g.line).isSome then t.slotRead i g.line 0x14 2 else ([0, 0], t)).2 := by
    split
    · exact h.slotRead
    · exact h
  unfold State.commitResult
  generalize (if (t.resultSlot i g.line).isSome then t.slotRead i g.line 0x14 2 else ([0, 0], t)) = p at hr ⊢
  dsimp only
  split
  · exact h
  · exact hr.slotWrite.slotWrite.slotWrite.slotWrite.count.modInst.gpioAlarm.mirrorResult.modInst

theorem setTests (h : FaultKept s t) {ts : List (Nat × Nat × Nat × Nat)} :
    FaultKept s { t with tdm := { t.tdm with tests := ts } } := h.same

theorem startTandemTest (h : FaultKept s t) {i : Nat} : FaultKept s (t.startTandemTest i) :=
  .ite h (setTests h.setFld.setFld.tdmPost)

theorem sigEffect (h : FaultKept s t) {i : Nat} {line : Word} {c : SigClass} : FaultKept s (t.sigEffect i line c) := by
  unfold State.sigEffect
  cases c with
  | agree => exact h
  | timing => exact h.count.event.report
  | data => exact h.count.event.wr.report.startTandemTest

theorem resolve (h : FaultKept s t) {g : Sign} {c : SigClass} : FaultKept s (t.resolve g c) :=
  .ite h.sigEffect h.sigEffect.commitResult

theorem endPair (h : FaultKept s t) {st : Nat} : FaultKept s (t.endPair st) :=
  foldl (foldl h.same (fun _ _ k => k.resolve) _) (fun _ _ k => k.setFld) _

theorem leavePair (h : FaultKept s t) {cause : Nat} : FaultKept s (t.leavePair cause) := .ite h.tdmPost.endPair.event h

theorem parkAll (h : FaultKept s t) : FaultKept s t.parkAll := h.foldl (fun _ _ k => k.kick) _

/-! #### Allocation and the journal (R315, R318, R325) -/

theorem setBlk (h : FaultKept s t) {b : Nat} {x : BlockInfo} : FaultKept s (t.setBlk b x) := h.same

theorem turned (h : FaultKept s t) {n : Nat} : FaultKept s (t.turned n) := h.same

theorem pickOf (h : FaultKept s t) {l : List Nat} : FaultKept s (t.pickOf l).2 := .ite h h.draw

theorem takeBlock (h : FaultKept s t) {n : Nat} {r : Nat × State} (e : t.takeBlock n = some r) : FaultKept s r.2 := by
  unfold State.takeBlock at e
  dsimp only at e
  split at e
  · cases e; exact h.pickOf.setBlk
  · cases e

theorem allocPage (h : FaultKept s t) {r : Nat × State} (e : t.allocPage = some r) : FaultKept s r.2 := by
  unfold State.allocPage at e
  dsimp only at e
  split at e
  · cases e
  · rename_i n _
    split at e
    · cases e
    · rename_i a v hb
      have hv : FaultKept s v := by
        split at hb
        · cases hb; exact h
        · obtain ⟨q, hq, hb⟩ := Option.map_eq_some_iff.mp hb
          cases hb; exact h.takeBlock hq
      cases e
      exact turned hv.same

theorem allocBlock (h : FaultKept s t) {ok : Nat → Bool} {r : Nat × State} (e : t.allocBlock ok = some r) : FaultKept s r.2 := by
  unfold State.allocBlock at e
  dsimp only at e
  split at e
  · cases e
  · obtain ⟨q, hq, e⟩ := Option.map_eq_some_iff.mp e
    cases e; exact (h.takeBlock hq).turned

theorem newPair (h : FaultKept s t) {r : Nat × Nat × State} (e : t.newPair = some r) : FaultKept s r.2.2 := by
  unfold State.newPair at e
  split at e
  · cases e
  · rename_i b v hb
    split at e
    · cases e
    · rename_i c w hc
      cases e
      exact ((h.allocBlock hb).allocBlock hc).same

theorem openJournal (h : FaultKept s t) : FaultKept s t.openJournal := by
  unfold State.openJournal
  split
  · exact h
  · split
    · rename_i hp; exact (h.newPair hp).same
    · exact h

theorem journal (h : FaultKept s t) {e : JEntry} : FaultKept s (t.journal e) := h.same

theorem journalPage (h : FaultKept s t) {v : State} (e : t.journalPage = some v) : FaultKept s v := by
  have ho := h.openJournal
  unfold State.journalPage at e
  dsimp only at e
  generalize t.openJournal = w at ho e
  split at e
  · cases e
  · rename_i a c _
    cases e
    refine same ?_ (t := match (if decide (w.geo.pages ≤ a % 4096 + 1) then w.newPair else none) with
      | some (_, _, s) => s | none => w)
    split
    · rename_i hp
      split at hp
      · exact ho.newPair hp
      · cases hp
    · exact ho

theorem flushPages (h : FaultKept s t) {n : Nat} : FaultKept s (t.flushPages n) := by
  induction n generalizing t with
  | zero => exact h
  | succ n ih =>
    unfold State.flushPages
    split
    · exact h
    · split
      · rename_i hp; exact ih (h.journalPage hp)
      · exact h

theorem flushJournal (h : FaultKept s t) : FaultKept s t.flushJournal := h.flushPages

theorem extents (h : FaultKept s t) {x : Txn} {n : Nat} {as : List Nat} : FaultKept s (t.extents x n as) := by
  induction n generalizing t as with
  | zero => exact h
  | succ n ih =>
    unfold State.extents
    split
    · exact h
    · exact ih h.journal

/-! #### Transactions and the close (R320, R321, R323, R330) -/

theorem modTxn (h : FaultKept s t) {n : Nat} {g : Txn → Txn} : FaultKept s (t.modTxn n g) := h.same

theorem setTxn (h : FaultKept s t) {x : Txn} : FaultKept s (t.setTxn x) := h.same

theorem beginTxn (h : FaultKept s t) {x : Txn} {n : Nat} {as : List Nat} : FaultKept s (t.beginTxn x n as) := h.journal.modTxn

theorem allocAll (h : FaultKept s t) {cs : List (List Byte)} {acc : List (Nat × List Byte)} : FaultKept s (t.allocAll cs acc).2 := by
  induction cs generalizing t acc with
  | nil => exact h
  | cons c cs ih =>
    unfold State.allocAll
    split
    · exact h
    · rename_i ha; exact ih (h.allocPage ha)

theorem queuePage (h : FaultKept s t) {a : Nat} {p : Page} {old : Option Nat} : FaultKept s (t.queuePage a p old) := h.same

theorem queueData (h : FaultKept s t) {x : Txn} {k : Nat} {ps : List (Nat × List Byte)} : FaultKept s (t.queueData x k ps) :=
  h.foldl (fun _ _ k => k.queuePage) _

theorem placePages (h : FaultKept s t) {n : Nat} {all : Bool} : FaultKept s (t.placePages n all) := by
  unfold State.placePages
  split
  · exact h
  · have hb {v : State} (k : FaultKept s v) {x : Txn} {c : Prop} [Decidable c] {a b : Nat} {as bs cs : List Nat} :
        FaultKept s (if c then v.extents x a as else (v.beginTxn x b bs).extents x a cs) := .ite k.extents k.beginTxn.extents
    exact modTxn (queueData (queueData (.ite (hb h.allocAll.allocAll) (hb h.allocAll.allocAll).flushJournal)))

theorem standWhole (h : FaultKept s t) {n : Nat} : FaultKept s (t.standWhole n) := h.placePages.modTxn

theorem partUsed (h : FaultKept s t) {p : Nat} : FaultKept s (t.partUsed p) := h.wr

theorem endTxn (h : FaultKept s t) {x : Txn} : FaultKept s (t.endTxn x) := h.modTxn.partUsed

theorem releaseTxn (h : FaultKept s t) {x : Txn} {r : Nat} : FaultKept s (t.releaseTxn x r) := endTxn h.journal

theorem wrapPart (h : FaultKept s t) {p need quota n : Nat} : FaultKept s (t.wrapPart p need quota n) := by
  induction n generalizing t with
  | zero => exact h
  | succ n ih =>
    unfold State.wrapPart
    split
    · exact h
    · split
      · exact h
      · exact ih h.releaseTxn.count

theorem meetQuota (h : FaultKept s t) {n : Nat} : FaultKept s (t.meetQuota n) := by
  unfold State.meetQuota
  split
  · exact h
  · split
    · exact h
    · exact .ite h (.ite h.wrapPart h.countBy.modTxn.event)

theorem journalCommit (h : FaultKept s t) {n : Nat} : FaultKept s (t.journalCommit n) := by
  unfold State.journalCommit
  dsimp only
  split
  · exact h.meetQuota
  · exact h.meetQuota.modTxn.journal

theorem closeStep (h : FaultKept s t) : FaultKept s t.closeStep := by
  unfold State.closeStep
  split
  · exact h
  · exact .ite h (modStore (flushJournal (journal (foldl h.flushJournal (fun _ _ k => k.journalCommit) _))))

theorem closeStore (h : FaultKept s t) {cause : Nat} : FaultKept s (t.closeStore cause) := by
  have hc : FaultKept s (t.modStore (fun y => { y with st := 4, closing := some cause })) := h.closed.same
  exact .ite h.closed (.ite h (closeStep (flushJournal (hc.foldl (fun _ _ k => k.modTxn.standWhole) _))))

/-! #### Commits on the medium (R321, R323, R336) -/

theorem stoComplete (h : FaultKept s t) {f : Nat} {tag : Word} {status bytes txn : Nat} :
    FaultKept s (t.stoComplete f tag status bytes txn) := by
  unfold State.stoComplete
  dsimp only
  split
  · exact .ite h.pushDrop h
  · exact h

theorem warnPart (h : FaultKept s t) {p before : Nat} : FaultKept s (t.warnPart p before) := .ite h.event h

/-- The boot images that a new one supersedes are released. -/
theorem superseded (h : FaultKept s t) {x : Txn} {n : Nat} : FaultKept s (if x.kind = 3 then
    t.store.txns.foldl (fun s u => if u.kind = 3 ∧ u.phase = 2 ∧ u.index = x.index ∧ u.num ≠ n then s.releaseTxn u 2 else s) t
    else t) := .ite (h.foldl (fun _ _ k => .ite k.releaseTxn k) _) h

theorem committed (h : FaultKept s t) {n : Nat} : FaultKept s (t.committed n) := by
  unfold State.committed
  split
  · exact h
  · have hp := fun x y => (h.setTxn (x := x)).superseded (x := y) (n := n)
    exact .ite (.ite (hp _ _).partUsed.warnPart.count.event.stoComplete (hp _ _).partUsed.warnPart.count.event)
      (hp _ _).partUsed.warnPart

theorem writeSuper (h : FaultKept s t) {n : Nat} : FaultKept s (t.writeSuper n) := by
  unfold State.writeSuper
  dsimp only
  split
  · split
    · exact h
    · exact h.setBlk.modStore
  · exact h

theorem onMedium (h : FaultKept s t) {n : Nat} : FaultKept s (t.onMedium n) := by
  have hc := h.committed (n := n)
  unfold State.onMedium
  generalize t.committed n = v at hc
  dsimp only
  split
  · exact hc
  · rename_i x _
    have hf : FaultKept s (if x.isObject 2 then v.modStore (fun y => { y with fences := fenceParse (x.payload.drop 4) }) else v) :=
      .ite hc.modStore hc
    generalize (if x.isObject 2 then v.modStore (fun y => { y with fences := fenceParse (x.payload.drop 4) }) else v) = w at hf ⊢
    have hw : FaultKept s (if x.isMap then w.writeSuper n else w) := .ite hf.writeSuper hf
    generalize (if x.isMap then w.writeSuper n else w) = w at hw ⊢
    exact modStore (hw.foldl (fun _ _ k => k.stoComplete) _)

/-! #### The faults themselves (R6, R355, R408) -/

/-- The mark of a device fault. -/
theorem faulted (h : FaultKept s t) :
    FaultKept { s with flt := { s.flt with down := true } } { t with flt := { t.flt with down := true } } where
  now := h.now
  power := h.power
  hifRegs := h.hifRegs
  hif := h.hif
  down := rfl
  inst := h.inst
  flash := h.flash
  hold := h.hold
  storeSt := h.storeSt

/-- A device fault keeps all of this but the mark of the fault itself. -/
theorem deviceFault (h : FaultKept s t) {src code unit : Nat} {detail : Word} :
    FaultKept { s with flt := { s.flt with down := true } } (t.deviceFault src code unit detail) :=
  leavePair (closeStore (faulted (parkAll (report h))))

/-- An instance at its kickstand stays there. -/
theorem kickstand (h : FaultKept s t) {n : Nat} (hk : (s.inst n).st = .kickstand) : (t.inst n).st = .kickstand := by
  rcases h.inst n with e | e
  · rw [e, hk]
  · exact e

end FaultKept

/-- An instance in a state that parks enters kickstand (R298). -/
theorem State.kick_inst_st (s : State) (i : Nat) (hp : (s.inst i).st.parks = true) : ((s.kick i).inst i).st = .kickstand := by
  unfold State.kick
  rw [if_neg (by simp [hp])]
  have k (v w : State) (c : Bool) (hv : (v.inst i).st = .kickstand) :
      ((if c then ((v.event (Reg.INS_I_EVT i) 3).setFld (Reg.INS_I_CMD i) 3 3 0).event (Reg.INS_I_EVT i) 6
        else v.event (Reg.INS_I_EVT i) 3).inst i).st = .kickstand :=
    FaultKept.kickstand (s := v) (.ite (FaultKept.refl v).event.setFld.event (FaultKept.refl v).event) hv
  exact k _ s _ (by rw [State.inst_setInst_self])

/-- An instance that parks is at its kickstand once every instance is parked. -/
theorem State.parkAll_inst_st (s : State) {n : Nat} (hn : n < 8) (hp : (s.inst n).st.parks = true) :
    (s.parkAll.inst n).st = .kickstand := by
  have step (t : State) (l : List Nat) (hk : (t.inst n).st = .kickstand ∨ n ∈ l ∧ (t.inst n).st.parks = true) :
      ((l.foldl (fun s i => s.kick i) t).inst n).st = .kickstand := by
    induction l generalizing t with
    | nil => exact hk.resolve_right (by simp)
    | cons i l ih =>
      refine ih (t.kick i) ?_
      have f := (FaultKept.refl t).kick (i := i)
      rcases hk with hk | ⟨hm, hk⟩
      · exact .inl (f.kickstand hk)
      · rcases List.mem_cons.mp hm with rfl | hm
        · exact .inl (t.kick_inst_st n hk)
        · exact (f.inst n).elim (fun e => .inr ⟨hm, by rw [e]; exact hk⟩) .inl
  exact step s instNums (.inr ⟨by simp only [instNums]; simp; omega, hp⟩)

/-! ### The hold-up commit (R330, R331, R393) -/

/-- The state with another phase and start of the hold-up commit. -/
def State.rehold (s : State) (m f : Nat) : State := s.modStore (fun y => { y with hold := m, holdFrom := f })

theorem FaultKept.rehold {s t : State} (h : FaultKept s t) (m f : Nat) : FaultKept (s.rehold m f) (t.rehold m f) where
  now := h.now
  power := h.power
  hifRegs := h.hifRegs
  hif := h.hif
  down := h.down
  inst := h.inst
  flash := h.flash
  hold := ⟨rfl, rfl⟩
  storeSt := h.storeSt

/-- Closing closes a store that is mounting, ready, read-only or closed. -/
theorem closeStore_st (s : State) (cause : Nat) (h : s.store.st = 1 ∨ s.store.st = 2 ∨ s.store.st = 3 ∨ s.store.st = 4) :
    (s.closeStore cause).store.st = 4 := by
  unfold State.closeStore
  split
  · rfl
  · split
    · omega
    · refine (FaultKept.storeSt (s := s.modStore (fun y => { y with st := 4, closing := some cause })) ?_).elim id id
      exact .closeStep (.flushJournal (.foldl (.refl _) (fun _ _ k => k.modTxn.standWhole) _))

/-- VHOLD below the floor cuts the commit: nothing more is programmed, and STO_HOLD shows the time (R331). -/
theorem holdCut_spec (s : State) :
    s.holdCut.store.hold = 4 ∧ s.holdCut.store.todo = [] ∧ s.holdCut.store.jbuf = [] ∧ s.holdCut.store.pages = s.store.pages
    ∧ s.holdCut.rd Reg.STO_HOLD = wd (0xC0000000 + min ((s.now - s.store.holdFrom) / 1000) 0xFFFF)
    ∧ ∀ n, 9 ≤ n → s.holdCut.bit Reg.PWR_STAT n = s.bit Reg.PWR_STAT n := by
  unfold State.holdCut
  have h {l : List PageJob} : FaultKept s (l.foldl (fun s j => j.commits.foldl State.onMedium s) s) :=
    .foldl (.refl s) (fun _ _ k => k.foldl (fun _ _ k => k.onMedium) _) l
  refine ⟨rfl, rfl, rfl, h.flash, State.rd_wr_self _ _ _, fun n hn => ?_⟩
  exact (State.bit_wr_ne _ _ n (by decide)).trans (h.power n hn)

theorem holdStep_cases (s : State) : s.holdStep = s
    ∨ s.store.hold = 1 ∧ ∃ v, s.holdStep = (s.rehold 2 s.store.holdFrom).wr Reg.STO_HOLD v := by
  unfold State.holdStep
  split
  · rename_i h; exact .inr ⟨h.1, _, rfl⟩
  · exact .inl rfl

/-- The hold-up commit begins: it runs or is complete at once, and but for its own phase it is a response to a fault. -/
theorem holdUp_kept (s : State) (t : Nat) (hb : s.bit Reg.PWR_STAT 30 = true) :
    ((s.holdUp t).store.hold = 1 ∨ (s.holdUp t).store.hold = 2)
    ∧ FaultKept (s.rehold (s.holdUp t).store.hold t) (s.holdUp t) := by
  have hc : FaultKept (s.rehold 1 t) ((s.rehold 1 t).closeStore 1).closeStep := (FaultKept.refl _).closeStore.closeStep
  have he : s.holdUp t = (((s.rehold 1 t).closeStore 1).closeStep).holdStep := if_pos hb
  obtain ⟨hh, hf⟩ := hc.hold
  rw [he]
  rcases holdStep_cases (((s.rehold 1 t).closeStore 1).closeStep) with e | ⟨_, v, e⟩
  · rw [e, hh]
    exact ⟨.inl rfl, hc⟩
  · rw [e]
    refine ⟨.inr rfl, ?_⟩
    have k := (hc.rehold 2 t).wr (a := Reg.STO_HOLD) (v := v)
    rw [hf]
    exact k

/-- The store closes before the hold-up commit runs (R330). -/
theorem holdUp_st (s : State) (t : Nat) (hb : s.bit Reg.PWR_STAT 30 = true)
    (hs : s.store.st = 1 ∨ s.store.st = 2 ∨ s.store.st = 3 ∨ s.store.st = 4) : (s.holdUp t).store.st = 4 := by
  have hc : (((s.rehold 1 t).closeStore 1).closeStep).store.st = 4 := by
    have k := (FaultKept.refl ((s.rehold 1 t).closeStore 1)).closeStep.storeSt
    rwa [closeStore_st (s.rehold 1 t) 1 hs, or_self] at k
  have he : s.holdUp t = (((s.rehold 1 t).closeStore 1).closeStep).holdStep := if_pos hb
  rw [he]
  rcases holdStep_cases (((s.rehold 1 t).closeStore 1).closeStep) with e | ⟨_, v, e⟩ <;> rw [e]
  · exact hc
  · exact hc

/-! ### MAIN_OK and HOLD_OK (R6, R329, R393) -/

/-- Main power is lost: PWR_STAT shows it, and the count of stable power ends. -/
def State.mainLow (s : State) : State := (s.setBit Reg.PWR_STAT 31 false).modStore (fun y => { y with mainRise := none })

/-- What the first fall of main power does before the hold-up commit: the log entry, the non-maskable event, kickstand for
every instance, and the end of a pair. -/
def State.mainParked (s : State) : State :=
  ((s.mainLow.report 0x11 0x0003 5 none 0 0xFFFF 0).nonMaskable.parkAll).leavePair 4

/-- The device is down. -/
def State.downed (s : State) : State := { s with flt := { s.flt with down := true } }

theorem mainLow_main (s : State) : s.mainLow.bit Reg.PWR_STAT 31 = false := s.bit_setBit_self _ _ (by decide)

theorem mainLow_hold (s : State) : s.mainLow.bit Reg.PWR_STAT 30 = s.bit Reg.PWR_STAT 30 :=
  s.bit_setBit_ne _ _ _ (by decide)

section
variable (s : State) (t : Nat) (hm : s.bit Reg.PWR_STAT 31 = true)
include hm

/-- A fall of MAIN_OK under good main power, as its three branches read the state. -/
theorem execMainOkFall_eq : execMainOkFall t s =
    if (s.at_ t).mainLow.store.hold = 1 ∧ !(s.at_ t).mainLow.bit Reg.PWR_STAT 30 then .next (s.at_ t).mainLow.holdCut
    else if (s.at_ t).mainLow.store.hold ≠ 0 then .next (s.at_ t).mainLow
    else .next ((s.at_ t).mainParked.downed.holdUp (s.at_ t).mainParked.now) := by
  have hn : (!(s.at_ t).bit Reg.PWR_STAT 31) = false := by simp [show (s.at_ t).bit Reg.PWR_STAT 31 = true from hm]
  unfold execMainOkFall
  dsimp only
  rw [hn, if_neg (by decide)]
  have hp (p : State) : (.next ({ p with flt := { p.flt with down := true } }.holdUp p.now) : Res)
      = .next (p.downed.holdUp p.now) := rfl
  exact ite_congr rfl (fun _ => rfl) (fun _ => ite_congr rfl (fun _ => rfl) (fun _ => hp _))

theorem execMainOkFall_again (h0 : s.store.hold ≠ 0) (h1 : s.store.hold ≠ 1 ∨ s.bit Reg.PWR_STAT 30 = true) :
    execMainOkFall t s = .next (s.at_ t).mainLow := by
  rw [execMainOkFall_eq s t hm, mainLow_hold, if_neg, if_pos (show (s.at_ t).mainLow.store.hold ≠ 0 from h0)]
  rintro ⟨h, hb⟩
  rcases h1 with h1 | h1
  · exact h1 h
  · simp [show (s.at_ t).bit Reg.PWR_STAT 30 = true from h1] at hb

theorem execMainOkFall_cut (h1 : s.store.hold = 1) (hb : ¬s.bit Reg.PWR_STAT 30 = true) :
    execMainOkFall t s = .next (s.at_ t).mainLow.holdCut := by
  rw [execMainOkFall_eq s t hm, mainLow_hold, if_pos]
  exact ⟨h1, by rw [show (s.at_ t).bit Reg.PWR_STAT 30 = false from Bool.eq_false_iff.mpr hb]; rfl⟩

theorem execMainOkFall_first (h0 : s.store.hold = 0) :
    execMainOkFall t s = .next ((s.at_ t).mainParked.downed.holdUp (s.at_ t).mainParked.now) := by
  have h : (s.at_ t).mainLow.store.hold = 0 := h0
  rw [execMainOkFall_eq s t hm, h, if_neg (by simp), if_neg (by simp)]

end

/-- The bit of the non-maskable event pends. -/
def State.nmPends (s : State) : State := { s with hif := { s.hif with pend := insKey 0 s.hif.pend } }

/-- Past its bit, the non-maskable event brings interrupts alone. -/
theorem events_nonMaskable_raise (s : State) (as : List Nat) : Events (s.raise Reg.HIF_EVT 8) s.nonMaskable as :=
  Events.trans (t := (s.raise Reg.HIF_EVT 8).nmPends) ⟨fun _ _ => rfl, rfl⟩ (events_sendVec _ 0 _ _)

theorem events_nonMaskable (s : State) : Events s s.nonMaskable [Reg.HIF_EVT] :=
  (events_raise s Reg.HIF_EVT 8).trans (events_nonMaskable_raise s _)

/-- The non-maskable event shows in HIF_EVT.nm. -/
theorem nonMaskable_nm (s : State) : s.nonMaskable.bit Reg.HIF_EVT 3 = true := by
  rw [State.bit, (events_nonMaskable_raise s []).1 _ (by decide), rd_raise_self s 8 (by decide)]
  simp

/-- Before the hold-up commit: every instance that parks is at its kickstand, and the fall is told. -/
theorem mainParked_spec (s : State) :
    s.mainParked.now = s.now ∧ (∀ n, 9 ≤ n → s.mainParked.bit Reg.PWR_STAT n = s.mainLow.bit Reg.PWR_STAT n)
    ∧ s.mainParked.bit Reg.HIF_EVT 3 = true ∧ (s.mainParked.store.st = s.store.st ∨ s.mainParked.store.st = 4)
    ∧ ∀ n, n < 8 → (s.inst n).st.parks = true → (s.mainParked.inst n).st = .kickstand := by
  have hr : FaultKept s.mainLow (s.mainLow.report 0x11 0x0003 5 none 0 0xFFFF 0) := (FaultKept.refl _).report
  unfold State.mainParked
  generalize s.mainLow.report 0x11 0x0003 5 none 0 0xFFFF 0 = r at hr
  have hn := events_nonMaskable r
  have hp : FaultKept r.nonMaskable (r.nonMaskable.parkAll.leavePair 4) := (FaultKept.refl _).parkAll.leavePair
  refine ⟨?_, fun n h9 => ?_, ?_, ?_, fun n h8 hs => ?_⟩
  · rw [hp.now, hn.2]; exact hr.now
  · rw [hp.power n h9, State.bit, hn.1 _ (by decide)]; exact hr.power n h9
  · rw [State.bit, hp.hifRegs _ (by decide) (by decide)]; exact nonMaskable_nm r
  · have e : r.nonMaskable.store = r.store := by rw [hn.2]
    have ht := hp.storeSt
    rw [e] at ht
    exact ht.elim (fun e => by rw [e]; exact hr.storeSt) .inr
  · have e : r.nonMaskable.inst n = r.inst n := by rw [hn.2]; rfl
    refine (FaultKept.refl r.nonMaskable.parkAll).leavePair.kickstand ?_
    rcases hr.inst n with hi | hi
    · exact State.parkAll_inst_st _ h8 (by rw [e, hi]; exact hs)
    · exact (FaultKept.refl r.nonMaskable).parkAll.kickstand (by rw [e]; exact hi)

/-- With HOLD_OK low no hold-up commit starts (R330). -/
theorem holdUp_low (s : State) (t : Nat) (hb : s.bit Reg.PWR_STAT 30 = false) :
    s.holdUp t = (s.modStore (fun y => { y with hold := 3 })).wr Reg.STO_HOLD 0x80000000 := by
  unfold State.holdUp
  rw [hb]
  rfl

/-- The hold-up commit of a device that is down: the power states, HIF_EVT and the kickstands stay. -/
theorem holdUp_downed (p : State) (t : Nat) :
    (∀ n, 9 ≤ n → (p.downed.holdUp t).bit Reg.PWR_STAT n = p.bit Reg.PWR_STAT n)
    ∧ (p.downed.holdUp t).bit Reg.HIF_EVT 3 = p.bit Reg.HIF_EVT 3 ∧ (p.downed.holdUp t).flt.down = true
    ∧ ∀ n, (p.inst n).st = .kickstand → ((p.downed.holdUp t).inst n).st = .kickstand := by
  by_cases hb : p.bit Reg.PWR_STAT 30 = true
  · obtain ⟨_, hk⟩ := holdUp_kept p.downed t hb
    refine ⟨hk.power, ?_, hk.down, fun n hi => hk.kickstand hi⟩
    exact congrArg (BitVec.getLsbD · 3) (hk.hifRegs Reg.HIF_EVT (by decide) (by decide))
  · have hb' : p.downed.bit Reg.PWR_STAT 30 = false := Bool.eq_false_iff.mpr hb
    rw [holdUp_low p.downed t hb']
    exact ⟨fun n _ => State.bit_wr_ne _ _ n (by decide), State.bit_wr_ne _ _ 3 (by decide), rfl, fun n hi => hi⟩

/-- The first fall of main power (R6, R329, R330). -/
theorem mainDown_spec (s u : State) (hu : u = s.mainParked.downed.holdUp s.mainParked.now) :
    u.bit Reg.PWR_STAT 31 = false ∧ u.bit Reg.HIF_EVT 3 = true ∧ u.flt.down = true
    ∧ (∀ n, n < 8 → (s.inst n).st.parks = true → (u.inst n).st = .kickstand)
    ∧ (¬s.bit Reg.PWR_STAT 30 = true → u.store.hold = 3 ∧ u.rd Reg.STO_HOLD = 0x80000000)
    ∧ (s.bit Reg.PWR_STAT 30 = true → (u.store.hold = 1 ∨ u.store.hold = 2) ∧ u.store.holdFrom = s.now
        ∧ (s.store.st = 1 ∨ s.store.st = 2 ∨ s.store.st = 3 → u.store.st = 4)) := by
  obtain ⟨hnow, hpow, hnm, hst, hin⟩ := mainParked_spec s
  have hlow := (hpow 31 (by decide)).trans (mainLow_main s)
  have hhold := (hpow 30 (by decide)).trans (mainLow_hold s)
  rw [hnow] at hu
  generalize s.mainParked = p at hu hlow hhold hnm hst hin
  obtain ⟨kpow, knm, kdown, kin⟩ := holdUp_downed p s.now
  rw [← hu] at kpow knm kdown kin
  refine ⟨(kpow 31 (by decide)).trans hlow, knm.trans hnm, kdown, fun n h8 hp => kin n (hin n h8 hp), fun hb => ?_, fun hb => ?_⟩
  · rw [hu, holdUp_low p.downed s.now (hhold.trans (Bool.eq_false_iff.mpr hb))]
    exact ⟨rfl, State.rd_wr_self _ _ _⟩
  · obtain ⟨hh, hk⟩ := holdUp_kept p.downed s.now (hhold.trans hb)
    rw [hu]
    refine ⟨hh, hk.hold.2, fun hs => holdUp_st _ _ (hhold.trans hb) ?_⟩
    have e : p.downed.store.st = p.store.st := rfl
    omega

theorem execMainOkRise_of_low (s : State) (t : Nat) (hm : ¬s.bit Reg.PWR_STAT 31 = true) :
    let high := ((s.at_ t).setBit Reg.PWR_STAT 31 true).modStore (fun y => { y with mainRise := some (s.at_ t).now })
    execMainOkRise t s = .next (if s.bit Reg.PWR_STAT 30 then high else high.event Reg.PWR_EVT 1) := by
  intro high
  have hb : high.bit Reg.PWR_STAT 30 = s.bit Reg.PWR_STAT 30 := (s.at_ t).bit_setBit_ne _ _ _ (by decide)
  have hm' : (s.at_ t).bit Reg.PWR_STAT 31 = false := Bool.eq_false_iff.mpr hm
  unfold execMainOkRise
  dsimp only
  rw [hm', if_neg (by decide), ← hb]

section
variable (s : State) (t : Nat)

theorem execHoldOkFall_main (hb : s.bit Reg.PWR_STAT 30 = true) (hm : s.bit Reg.PWR_STAT 31 = true) :
    execHoldOkFall t s = .next (((s.at_ t).setBit Reg.PWR_STAT 30 false).event Reg.PWR_EVT 1) := by
  have hb' : (s.at_ t).bit Reg.PWR_STAT 30 = true := hb
  have hm' : ((s.at_ t).setBit Reg.PWR_STAT 30 false).bit Reg.PWR_STAT 31 = true := ((s.at_ t).bit_setBit_ne _ _ _ (by decide)).trans hm
  simp only [execHoldOkFall, hb', hm', Bool.not_true, Bool.false_eq_true, if_false, if_true]

theorem execHoldOkFall_low (hb : s.bit Reg.PWR_STAT 30 = true) (hm : ¬s.bit Reg.PWR_STAT 31 = true) :
    execHoldOkFall t s = .next (if s.store.hold = 1 then ((s.at_ t).setBit Reg.PWR_STAT 30 false).holdCut
      else (s.at_ t).setBit Reg.PWR_STAT 30 false) := by
  have hb' : (s.at_ t).bit Reg.PWR_STAT 30 = true := hb
  have hm' : ((s.at_ t).setBit Reg.PWR_STAT 30 false).bit Reg.PWR_STAT 31 = false :=
    ((s.at_ t).bit_setBit_ne _ _ _ (by decide)).trans (Bool.eq_false_iff.mpr hm)
  simp only [execHoldOkFall, hb', hm', Bool.not_true, Bool.false_eq_true, if_false]
  rfl

theorem execHoldOkRise_of_low (hb : ¬s.bit Reg.PWR_STAT 30 = true) :
    execHoldOkRise t s = .next (((s.at_ t).setBit Reg.PWR_STAT 30 true).event Reg.PWR_EVT 0) := by
  have hb' : (s.at_ t).bit Reg.PWR_STAT 30 = false := Bool.eq_false_iff.mpr hb
  simp only [execHoldOkRise, hb', Bool.false_eq_true, if_false]

theorem execMainStableExpiry_due {r : Nat} (hr : s.store.mainRise = some r) (hm : s.bit Reg.PWR_STAT 31 = true)
    (hh : 2 ≤ s.store.hold) (ht : r + 10000000 ≤ (s.at_ t).now) : execMainStableExpiry t s = .next (s.at_ t).coldStart := by
  have hr' : (s.at_ t).store.mainRise = some r := hr
  have hm' : (s.at_ t).bit Reg.PWR_STAT 31 = true := hm
  have hh' : 2 ≤ (s.at_ t).store.hold := hh
  simp only [execMainStableExpiry, hr', hm', hh', ht, State.onlyIf, decide_true, Bool.and_self, if_true]

end

/-- The state of a cold start before heat and STO_EVT bit 6 are judged: the flash, host memory, STO_HOLD and the power pins
stay (R331). -/
def State.coldReset (s : State) : State :=
  let z : State := { State.reset with
    pending := s.pending, free := s.free, nextOrd := s.nextOrd, hostMem := s.hostMem
    store := { pages := s.store.pages, maps := s.store.maps, jchain := s.store.jchain, mainRise := some 0 } }
  (z.wr Reg.STO_HOLD (s.rd Reg.STO_HOLD)).wr Reg.PWR_STAT (s.rd Reg.PWR_STAT &&& 0xC0000000)

/-- A device parked for heat that is still hot stays so (R396). -/
def State.coldBase (s : State) : State :=
  let z := s.coldReset
  if s.bit Reg.PWR_STAT 28 && decide (4 * (z.fld Reg.PWR_THERM 7 0 : Int) ≤ ((s.rd Reg.PWR_TJ).setWidth 16).toInt) then
    { (z.setBit Reg.PWR_STAT 28 true).wr Reg.PWR_TJ (s.rd Reg.PWR_TJ) with flt := { z.flt with down := true } }
  else z

theorem coldStart_eq (s : State) :
    s.coldStart = if s.fld Reg.STO_HOLD 31 30 = 1 then s.coldBase else s.coldBase.event Reg.STO_EVT 6 := rfl

theorem coldBase_tables (s : State) :
    s.coldBase.store = { pages := s.store.pages, maps := s.store.maps, jchain := s.store.jchain, mainRise := some 0 }
    ∧ s.coldBase.hostMem = s.hostMem ∧ s.coldBase.insts = [] ∧ s.coldBase.mem = [] ∧ s.coldBase.queues = [] := by
  unfold State.coldBase
  dsimp only
  split <;> exact ⟨rfl, rfl, rfl, rfl, rfl⟩

theorem coldBase_rd (s : State) {a : Nat} (hp : a ≠ Reg.PWR_STAT) (ht : a ≠ Reg.PWR_TJ) :
    s.coldBase.rd a = if a = Reg.STO_HOLD then s.rd Reg.STO_HOLD else resetValue a := by
  have hz : s.coldReset.rd a = if a = Reg.STO_HOLD then s.rd Reg.STO_HOLD else resetValue a := by
    rw [State.coldReset, State.rd_wr_ne _ hp]
    split
    · rename_i h; rw [h, State.rd_wr_self]
    · rename_i h; rw [State.rd_wr_ne _ h]; rfl
  rw [← hz]
  unfold State.coldBase
  dsimp only
  split
  · exact (State.rd_wr_ne _ ht _).trans (State.rd_wr_ne _ hp _)
  · rfl

/-- A cold start keeps the flash and host memory, every other table is as after reset, and STO_EVT bit 6 says whether the
hold-up commit did not complete (R331). -/
theorem coldStart_spec (s : State) :
    s.coldStart.store = { pages := s.store.pages, maps := s.store.maps, jchain := s.store.jchain, mainRise := some 0 }
    ∧ s.coldStart.hostMem = s.hostMem ∧ s.coldStart.insts = [] ∧ s.coldStart.mem = [] ∧ s.coldStart.queues = []
    ∧ s.coldStart.rd Reg.STO_HOLD = s.rd Reg.STO_HOLD
    ∧ (s.coldStart.bit Reg.STO_EVT 6 = true ↔ s.fld Reg.STO_HOLD 31 30 ≠ 1) := by
  obtain ⟨hs, hm, hi, hmem, hq⟩ := coldBase_tables s
  have hh : s.coldBase.rd Reg.STO_HOLD = s.rd Reg.STO_HOLD := coldBase_rd s (by decide) (by decide)
  have hv : resetValue Reg.STO_EVT = 0 := by decide +kernel
  have he : s.coldBase.bit Reg.STO_EVT 6 = false := by
    rw [State.bit, coldBase_rd s (by decide) (by decide), if_neg (by decide), hv]; rfl
  rw [coldStart_eq]
  split
  · rename_i h
    exact ⟨hs, hm, hi, hmem, hq, hh, by simp [he, h]⟩
  · rename_i h
    have k := events_event s.coldBase Reg.STO_EVT 6
    refine ⟨by rw [k.2]; exact hs, by rw [k.2]; exact hm, by rw [k.2]; exact hi, by rw [k.2]; exact hmem,
      by rw [k.2]; exact hq, ?_, ?_⟩
    · rw [rd_event_ne _ _ (by decide) (by decide), hh]
    · simp [State.bit_event_self s.coldBase (a := Reg.STO_EVT) (n := 6) (by decide) (by decide), h]

/-- Settles O54: each clause is one of the equations of the power commands above, with what parking, the closing of the store
and the end of a pair keep (`FaultKept`) and what the hold-up commit, its cut and a cold start leave. -/
theorem powerAndHoldUp : Obligations.PowerAndHoldUp := by
  unfold Obligations.PowerAndHoldUp
  intro s t
  refine ⟨fun hm h0 h1 => execMainOkFall_again s t hm h0 h1, fun hm h1 hb => ⟨_, execMainOkFall_cut s t hm h1 hb, ?_⟩,
    fun hm h0 => ⟨_, execMainOkFall_first s t hm h0, ?_⟩, fun hm => execMainOkRise_of_low s t hm,
    fun r hr hm hh ht => ⟨_, execMainStableExpiry_due s t hr hm hh ht, ?_⟩, fun hb hm => execHoldOkFall_main s t hb hm,
    fun hb hm h1 => ?_, fun hb hm h1 => ⟨((s.at_ t).setBit Reg.PWR_STAT 30 false).holdCut, ?_, ?_⟩,
    fun hb => execHoldOkRise_of_low s t hb⟩
  · obtain ⟨hold, todo, jbuf, pages, _, power⟩ := holdCut_spec (s.at_ t).mainLow
    exact ⟨hold, todo, jbuf, pages, (power 31 (by decide)).trans (mainLow_main _)⟩
  · obtain ⟨hmain, hnm, hdown, hinst, hlow, hhigh⟩ := mainDown_spec (s.at_ t) _ rfl
    exact ⟨hmain, hnm, hdown, hinst, hlow, hhigh⟩
  · obtain ⟨hs, hm, hi, hmem, hq, hh, he⟩ := coldStart_spec (s.at_ t)
    rw [hs]
    exact ⟨rfl, rfl, rfl, rfl, rfl, hm, hi, hmem, hq, hh, he⟩
  · exact (execHoldOkFall_low s t hb hm).trans (by rw [if_neg h1])
  · exact (execHoldOkFall_low s t hb hm).trans (by rw [if_pos h1])
  · obtain ⟨hold, todo, jbuf, pages, shown, _⟩ := holdCut_spec ((s.at_ t).setBit Reg.PWR_STAT 30 false)
    exact ⟨hold, todo, jbuf, pages, shown⟩

end Sys2Proof.Machine
end

section
/-! Host accesses (O59): writes and their aliases, reads and their shadows, parity, wide counters and unmasking. -/

-- As in the tests: a check of the whole text as one file runs out of threads otherwise.
set_option Elab.async false

namespace Sys2Proof.Machine

/-! ### Host writes of the manager and through aliases (R399, R403, R406) -/

theorem hostOff_manager (s : State) {a : Nat} (be : BitVec 4) (v : Word) (ha : a < 0x4000000) (h4 : a % 4 = 0) :
    s.hostOff 0 a be v = s.hostWrite 0 0 a be v := by
  unfold State.hostOff
  rw [if_pos rfl, if_neg (by omega), if_neg (by simpa using h4), if_pos rfl]

theorem hostOff_function (s : State) {f a : Nat} (be : BitVec 4) (v : Word) (hf : 1 ≤ f) (ha : a < 0x100000) (h4 : a % 4 = 0) :
    s.hostOff f a be v = s.hostWrite f 1 a be v := by
  have hf0 : f ≠ 0 := by omega
  have hb : ¬ 0x100000 ≤ a := by omega
  simp [State.hostOff, hf0, hb, h4]

/-- An access that is not aligned to 4 is an Unsupported Request (R400). -/
theorem hostOff_misaligned (s : State) {f a : Nat} (be : BitVec 4) (v : Word) (ha : a < 0x100000) (h4 : a % 4 ≠ 0) :
    s.hostOff f a be v = .next (s.unsupported f) := by
  unfold State.hostOff
  rw [if_neg (by split <;> omega), if_pos h4]

/-- A write of a device that is not paired takes effect here and now. -/
theorem hostWrite_unpaired (s : State) {f : Nat} (bar off : Nat) (be : BitVec 4) (v : Word) (hf : s.fnOn f = true)
    (ht : s.tdm.st ≠ 2) : s.hostWrite f bar off be v = s.apply f bar off be v := by
  simp [State.hostWrite, State.follower, State.leads, hf, ht]

theorem fnOn_manager (s : State) : s.fnOn 0 = true := rfl

theorem owns_manager (s : State) (a : Nat) : s.owns 0 a = true := rfl

/-- A write of the manager at an offset of its BAR0, on a device that is not paired. -/
theorem hostOff_direct (s : State) {a : Nat} (be : BitVec 4) (v : Word) (ht : s.tdm.st ≠ 2) (ha : a < 0x4000000) (h4 : a % 4 = 0) :
    s.hostOff 0 a be v = s.writeReg 0 a be v := by
  rw [hostOff_manager s be v ha h4, hostWrite_unpaired s 0 a be v (fnOn_manager s) ht]
  rfl

/-- The offset of an alias of a plain offset. -/
theorem aliasOf_add {a n : Nat} (h : aliasOf a = 0) (hn : n < 4) : aliasOf (a + 0x4000 * n) = n := by
  unfold aliasOf at *; omega

theorem plainOf_add {a n : Nat} (h : aliasOf a = 0) (hn : n < 4) : plainOf (a + 0x4000 * n) = a := by
  rw [plainOf, aliasOf_add h hn]; omega

theorem plainOf_plain {a : Nat} (h : aliasOf a = 0) : plainOf a = a := by simp [plainOf, h]

/-- A write through an alias of the manager. -/
theorem aliasWrite_direct (s : State) {a n : Nat} (be : BitVec 4) (v : Word) (ht : s.tdm.st ≠ 2) (hp : aliasOf a = 0) (hn : n < 4)
    (h4 : a % 4 = 0) (ha : a + 0xC000 < 0x4000000) :
    s.aliasWrite n 0 a be v = s.writeReg 0 (a + 0x4000 * n) be v := by
  rw [State.aliasWrite, plainOf_plain hp, hostOff_direct s be v ht (by omega) (by omega)]

/-- A direct write of a register without an effect of its own, plain or through an alias. -/
theorem writeReg_unhooked (s : State) (f a p : Nat) (be : BitVec 4) (v : Word) (d : RegDesc) (he : plainOf a = p)
    (h : s.direct f p) (hp : plainReg p = true) (hd : regAt p = some d) (hn : s.noPlan p = false)
    (hh : ∀ h ∈ hooks, rowOf h.base h.stride h.count p = none) :
    s.writeReg f a be v =
      (let w := landing d (f == 0) (s.lckOpen p) (aliasOf a) be v (s.rd p)
       .next (if w.mask = 0 ∧ w.one = 0 then s else (if s.lands p d w then s.healIf (· == p) else s).plainWrite p d w)) := by
  obtain ⟨_, ho, _, hs⟩ := h
  have has : ∀ t : State, t.assigned p = none := fun t => assigned_plain t p hp
  have hk : ∀ (t : State) (w : Landing),
      hooks.findSome? (fun h => (rowOf h.base h.stride h.count p).map (fun n => h.run t n w)) = none := fun t w =>
    List.findSome?_eq_none_iff.mpr (fun h hm => by rw [hh h hm]; rfl)
  simp only [plainReg, Bool.and_eq_true, beq_iff_eq, bne_iff_ne, Bool.not_eq_true'] at hp
  obtain ⟨⟨⟨⟨⟨⟨⟨⟨⟨⟨⟨⟨⟨⟨⟨_, _⟩, hsel⟩, hrd⟩, hcmd⟩, hq⟩, hhi⟩, hlo⟩, hins⟩, hevt⟩, hpwr⟩, htail⟩, hitail⟩, hg⟩, _⟩, _⟩ :=
    hp
  have hw := wakeFor_plain s p hg
  unfold State.writeReg
  rw [he]
  rw [Option.isNone_iff_eq_none] at hins hitail
  simp [hs, hw, hd, ho, hn, hsel, hrd, hcmd, hq, hhi, hlo, htail, hins, hitail, hevt, hpwr, has, hk]
  split <;> rfl

/-- A register that no hook's row holds is in no row with a rule that can ignore a write: parity follows the fields written. -/
theorem lands_unhooked (s : State) (p : Nat) (d : RegDesc) (w : Landing) (ha : s.assigned p = none)
    (hh : ∀ h ∈ hooks, rowOf h.base h.stride h.count p = none) : s.lands p d w = ((w.mask &&& d.covered) != 0) := by
  have hrow : ∀ b st c, (∃ h ∈ hooks, h.base = b ∧ h.stride = st ∧ h.count = c) → rowOf b st c p = none := by
    rintro b st c ⟨h, hm, rfl, rfl, rfl⟩
    exact hh h hm
  have hne : ∀ b, (∃ h ∈ hooks, h.base = b ∧ h.stride = 4 ∧ h.count = 1) → p ≠ b := by
    intro b hb e
    have := hrow b 4 1 hb
    simp [rowOf, e] at this
  have h1 := hne Reg.CAD_PERIOD (by decide)
  have h2 := hne Reg.PWR_DROOP (by decide)
  have h3 := hne Reg.PWR_THERM (by decide)
  have h4 := hrow (Reg.CAD_I_EMPTY_LIMIT 0) 0x40 8 (by decide)
  have h5 := hrow (Reg.INS_I_LOAD_SRC 0) 0x80 8 (by decide)
  have h6 := hrow (Reg.ADP_I_MARGIN 0) 0x40 8 (by decide)
  simp [State.lands, ha, h1, h2, h3, h4, h5, h6]

/-- A register that is neither an event register nor an enable register only stores. -/
theorem plainWrite_stores (s : State) {p : Nat} {d : RegDesc} (w : Landing) (hc : d.w1c = 0) (he : evtReg p = false)
    (hn : evtReg (p - 4) = false) : s.plainWrite p d w = s.wr p w.nv := by
  simp [State.plainWrite, hc, he, hn, wd, -BitVec.reduceAllOnes]

/-- Mending a parity bit and storing a value touch different parts of the state. -/
theorem healIf_wr (s : State) (q : Nat → Bool) (a : Nat) (v : Word) : (s.healIf q).wr a v = (s.wr a v).healIf q := rfl

theorem and_or_self (x y z : Word) : x &&& (x ||| y ||| z) = x := by
  ext i hi
  rw [BitVec.getElem_and, BitVec.getElem_or, BitVec.getElem_or]
  cases x[i] <;> rfl

/-- The bits of register `a`, of fields `d`, that a plain write of the manager stores. -/
def State.writable (s : State) (a : Nat) (d : RegDesc) (be : BitVec 4) : Word :=
  (wd d.rw ||| wd d.prv ||| wd d.cnt ||| (if s.lckOpen a then wd d.lck else 0)) &&& beMask be

/-- The manager reaches register `a` of fields `d` directly, and a write of it stores its fields and does nothing else. -/
structure Storing (s : State) (a : Nat) (d : RegDesc) : Prop where
  direct : s.direct 0 a
  desc : regAt a = some d
  plain : plainReg a = true
  plan : s.noPlan a = false
  w1c : d.w1c = 0
  cmd : d.cmd = 0
  unhooked : ∀ h ∈ hooks, rowOf h.base h.stride h.count a = none
  noEvent : evtReg a = false
  noEnable : evtReg (a - 4) = false

namespace Storing

variable {s : State} {a : Nat} {d : RegDesc} (h : Storing s a d)
include h

theorem aliasOf_eq : aliasOf a = 0 := by
  have hp := h.plain
  simp only [plainReg, Bool.and_eq_true, beq_iff_eq] at hp
  simp only [hp]

theorem unpaired : s.tdm.st ≠ 2 := by
  obtain ⟨_, _, ht, _⟩ := h.direct
  exact ht

theorem landing_one (al : Nat) (be : BitVec 4) (v : Word) : (landing d true (s.lckOpen a) al be v (s.rd a)).one = 0 := by
  unfold landing
  split <;> simp [h.w1c, h.cmd, wd]

/-- A write that brings no stored bit changes nothing. -/
theorem writeReg_nothing {b : Nat} (be : BitVec 4) (v : Word) (hb : plainOf b = a)
    (hm : (landing d true (s.lckOpen a) (aliasOf b) be v (s.rd a)).mask = 0) : s.writeReg 0 b be v = .next s := by
  rw [writeReg_unhooked s 0 b a be v d hb h.direct h.plain h.desc h.plan h.unhooked]
  exact congrArg _ (if_pos ⟨hm, h.landing_one _ be v⟩)

/-- A write that brings bits of fields under parity stores them and mends the parity bit. -/
theorem writeReg_stores {b : Nat} (be : BitVec 4) (v : Word) (hb : plainOf b = a)
    (hm : (landing d true (s.lckOpen a) (aliasOf b) be v (s.rd a)).mask &&& d.covered ≠ 0) :
    s.writeReg 0 b be v = .next ((s.wr a (landing d true (s.lckOpen a) (aliasOf b) be v (s.rd a)).nv).healIf (· == a)) := by
  have hl : s.lands a d (landing d true (s.lckOpen a) (aliasOf b) be v (s.rd a)) = true := by
    rw [lands_unhooked s a d _ (assigned_plain s a h.plain) h.unhooked]
    simpa using hm
  have hm0 : (landing d true (s.lckOpen a) (aliasOf b) be v (s.rd a)).mask ≠ 0 := fun e => hm (by rw [e]; simp)
  rw [writeReg_unhooked s 0 b a be v d hb h.direct h.plain h.desc h.plan h.unhooked, beq_self_eq_true]
  refine congrArg _ ((if_neg (fun e => hm0 e.1)).trans ?_)
  rw [if_pos hl, plainWrite_stores _ _ h.w1c h.noEvent h.noEnable, healIf_wr]

/-- The stored bits that a plain write of the manager brings. -/
theorem plain_mask (be : BitVec 4) (v : Word) :
    (landing d true (s.lckOpen a) (aliasOf a) be v (s.rd a)).mask
      = s.writable a d be := by
  simp only [State.writable, landing, h.aliasOf_eq, if_true]
  ac_rfl

/-- The value that a plain write of the manager leaves. -/
theorem plain_nv (be : BitVec 4) (v : Word) :
    (landing d true (s.lckOpen a) (aliasOf a) be v (s.rd a)).nv
      = merge (s.rd a) v (landing d true (s.lckOpen a) (aliasOf a) be v (s.rd a)).mask := by
  simp only [landing, h.aliasOf_eq, if_true, merge]
  congr 1
  ext i
  simp
  grind

theorem registerWrite_stores (be : BitVec 4) (v : Word) (h4 : a % 4 = 0) (ha : a < 0x4000000)
    (hm : s.writable a d be &&& d.covered ≠ 0) :
    exec (.registerWrite 0 a be v) s = .next ((s.wr a (merge (s.rd a) v (s.writable a d be))).healIf (· == a)) := by
  rw [exec_registerWrite, execRegisterWrite, hostOff_direct s be v h.unpaired ha h4,
    h.writeReg_stores be v (plainOf_plain h.aliasOf_eq) (by rwa [h.plain_mask]), h.plain_nv, h.plain_mask]

theorem registerWrite_nothing (be : BitVec 4) (v : Word) (h4 : a % 4 = 0) (ha : a < 0x4000000)
    (hm : s.writable a d be = 0) :
    exec (.registerWrite 0 a be v) s = .next s := by
  rw [exec_registerWrite, execRegisterWrite, hostOff_direct s be v h.unpaired ha h4]
  exact h.writeReg_nothing be v (plainOf_plain h.aliasOf_eq) (by rwa [h.plain_mask])

/-- A write through an alias stores the result of its operation in the RW fields. -/
theorem aliasWrite_stores {n : Nat} (be : BitVec 4) (v : Word) (hn : n < 4) (h0 : n ≠ 0) (h4 : a % 4 = 0) (ha : a < 0x4000000)
    (hr : wd d.rw ≠ 0) : s.aliasWrite n 0 a be v
      = .next ((s.wr a (merge (s.rd a) (if n = 1 then s.rd a ||| v &&& beMask be
          else if n = 2 then s.rd a &&& ~~~(v &&& beMask be) else s.rd a ^^^ (v &&& beMask be)) (wd d.rw))).healIf (· == a)) := by
  have hal := h.aliasOf_eq
  have hlim : a + 0xC000 < 0x4000000 := by unfold aliasOf at hal; omega
  rw [aliasWrite_direct s be v h.unpaired hal hn h4 hlim, h.writeReg_stores be v (plainOf_add hal hn)]
  · simp [aliasOf_add hal hn, landing, h0, merge]
  · simp only [aliasOf_add hal hn, landing, h0, if_false, RegDesc.covered]
    rwa [and_or_self]

theorem setAlias_stores (be : BitVec 4) (v : Word) (h4 : a % 4 = 0) (ha : a < 0x4000000) (hr : wd d.rw ≠ 0) :
    exec (.setAlias 0 a be v) s = .next ((s.wr a (merge (s.rd a) (s.rd a ||| v &&& beMask be) (wd d.rw))).healIf (· == a)) := by
  rw [exec_setAlias, execSetAlias, h.aliasWrite_stores be v (by decide) (by decide) h4 ha hr, if_pos rfl]

theorem clearAlias_stores (be : BitVec 4) (v : Word) (h4 : a % 4 = 0) (ha : a < 0x4000000) (hr : wd d.rw ≠ 0) :
    exec (.clearAlias 0 a be v) s
      = .next ((s.wr a (merge (s.rd a) (s.rd a &&& ~~~(v &&& beMask be)) (wd d.rw))).healIf (· == a)) := by
  rw [exec_clearAlias, execClearAlias, h.aliasWrite_stores be v (by decide) (by decide) h4 ha hr, if_neg (by decide), if_pos rfl]

theorem toggleAlias_stores (be : BitVec 4) (v : Word) (h4 : a % 4 = 0) (ha : a < 0x4000000) (hr : wd d.rw ≠ 0) :
    exec (.toggleAlias 0 a be v) s
      = .next ((s.wr a (merge (s.rd a) (s.rd a ^^^ (v &&& beMask be)) (wd d.rw))).healIf (· == a)) := by
  rw [exec_toggleAlias, execToggleAlias, h.aliasWrite_stores be v (by decide) (by decide) h4 ha hr,
    if_neg (by decide), if_neg (by decide)]

end Storing

/-! ### Accesses that reach no register (R370, R399, R400, R406) -/

/-- A write to an alias of an empty offset has no defined outcome. -/
theorem aliasWrite_empty (s : State) {a n : Nat} (be : BitVec 4) (v : Word) (hn : n < 4) (h0 : n ≠ 0) (hr : regAt a = none)
    (hp : aliasOf a = 0) (h4 : a % 4 = 0) (ha : a + 0xC000 < 0x4000000) (ht : s.tdm.st ≠ 2)
    (hs : (s.dom (regDomain a)).stopped = false) :
    s.aliasWrite n 0 a be v = .fault (.unpredictable 406) := by
  rw [aliasWrite_direct s be v ht hp hn h4 ha]
  simp [State.writeReg, plainOf_add hp hn, aliasOf_add hp hn, hs, hr, h0]

theorem hostWrite_off (s : State) {f : Nat} (bar off : Nat) (be : BitVec 4) (v : Word) (hf : s.fnOn f = false) :
    s.hostWrite f bar off be v = .next s := by
  simp [State.hostWrite, hf]

/-- A function that is off reaches nothing. -/
theorem hostOff_off (s : State) {f a : Nat} (be : BitVec 4) (v : Word) (h4 : a % 4 = 0) (hf : s.fnOn f = false) :
    s.hostOff f a be v = .next s := by
  simp [State.hostOff, h4, hostWrite_off s _ _ be v hf]

/-- A register that the function does not own ignores its write. -/
theorem writeReg_foreign (s : State) {f a : Nat} (be : BitVec 4) (v : Word) (hp : aliasOf a = 0)
    (hg : gateable (regDomain a) = false) (ho : s.owns f a = false) (hr : regAt a ≠ none) : s.writeReg f a be v = .next s := by
  obtain ⟨d, hd⟩ := Option.ne_none_iff_exists'.mp hr
  simp [State.writeReg, plainOf_plain hp, wakeFor_plain s a hg, hd, ho]

theorem aliasOf_window {a : Nat} (hp : aliasOf a = 0) : aliasOf (0x100000 + a) = 0 := by
  unfold aliasOf at *; omega

theorem hostOff_foreign (s : State) {f a : Nat} (be : BitVec 4) (v : Word) (hf : s.fnOn f = true) (h1 : 1 ≤ f) (ht : s.tdm.st ≠ 2)
    (h4 : a % 4 = 0) (ha : a < 0x100000) (hp : aliasOf a = 0) (hg : gateable (regDomain (0x100000 + a)) = false)
    (ho : s.owns f (0x100000 + a) = false) (hr : regAt (0x100000 + a) ≠ none) : s.hostOff f a be v = .next s := by
  rw [hostOff_function s be v h1 ha h4, hostWrite_unpaired s 1 a be v hf ht]
  exact writeReg_foreign s be v (aliasOf_window hp) hg ho hr

/-- The manager's offsets below 1 MB lie outside the TDM block. -/
theorem toTdm_low {a : Nat} (ha : a < 0x100000) : toTdm 0 a = false := by
  have : a / 0x10000 ≠ 0x1F := by omega
  simp [toTdm, pfOffset, this]

/-- A paired follower counts a write outside the TDM block as dropped. -/
theorem hostOff_follower (s : State) {a : Nat} (be : BitVec 4) (v : Word) (ht : s.tdm.st = 2) (hr : s.tdm.role = 2)
    (h4 : a % 4 = 0) (ha : a < 0x100000) : s.hostOff 0 a be v = .next (s.count Reg.TDM_HOSTWR_DROP) := by
  rw [hostOff_manager s be v (by omega) h4]
  simp [State.hostWrite, fnOn_manager, State.follower, ht, hr, toTdm_low ha]

/-- A paired lead sends the write on, and holds it while a tick that precedes it is due. -/
theorem hostOff_lead (s : State) {a : Nat} (be : BitVec 4) (v : Word) (ht : s.tdm.st = 2) (hr : s.tdm.role = 1)
    (hd : s.tickDue = true) (h4 : a % 4 = 0) (ha : a < 0x100000) : ∃ u h, s.hostOff 0 a be v = .next u
      ∧ u.tdm.held = s.tdm.held ++ [h] ∧ h.off = a ∧ h.be = be ∧ h.v = v ∧ u.regs = s.regs
      ∧ u.tdm.unacked.length = s.tdm.unacked.length + 1 := by
  rw [hostOff_manager s be v (by omega) h4]
  have hdue : ∀ m, (s.tdmFrame m).tickDue = true := fun m => hd
  simp only [State.hostWrite, fnOn_manager, State.follower, State.leads, ht, hr, State.tdmPost, if_true, hdue]
  exact ⟨_, _, rfl, rfl, rfl, rfl, rfl, rfl, List.length_append⟩

/-! ### Reads and their shadows (R404) -/

theorem readShadowLatch_direct (s : State) {a : Nat} (h4 : a % 4 = 0) (ha : a < 0x4000000) :
    exec (.readShadowLatch 0 a) s = .next (s.readReg 0 a) := by
  have : ¬ 0x4000000 ≤ a := by omega
  simp [execReadShadowLatch, fnOn_manager, h4, this]

theorem readShadowLatch_misaligned (s : State) {f a : Nat} (hf : s.fnOn f = true) (h4 : a % 4 ≠ 0) (ha : a < 0x100000) :
    exec (.readShadowLatch f a) s = .next (s.unsupported f) := by
  have : ¬ (if f = 0 then 0x4000000 else 0x100000) ≤ a := by split <;> omega
  simp [execReadShadowLatch, hf, h4, this]

/-- What a shadow holds for a register after a group has been latched. -/
theorem get_latchAll (g : Nat → Word) (key : Nat → Nat) (hk : Function.Injective key) (rs : List Nat) (m : SMap Word) (r : Nat) :
    SMap.get 0 (rs.foldl (fun m b => SMap.set 0 (key b) (g b) m) m) (key r) = if r ∈ rs then g r else SMap.get 0 m (key r) := by
  induction rs generalizing m with
  | nil => simp
  | cons b rs ih =>
    rw [List.foldl_cons, ih]
    by_cases hr : r ∈ rs
    · simp [hr]
    · by_cases hb : r = b
      · simp [hb]
      · have : key r ≠ key b := fun e => hb (hk e)
        simp [hr, hb, SMap.get_set_ne _ _ this]

/-- A read of the first register of a group, or of none. -/
theorem readReg_first (s : State) {a : Nat} (hp : aliasOf a = 0) (hg : gateable (regDomain a) = false)
    (hs : (s.dom (regDomain a)).stopped = false) (hl : latched a = false) :
    (s.readReg 0 a).hif.lastRead = s.regVal 0 a
      ∧ (∀ r ∈ latches a, SMap.get 0 (s.readReg 0 a).hif.readShadow r = s.regVal 0 r)
      ∧ s.readReg 0 a = { s with free := (s.readReg 0 a).free, hif := { s.hif with
          lastRead := (s.readReg 0 a).hif.lastRead, readShadow := (s.readReg 0 a).hif.readShadow } } := by
  simp only [State.readReg, plainOf_plain hp, hs, wakeFor_plain s a hg, hl, Nat.mul_zero, Nat.zero_add]
  refine ⟨rfl, fun r hr => ?_, rfl⟩
  exact (get_latchAll (s.regVal 0) id (fun _ _ e => e) (latches a) s.hif.readShadow r).trans (if_pos hr)

/-- A read of the others shows the shadow. -/
theorem readReg_latched (s : State) {a : Nat} (hp : aliasOf a = 0) (hg : gateable (regDomain a) = false)
    (hs : (s.dom (regDomain a)).stopped = false) (hl : latched a = true) :
    s.readReg 0 a = { s with hif := { s.hif with lastRead := SMap.get 0 s.hif.readShadow a } } := by
  simp [State.readReg, plainOf_plain hp, hs, wakeFor_plain s a hg, hl]

/-! ### Sets of keys -/

@[simp] theorem mem_insKey {k j : Nat} (m : List Nat) : j ∈ insKey k m ↔ j = k ∨ j ∈ m := by
  induction m with
  | nil => simp [insKey]
  | cons i m ih =>
    unfold insKey
    split
    · simp_all
    · split
      · simp
      · simp only [List.mem_cons, ih]
        exact or_left_comm

@[simp] theorem mem_delKey {k j : Nat} (m : List Nat) : j ∈ delKey k m ↔ j ∈ m ∧ j ≠ k := by
  simp [delKey]

/-! ### Configuration parity (R407, R408) -/

/-- A parity mismatch stands, is marked as reported, and is counted. -/
def State.parityCounted (s : State) (key : Nat) : State :=
  let s := s.parityStands key
  let s := { s with hif := { s.hif with parityReported := insKey key s.hif.parityReported } }
  (s.count Reg.HIF_PAR_COUNT).event Reg.HIF_EVT 0

/-- Its address is recorded besides, where none is held. -/
def State.parityNoted (s : State) (key : Nat) : State :=
  if (s.parityCounted key).bit Reg.HIF_PAR_ADDR 31 then s.parityCounted key
  else (s.parityCounted key).wr Reg.HIF_PAR_ADDR (BitVec.ofNat 32 (2 ^ 31 + key % 2 ^ 26))

theorem parityFault_owned (s : State) {key i : Nat} (h : (s.parityNoted key).parityOwner key = some i) :
    s.parityFault key = (s.parityNoted key).instFault (some i) 0x11 0 0 0xFFFF (BitVec.ofNat 32 (key % 2 ^ 26)) :=
  show (match (s.parityNoted key).parityOwner key with | some i => _ | none => _) = _ by rw [h]; rfl

theorem parityFault_unowned (s : State) {key : Nat} (h : (s.parityNoted key).parityOwner key = none) :
    s.parityFault key = (s.parityNoted key).deviceFault 0x11 0 0xFFFF (BitVec.ofNat 32 (key % 2 ^ 26)) :=
  show (match (s.parityNoted key).parityOwner key with | some i => _ | none => _) = _ by rw [h]; rfl

/-- Counting a mismatch raises HIF_EVT.par_fault and changes no other register but HIF_MSG_DROP. -/
theorem parityCounted_spec (s : State) (key : Nat) :
    (s.parityCounted key).rd Reg.HIF_PAR_COUNT = satAdd (s.rd Reg.HIF_PAR_COUNT) 1
      ∧ (s.parityCounted key).bit Reg.HIF_EVT 0 = true
      ∧ key ∈ (s.parityCounted key).hif.parityReported
      ∧ (s.parityCounted key).hif.writeShadow = s.hif.writeShadow
      ∧ RegsKept s (s.parityCounted key) [Reg.HIF_PAR_COUNT, Reg.HIF_EVT, Reg.HIF_MSG_DROP]
      ∧ (s.parityCounted key).insts = s.insts := by
  let m : State := { s.parityStands key with hif := { (s.parityStands key).hif with
    parityReported := insKey key (s.parityStands key).hif.parityReported } }
  obtain ⟨hr, hs⟩ := events_event (m.count Reg.HIF_PAR_COUNT) Reg.HIF_EVT 0
  have hm : s.parityCounted key = (m.count Reg.HIF_PAR_COUNT).event Reg.HIF_EVT 0 := rfl
  rw [hm]
  refine ⟨?_, State.bit_event_self _ (by decide) (by decide), ?_, ?_, fun a ha => ?_, ?_⟩
  · rw [hr _ (by decide)]
    exact State.rd_wr_self _ _ _
  · rw [hs]
    exact (mem_insKey _).mpr (.inl rfl)
  · rw [hs]
    rfl
  · simp only [List.mem_cons, List.not_mem_nil, or_false, not_or] at ha
    obtain ⟨h1, h2, h3⟩ := ha
    rw [hr a (by simp [h2, h3])]
    exact State.rd_wr_ne _ h1 _
  · rw [hs]
    rfl

/-- What noting a mismatch leaves: the count, HIF_EVT.par_fault, and the address where none was held. -/
theorem parityNoted_spec (s : State) (key : Nat) :
    (s.parityNoted key).rd Reg.HIF_PAR_COUNT = satAdd (s.rd Reg.HIF_PAR_COUNT) 1
      ∧ (s.parityNoted key).bit Reg.HIF_EVT 0 = true
      ∧ (s.bit Reg.HIF_PAR_ADDR 31 = false → (s.parityNoted key).rd Reg.HIF_PAR_ADDR = wd (2 ^ 31 + key % 2 ^ 26))
      ∧ key ∈ (s.parityNoted key).hif.parityReported
      ∧ (s.parityNoted key).hif.writeShadow = s.hif.writeShadow
      ∧ (∀ a, 0x10000 ≤ a → (s.parityNoted key).rd a = s.rd a)
      ∧ (s.parityNoted key).insts = s.insts := by
  obtain ⟨hc, he, hm, hw, hr, hi⟩ := parityCounted_spec s key
  have ha : (s.parityCounted key).bit Reg.HIF_PAR_ADDR 31 = s.bit Reg.HIF_PAR_ADDR 31 := by
    rw [State.bit, hr _ (by decide), State.bit]
  have hk : ∀ a, 0x10000 ≤ a → (s.parityCounted key).rd a = s.rd a := fun a h =>
    hr a (by simp [Reg.HIF_PAR_COUNT, Reg.HIF_EVT, Reg.HIF_MSG_DROP]; omega)
  unfold State.parityNoted
  rw [ha]
  cases s.bit Reg.HIF_PAR_ADDR 31 with
  | true => exact ⟨hc, he, nofun, hm, hw, hk, hi⟩
  | false =>
    refine ⟨(State.rd_wr_ne _ (by decide) _).trans hc, (State.bit_wr_ne _ _ _ (by decide)).trans he,
      fun _ => State.rd_wr_self _ _ _, hm, hw, fun a h => (State.rd_wr_ne _ ?_ _).trans (hk a h), hi⟩
    unfold Reg.HIF_PAR_ADDR
    omega

/-- The owner of a register follows from the assignment registers alone. -/
theorem parityOwner_congr {s t : State} {key : Nat} (hk : key < 2 ^ 26) (h : ∀ a, 0x10000 ≤ a → t.rd a = s.rd a) :
    t.parityOwner key = s.parityOwner key := by
  have he (e : Nat) : t.engOwner e = s.engOwner e := by
    have : ∀ i, t.engMask i = s.engMask i := fun i => by
      unfold State.engMask State.rd64
      rw [h _ (by unfold Reg.INS_I_ENGINES_LO; omega), h _ (by unfold Reg.INS_I_ENGINES_HI; omega)]
    simp [State.engOwner, this]
  have hc (c : Nat) : t.colOwner c = s.colOwner c := by
    have : ∀ i, t.ownsCol i c = s.ownsCol i c := fun i => by
      unfold State.ownsCol
      rw [h _ (by unfold Reg.INS_I_COLS; omega)]
    simp [State.colOwner, this]
  have ho (k : Nat) : t.coreOwner k = s.coreOwner k := by
    have : ∀ i, t.ownsCore i k = s.ownsCore i k := fun i => by
      unfold State.ownsCore
      rw [h _ (by unfold Reg.INS_I_CORES; omega)]
    simp [State.coreOwner, this]
  have h0 : key / 67108864 = 0 := Nat.div_eq_of_lt hk
  simp [State.parityOwner, h0, State.unitOwner, he, hc, ho]

theorem parityNoted_owner (s : State) {key : Nat} (hk : key < 2 ^ 26) : (s.parityNoted key).parityOwner key = s.parityOwner key := by
  obtain ⟨_, _, _, _, _, hr, _⟩ := parityNoted_spec s key
  exact parityOwner_congr hk hr

/-- Past the note, the response keeps the HIF registers but HIF_MSG_DROP, and the parity marks. -/
theorem parityFault_hif (s : State) (key : Nat) :
    (∀ a, a < 0x10000 → a ≠ Reg.HIF_MSG_DROP → (s.parityFault key).rd a = (s.parityNoted key).rd a)
      ∧ (s.parityFault key).hif.parityReported = (s.parityNoted key).hif.parityReported
      ∧ (s.parityFault key).hif.writeShadow = (s.parityNoted key).hif.writeShadow := by
  cases ho : (s.parityNoted key).parityOwner key with
  | some i =>
    rw [parityFault_owned s ho]
    have k := (FaultKept.refl (s.parityNoted key)).instFault (o := some i) (src := 0x11) (code := 0) (stage := 0) (unit := 0xFFFF)
      (detail := BitVec.ofNat 32 (key % 2 ^ 26))
    exact ⟨k.hifRegs, by rw [k.hif], by rw [k.hif]⟩
  | none =>
    rw [parityFault_unowned s ho]
    have k := (FaultKept.refl (s.parityNoted key)).deviceFault (src := 0x11) (code := 0) (unit := 0xFFFF)
      (detail := BitVec.ofNat 32 (key % 2 ^ 26))
    exact ⟨k.hifRegs, by rw [k.hif], by rw [k.hif]⟩

/-- An instance fault parks an instance that parks. -/
theorem instFault_st (s : State) {i src code stage unit : Nat} {detail : Word} (hp : (s.inst i).st.parks = true) :
    ((s.instFault (some i) src code stage unit detail).inst i).st = .kickstand := by
  have k := (FaultKept.refl s).report (src := src) (code := code) (sev := 3) (o := some i) (stage := stage) (unit := unit)
    (detail := detail)
  simp only [State.instFault]
  rcases k.inst i with e | e
  · have hp' : ((s.report src code 3 (some i) stage unit detail).inst i).st.parks = true := by rw [e, hp]
    rw [State.parkInst, if_pos hp']
    exact (FaultKept.refl _).tdmFault.kickstand (State.kick_inst_st _ i hp')
  · exact (FaultKept.refl _).parkInst.kickstand e

/-- What a mismatch of the manager's registers brings (R408). -/
theorem parityFault_spec (s : State) {a : Nat} (ha : a < 2 ^ 26) :
    a ∈ (s.parityFault a).hif.parityReported
      ∧ (s.parityFault a).rd Reg.HIF_PAR_COUNT = satAdd (s.rd Reg.HIF_PAR_COUNT) 1
      ∧ (s.parityFault a).bit Reg.HIF_EVT 0 = true
      ∧ (s.bit Reg.HIF_PAR_ADDR 31 = false → (s.parityFault a).rd Reg.HIF_PAR_ADDR = wd (2 ^ 31 + a))
      ∧ (∀ n, s.parityOwner a = some n → (s.inst n).st.parks = true → ((s.parityFault a).inst n).st = .kickstand)
      ∧ (s.parityOwner a = none → (s.parityFault a).flt.down = true) := by
  obtain ⟨hc, he, hd, hr, _, _, hi⟩ := parityNoted_spec s a
  obtain ⟨kr, km, _⟩ := parityFault_hif s a
  have ho := parityNoted_owner s ha
  rw [Nat.mod_eq_of_lt ha] at hd
  refine ⟨by rwa [km], by rwa [kr _ (by decide) (by decide)], by rwa [State.bit, kr _ (by decide) (by decide)],
    fun hb => by rw [kr _ (by decide) (by decide), hd hb], fun n hn hp => ?_, fun hn => ?_⟩
  · rw [parityFault_owned s (ho.trans hn)]
    exact instFault_st _ (by rw [State.inst, hi]; exact hp)
  · rw [parityFault_unowned s (ho.trans hn)]
    exact ((FaultKept.refl _).deviceFault).down

/-! ### Parity faults and their injection (R407, R408) -/

section

variable (s : State) {a : Nat} (ha : a < 2 ^ 26) (hp : hasParity a = true)
include ha hp

/-- PARITY_FAULT of a register of the manager. -/
theorem execParityFault_eq : execParityFault a s =
    .next (if a ∈ s.hif.parityReported then s
      else if (s.dom (regDomain a)).gated = true ∨ (s.dom (regDomain a)).stopped = true then s.parityStands a
      else s.parityFault a) := by
  have h0 : a / 67108864 = 0 := Nat.div_eq_of_lt ha
  have hm : a % 67108864 = a := Nat.mod_eq_of_lt ha
  by_cases hr : a ∈ s.hif.parityReported <;> simp [execParityFault, State.onlyIf, h0, hm, hp, hr]

theorem execParityFault_reported (hr : a ∈ s.hif.parityReported) : execParityFault a s = .next s := by
  rw [execParityFault_eq s ha hp, if_pos hr]

theorem execParityFault_asleep (hr : a ∉ s.hif.parityReported)
    (hd : (s.dom (regDomain a)).gated = true ∨ (s.dom (regDomain a)).stopped = true) :
    execParityFault a s = .next (s.parityStands a) := by
  rw [execParityFault_eq s ha hp, if_neg hr, if_pos hd]

theorem execParityFault_found (hr : a ∉ s.hif.parityReported) (hg : (s.dom (regDomain a)).gated = false)
    (hs : (s.dom (regDomain a)).stopped = false) : execParityFault a s = .next (s.parityFault a) := by
  rw [execParityFault_eq s ha hp, if_neg hr, if_neg (by simp [hg, hs])]

end

/-- A field follows its bits alone. -/
theorem bits_congr {v w : Word} {hi lo : Nat} (hl : lo ≤ hi) (h : ∀ n, lo ≤ n → n ≤ hi → w.getLsbD n = v.getLsbD n) :
    bits w hi lo = bits v hi lo := by
  unfold bits
  apply Nat.eq_of_testBit_eq
  intro i
  rw [Nat.testBit_mod_two_pow, Nat.testBit_mod_two_pow, Nat.testBit_shiftRight, Nat.testBit_shiftRight,
    BitVec.testBit_toNat, BitVec.testBit_toNat]
  by_cases hi' : i < hi - lo + 1
  · rw [h (lo + i) (by omega) (by omega)]
  · simp [hi']

/-- Inverting the parity bit of a register outside the Q group. -/
theorem invertParity_bad (s : State) {a : Nat} (hp : hasParity a = true) (hq : queReg a = false) :
    a ∈ (s.invertParity a).hif.parityBad ↔ a ∉ s.hif.parityBad := by
  by_cases hb : a ∈ s.hif.parityBad <;> simp [State.invertParity, State.parityKey, hp, hq, hb]

theorem invertParity_regs (s : State) (a : Nat) : (s.invertParity a).regs = s.regs := by
  unfold State.invertParity
  split <;> rfl

/-- The fields of HIF_PAR_INJ. -/
def injDesc : RegDesc := { base := 0x5c, dims := [], reset := 0x0, cmd := 0x80000000, prv := 0x3fffffc }

theorem regAt_injection : regAt Reg.HIF_PAR_INJ = some injDesc := by decide

/-- Only the manager owns HIF_PAR_INJ. -/
theorem owns_injection {s : State} {f : Nat} (h : s.owns f Reg.HIF_PAR_INJ = true) : f = 0 := by
  have h1 : perFunction Reg.HIF_PAR_INJ = false := by decide
  have h2 : instRow Reg.HIF_PAR_INJ = none := by decide
  have h3 : unitRow Reg.HIF_PAR_INJ = none := by decide
  simpa [State.owns, h1, h2, h3] using h

/-- The state in which HIF_PAR_INJ holds its new address. -/
def State.injectAt (s : State) (v : Word) : State :=
  (s.healIf (· == Reg.HIF_PAR_INJ)).wr Reg.HIF_PAR_INJ (landing injDesc true true 0 0xF v (s.rd Reg.HIF_PAR_INJ)).nv

theorem landing_injection (v old : Word) : landing injDesc true true 0 0xF v old =
    { old := old, nv := (old &&& ~~~0x3fffffc) ||| (v &&& 0x3fffffc), mask := 0x3fffffc, one := v &&& 0x80000000 } := by
  have hb : v &&& beMask 0xF = v := by
    rw [show beMask 0xF = BitVec.allOnes 32 by decide, BitVec.and_allOnes]
  rw [landing, hb]
  rfl

theorem injection_address (v old : Word) : bits (landing injDesc true true 0 0xF v old).nv 25 2 = bits v 25 2 := by
  refine bits_congr (by decide) fun n hn hm => ?_
  have h : ∀ k, k < 26 → 2 ≤ k → (0x3fffffc : Word).getLsbD k = true := by decide
  rw [landing_injection]
  simp only [BitVec.getLsbD_or, BitVec.getLsbD_and, BitVec.getLsbD_not, h n (by omega) hn]
  simp

theorem noPlan_injection (s : State) : s.noPlan Reg.HIF_PAR_INJ = false := by
  have h : decide (Reg.ADP_I_CTRL 0 ≤ Reg.HIF_PAR_INJ) = false := by decide
  simp [State.noPlan, h]

theorem lands_injection (s : State) (v old : Word) :
    s.lands Reg.HIF_PAR_INJ injDesc (landing injDesc true true 0 0xF v old) = true := by
  have ha : s.assigned Reg.HIF_PAR_INJ = none := assigned_plain s _ (by decide)
  have h1 : rowOf (Reg.CAD_I_EMPTY_LIMIT 0) 0x40 8 Reg.HIF_PAR_INJ = none := by decide
  have h2 : rowOf (Reg.INS_I_LOAD_SRC 0) 0x80 8 Reg.HIF_PAR_INJ = none := by decide
  have h3 : rowOf (Reg.ADP_I_MARGIN 0) 0x40 8 Reg.HIF_PAR_INJ = none := by decide
  have hn : Reg.HIF_PAR_INJ ≠ Reg.CAD_PERIOD ∧ Reg.HIF_PAR_INJ ≠ Reg.PWR_DROOP ∧ Reg.HIF_PAR_INJ ≠ Reg.PWR_THERM := by decide
  rw [landing_injection]
  simp [State.lands, ha, h1, h2, h3, hn, injDesc, RegDesc.covered, wd]

/-- The hook of HIF_PAR_INJ stores the register and inverts the parity bit that it names. -/
theorem hook_injection (s : State) (w : Landing) :
    hooks.findSome? (fun h => (rowOf h.base h.stride h.count Reg.HIF_PAR_INJ).map (fun n => h.run s n w))
      = some (if w.one.getLsbD 31 then (s.wr Reg.HIF_PAR_INJ w.nv).invertParity (bits w.nv 25 2 * 4)
        else s.wr Reg.HIF_PAR_INJ w.nv) :=
  rfl

/-- A write of HIF_PAR_INJ with its bit go inverts the parity bit at the address that it carries. -/
theorem writeReg_injection (s : State) {v : Word} (h : s.direct 0 Reg.HIF_PAR_INJ) (hv : v.getLsbD 31 = true) :
    s.writeReg 0 Reg.HIF_PAR_INJ 0xF v = .next ((s.injectAt v).invertParity (bits v 25 2 * 4)) := by
  have hl : s.lckOpen Reg.HIF_PAR_INJ = true := rfl
  have hw : (landing injDesc true true 0 0xF v (s.rd Reg.HIF_PAR_INJ)).one.getLsbD 31 = true := by
    rw [landing_injection]
    simp [hv]
  have hm := lands_injection s v (s.rd Reg.HIF_PAR_INJ)
  rw [writeReg_plain s 0 _ 0xF v injDesc h (by decide) regAt_injection (noPlan_injection s)]
  simp only [beq_self_eq_true, hl, hook_injection, hm, hw, if_true, injection_address]
  rfl

/-- PARITY_INJECT changes the parity bit at its address and no register but HIF_PAR_INJ. -/
theorem execParityInject_spec (s : State) {f a : Nat} {v : Word} (h : s.direct f Reg.HIF_PAR_INJ) (hv : v.getLsbD 31 = true)
    (hb : bits v 25 2 * 4 = a) (hp : hasParity a = true) (hq : queReg a = false) (hn : a ≠ Reg.HIF_PAR_INJ) :
    ∃ u, execParityInject f v s = .next u ∧ (a ∈ u.hif.parityBad ↔ a ∉ s.hif.parityBad)
      ∧ RegsKept s u [Reg.HIF_PAR_INJ] := by
  obtain rfl : f = 0 := by
    obtain ⟨_, ho, _, _⟩ := h
    exact owns_injection ho
  refine ⟨(s.injectAt v).invertParity a, ?_, ?_, fun r hr => ?_⟩
  · rw [execParityInject, hostReg_direct s 0 _ 0xF v h (.inr rfl), writeReg_injection s h hv, hb]
  · have hk : a ∈ (s.injectAt v).hif.parityBad ↔ a ∈ s.hif.parityBad := by
      simp [State.injectAt, State.healIf, State.wr, hn]
    rw [invertParity_bad _ hp hq, hk]
  · rw [State.rd, invertParity_regs]
    exact State.rd_wr_ne _ (List.ne_of_not_mem_cons hr) _

/-! ### Counters of 64 bits (R405) -/

theorem rowOf_some {b st n a i : Nat} (h : rowOf b st n a = some i) : i < n ∧ a = b + st * i := by
  simp only [rowOf, Option.ite_none_right_eq_some, Option.some.injEq] at h
  obtain ⟨⟨hb, hm, hn⟩, rfl⟩ := h
  refine ⟨hn, ?_⟩
  rw [Nat.mul_div_cancel' (Nat.dvd_of_mod_eq_zero hm)]
  omega

/-- The low registers of the wide counters, by row and index. -/
theorem wideLow_row {a : Nat} (h : wideLow a = true) : ∃ g ∈ widePairs, ∃ i < g.2.2, a = g.1 + g.2.1 * i := by
  obtain ⟨g, hg, hr⟩ := List.any_eq_true.mp h
  obtain ⟨i, hi⟩ := Option.isSome_iff_exists.mp hr
  obtain ⟨hn, ha⟩ := rowOf_some hi
  exact ⟨g, hg, i, hn, ha⟩

/-- An offset outside the groups of registers that do not take a write as their own storage. -/
def OwnStorage (a : Nat) : Prop :=
  aliasOf a = 0 ∧ a % 4 = 0 ∧ a < 0x4000000 ∧ ¬(Reg.ADP_I_CTRL 0 ≤ a ∧ a < Reg.ADP_EVT_SUM + 0x1000)
    ∧ a ≠ Reg.QUE_SEL ∧ a ≠ Reg.FLT_RD_SEL ∧ a ≠ Reg.QUE_CMD ∧ queReg a = false ∧ (regAt a).isSome = true

/-- A register that is one counter field. -/
def RegDesc.isCounter (d : RegDesc) : Bool :=
  d.rw == 0 && d.lck == 0 && d.prv == 0 && d.cnt == 0xFFFFFFFF && d.w1c == 0 && d.cmd == 0

/-- A wide counter: its low register has one field, its high register is the next, and both are of one domain. -/
def WideCounter (a : Nat) : Prop :=
  OwnStorage a ∧ OwnStorage (a + 4) ∧ wideHigh a = false ∧ wideHigh (a + 4) = true ∧ regDomain (a + 4) = regDomain a
    ∧ a ≠ Reg.FLT_LOG_TAIL ∧ (rowOf (Reg.FLT_I_LOG_TAIL 0) 0x40 8 a).isSome = false
    ∧ (regAt a).any RegDesc.isCounter = true

theorem ownStorage_lows : ∀ g ∈ widePairs, ∀ i < g.2.2, OwnStorage (g.1 + g.2.1 * i) := by
  unfold OwnStorage
  decide +kernel

theorem ownStorage_highs : ∀ g ∈ widePairs, ∀ i < g.2.2, OwnStorage (g.1 + g.2.1 * i + 4) := by
  unfold OwnStorage
  decide +kernel

theorem wideCounter_rows : ∀ g ∈ widePairs, ∀ i < g.2.2, WideCounter (g.1 + g.2.1 * i) := by
  intro g hg i hi
  refine ⟨ownStorage_lows g hg i hi, ownStorage_highs g hg i hi, ?_⟩
  revert g i
  decide +kernel

theorem wideCounter_of_wideLow {a : Nat} (h : wideLow a = true) : WideCounter a := by
  obtain ⟨g, hg, i, hi, rfl⟩ := wideLow_row h
  exact wideCounter_rows g hg i hi

/-- A mismatch that a wake finds keeps the write shadows. -/
theorem parityFault_writeShadow (s : State) (key : Nat) : (s.parityFault key).hif.writeShadow = s.hif.writeShadow := by
  obtain ⟨_, _, _, _, hw, _, _⟩ := parityNoted_spec s key
  obtain ⟨_, _, kw⟩ := parityFault_hif s key
  rw [kw, hw]

theorem checkParity_writeShadow (s : State) (d : Nat) : (s.checkParity d).hif.writeShadow = s.hif.writeShadow := by
  unfold State.checkParity
  generalize s.hif.parityBad.filter _ = l
  induction l generalizing s with
  | nil => rfl
  | cons k l ih => rw [List.foldl_cons, ih, parityFault_writeShadow]

theorem wakeDom_hif (s : State) (d : Nat) : (s.wakeDom d).hif = s.hif := by
  simp only [State.wakeDom]
  split
  · rfl
  split
  · rfl
  split <;> rfl

theorem wakeFor_writeShadow (s : State) (a : Nat) : (s.wakeFor a).hif.writeShadow = s.hif.writeShadow := by
  simp only [State.wakeFor, State.woken]
  split
  · rw [checkParity_writeShadow, wakeDom_hif]
  · rw [wakeDom_hif]

theorem noPlan_elsewhere (s : State) {a : Nat} (h : ¬(Reg.ADP_I_CTRL 0 ≤ a ∧ a < Reg.ADP_EVT_SUM + 0x1000)) :
    s.noPlan a = false := by
  have : (decide (Reg.ADP_I_CTRL 0 ≤ a) && decide (a < Reg.ADP_EVT_SUM + 0x1000)) = false := by simpa using h
  simp [State.noPlan, this]

/-- What a write of all four bytes brings to a register that is one counter field. -/
theorem landing_counter {d : RegDesc} (prv lck : Bool) (v old : Word) (h : d.isCounter = true) :
    landing d prv lck 0 0xF v old = { old := old, nv := v, mask := BitVec.allOnes 32, one := 0 } := by
  simp only [RegDesc.isCounter, Bool.and_eq_true, beq_iff_eq] at h
  obtain ⟨⟨⟨⟨⟨hrw, hlck⟩, hprv⟩, hcnt⟩, hw1c⟩, hcmd⟩ := h
  have hb : beMask 0xF = BitVec.allOnes 32 := by decide
  have hm : (wd d.rw ||| (if lck then wd d.lck else 0) ||| (if prv then wd d.prv else 0) ||| wd d.cnt) = BitVec.allOnes 32 := by
    cases lck <;> cases prv <;> simp [hrw, hlck, hprv, hcnt, wd]
  simp only [landing, if_true, hm, hb, hw1c, hcmd, BitVec.and_allOnes]
  simp [wd, -BitVec.reduceAllOnes]

theorem covered_counter {d : RegDesc} (h : d.isCounter = true) : d.covered = 0 := by
  simp only [RegDesc.isCounter, Bool.and_eq_true, beq_iff_eq] at h
  simp [RegDesc.covered, h, wd]

theorem highWrite_all (s : State) (a : Nat) (v : Word) : s.highWrite 0 a 0xF v =
    { s with hif := { s.hif with writeShadow := SMap.set 0 a v s.hif.writeShadow } } := by
  have hb : beMask 0xF = BitVec.allOnes 32 := by decide
  simp only [State.highWrite, hb, BitVec.not_allOnes, BitVec.and_zero, BitVec.zero_or, BitVec.and_allOnes,
    Nat.mul_zero, Nat.zero_add]

/-- The high word of a counter waits in the function's shadow. -/
theorem writeReg_wideHigh (s : State) {a : Nat} (v : Word) (hw : WideCounter a)
    (hs : (s.dom (regDomain a)).stopped = false) : s.writeReg 0 (a + 4) 0xF v =
      .next { s.wakeFor a with hif := { (s.wakeFor a).hif with
        writeShadow := SMap.set 0 (a + 4) v (s.wakeFor a).hif.writeShadow } } := by
  obtain ⟨_, ⟨hal, _, _, hadp, hsel, hrd, hcmd, hq, hr⟩, _, hhi, hdom, _⟩ := hw
  obtain ⟨d, hd⟩ := Option.isSome_iff_exists.mp hr
  have hwake : s.wakeFor (a + 4) = s.wakeFor a := by rw [State.wakeFor, hdom]; rfl
  unfold State.writeReg
  simp only [plainOf_plain hal, hal, hdom, hs, hwake, hd, owns_manager, noPlan_elsewhere _ hadp, hsel, hrd, hcmd, hq,
    hhi, highWrite_all]
  simp

/-- The low word loads the whole counter. -/
theorem writeReg_wideLow (s : State) {a : Nat} (v : Word) (hl : wideLow a = true) (hw : WideCounter a)
    (hs : (s.dom (regDomain a)).stopped = false) : s.writeReg 0 a 0xF v =
      .next (((s.wakeFor a).wr a v).wr (a + 4) (SMap.get 0 s.hif.writeShadow (a + 4))) := by
  obtain ⟨⟨hal, _, _, hadp, hsel, hrd, hcmd, hq, _⟩, _, hhi, _, _, htail, hitail, hf⟩ := hw
  obtain ⟨d, hd, hf⟩ := Option.any_eq_true _ _ |>.mp hf
  have hland := fun prv lck old => landing_counter prv lck v old hf
  have hcov := covered_counter hf
  unfold State.writeReg
  simp only [plainOf_plain hal, hal, hs, hd, owns_manager, noPlan_elsewhere _ hadp, hsel, hrd, hcmd, hq, hhi,
    htail, hitail, hland, hl]
  simp [State.lowWrite, State.lands, hcov, wakeFor_writeShadow, State.wr]

/-! ### Unmasking (R411) -/

/-- Function f's mask and that of its vector are cleared. -/
def State.unmask (s : State) (f vec : Nat) : State :=
  { s with hif := { s.hif with fnMask := s.hif.fnMask &&& ~~~(BitVec.ofNat 9 (2 ^ f))
                               vecOpen := insKey (256 * f + vec) s.hif.vecOpen } }

/-- The messages of function f that wait and are no longer masked. -/
def State.freed (s : State) (f : Nat) : List Nat := s.hif.pba.filter (fun k => k / 256 == f && !s.masked f (k % 256))

theorem execMsiXUnmask_eq (s : State) {f vec : Nat} (hf : s.fnOn f = true) (hv : vec < if f = 0 then 256 else 32) :
    execMsiXUnmask f vec s = .next (let u := s.unmask f vec
      { u with hif := { u.hif with pba := u.hif.pba.filter (fun k => !(u.freed f).contains k)
                                   msgs := ((u.freed f).map (fun k => (f, k % 256))).reverse ++ u.hif.msgs } }) := by
  simp [execMsiXUnmask, hf, hv, State.unmask, State.freed]

theorem fnOn_le (s : State) {f : Nat} (hf : s.fnOn f = true) : f ≤ 8 := by
  simp only [State.fnOn, Bool.or_eq_true, beq_iff_eq, Bool.and_eq_true, decide_eq_true_eq] at hf
  omega

theorem unmask_fnMask (s : State) {f : Nat} (vec : Nat) (hf : f ≤ 8) : (s.unmask f vec).hif.fnMask.getLsbD f = false := by
  have h : f < 9 := by omega
  have hb : (BitVec.ofNat 9 (2 ^ f)).getLsbD f = true := by
    rw [BitVec.getLsbD_ofNat, Nat.testBit_two_pow_self]
    simpa using h
  simp only [State.unmask, BitVec.getLsbD_and, BitVec.getLsbD_not, hb]
  simp

theorem unmask_masked (s : State) {f vec : Nat} (hf : f ≤ 8) : (s.unmask f vec).masked f vec = false := by
  have hm := unmask_fnMask s vec hf
  have hv : 256 * f + vec ∈ (s.unmask f vec).hif.vecOpen := (mem_insKey _).mpr (.inl rfl)
  simp [State.masked, hm, hv]

theorem mem_freed_unmask (s : State) {f vec : Nat} (hf : f ≤ 8) (hv : vec < 256) :
    256 * f + vec ∈ (s.unmask f vec).freed f ↔ 256 * f + vec ∈ s.hif.pba := by
  have hd : (256 * f + vec) / 256 = f := by omega
  have hm : (256 * f + vec) % 256 = vec := by omega
  rw [State.freed, List.mem_filter, hd, hm, unmask_masked s hf]
  simp [State.unmask]

theorem not_mem_freed (s : State) {f k : Nat} (hk : k / 256 ≠ f) : k ∉ s.freed f := by
  simp [State.freed, hk]

/-- An unmask sends the message that waited. -/
theorem execMsiXUnmask_spec (s : State) {f vec : Nat} (hf : s.fnOn f = true) (hv : vec < if f = 0 then 256 else 32) :
    ∃ u, execMsiXUnmask f vec s = .next u ∧ u.hif.fnMask.getLsbD f = false ∧ 256 * f + vec ∈ u.hif.vecOpen
      ∧ 256 * f + vec ∉ u.hif.pba ∧ (256 * f + vec ∈ s.hif.pba → (f, vec) ∈ u.hif.msgs)
      ∧ (∀ k, k / 256 ≠ f → (k ∈ u.hif.pba ↔ k ∈ s.hif.pba)) ∧ u.regs = s.regs := by
  have h8 := fnOn_le s hf
  have h256 : vec < 256 := by split at hv <;> omega
  have hm : (256 * f + vec) % 256 = vec := by omega
  have hfree := mem_freed_unmask s h8 h256
  refine ⟨_, execMsiXUnmask_eq s hf hv, unmask_fnMask s vec h8, (mem_insKey _).mpr (.inl rfl), fun hk => ?_, fun hk => ?_,
    fun k hk => ?_, rfl⟩
  · obtain ⟨hp, hn⟩ := List.mem_filter.mp hk
    simp [hfree.mpr hp] at hn
  · exact List.mem_append_left _ (List.mem_reverse.mpr (List.mem_map.mpr ⟨_, hfree.mpr hk, by rw [hm]⟩))
  · exact List.mem_filter.trans ⟨And.left, fun h => ⟨h, by simpa using not_mem_freed (s.unmask f vec) hk⟩⟩

/-- Settles O59: a write of the manager is one register write, whose stored value follows from the landing of its fields;
reads, counters, parity faults and unmasks have a lemma each. -/
theorem hostAccess : Obligations.HostAccess := by
  unfold Obligations.HostAccess
  intro s f a be v d
  refine ⟨fun hplain hdir => ?_, fun hr hp h4 ha ht hs c hc => ?_, fun h4 ha => ⟨fun hf => ?_, ?_, ?_, ?_⟩, fun hf => ⟨?_, ?_⟩,
    fun hp h4 ha hg hs => ⟨fun hl => ?_, fun hl => ?_⟩, fun hl hdir => ?_, fun ha hp => ⟨?_, ?_, ?_, ?_⟩, fun vec hf hv => ?_⟩
  · obtain ⟨hd, hplain, hplan, h4, ha, hw1c, hcmd, hh, he, hen⟩ := hplain
    have h : Storing s a d := ⟨hdir, hd, hplain, hplan, hw1c, hcmd, hh, he, hen⟩
    exact ⟨⟨h.registerWrite_stores be v h4 ha, h.registerWrite_nothing be v h4 ha⟩,
      h.setAlias_stores be v h4 ha, h.clearAlias_stores be v h4 ha, h.toggleAlias_stores be v h4 ha⟩
  · have h := fun n hn h0 => aliasWrite_empty s (n := n) be v hn h0 hr hp h4 ha ht hs
    simp only [List.mem_cons, List.not_mem_nil, or_false] at hc
    rcases hc with rfl | rfl | rfl
    · exact h 1 (by decide) (by decide)
    · exact h 2 (by decide) (by decide)
    · exact h 3 (by decide) (by decide)
  · exact hostOff_off s be v h4 hf
  · exact fun hf h1 ht hp hg ho hr => hostOff_foreign s be v hf h1 ht h4 ha hp hg ho hr
  · exact fun ht hr => hostOff_follower s be v ht hr h4 ha
  · exact fun ht hr hd => hostOff_lead s be v ht hr hd h4 ha
  · exact congrArg _ (if_pos hf)
  · intro h4 ha c hc
    have h := (hostOff_misaligned s be v ha h4).trans (congrArg _ (if_pos hf))
    simp only [List.mem_cons, List.not_mem_nil, or_false] at hc
    rcases hc with rfl | rfl | rfl | rfl | rfl
    · exact h
    · exact h
    · exact h
    · exact h
    · exact (readShadowLatch_misaligned s hf h4 ha).trans (congrArg _ (if_pos hf))
  · exact ⟨_, readShadowLatch_direct s h4 ha, readReg_first s hp hg hs hl⟩
  · rw [readShadowLatch_direct s h4 ha, readReg_latched s hp hg hs hl]
  · obtain ⟨_, _, ht, hs⟩ := hdir
    have hw := wideCounter_of_wideLow hl
    obtain ⟨⟨_, h4, ha, _⟩, ⟨_, h4', ha', _⟩, _⟩ := id hw
    exact ⟨(hostOff_direct s 0xF v ht ha h4).trans (writeReg_wideLow s v hl hw hs),
      (hostOff_direct s 0xF v ht ha' h4').trans (writeReg_wideHigh s v hw hs)⟩
  · exact execParityFault_reported s ha hp
  · exact execParityFault_asleep s ha hp
  · exact fun hr hg hs => ⟨_, execParityFault_found s ha hp hr hg hs, parityFault_spec s ha⟩
  · exact fun hdir hv hb hq hn => execParityInject_spec s hdir hv hb hp hq hn
  · exact execMsiXUnmask_spec s hf hv

end Sys2Proof.Machine
end

section
/-! Clocks, the brake and heat (O55): a PLL's unlock in a state whose tasks name a transfer engine that does not exist. -/

-- As in the tests: a check of the whole text as one file runs out of threads otherwise.
set_option Elab.async false

namespace Sys2Proof.Machine

/-- The unlock of a locked PLL of the reference: its lock and its row are cleared, PLL unlock is reported, and the reference is
lost (R386, R387). -/
theorem execPllUnlock_locked (s : State) {p : Nat} (t : Nat) (hp : p < 10) (hb : s.bit Reg.CLK_STAT p = true) (h7 : p ≠ 7) :
    execPllUnlock p t s
      = .next ((((s.at_ t).setBit Reg.CLK_STAT p false).wr (Reg.CLK_PLL p) 0).event Reg.CLK_EVT 2).loseReference := by
  have hb' : (s.at_ t).bit Reg.CLK_STAT p = true := hb
  have hn : ¬(10 ≤ p ∨ (!(s.at_ t).bit Reg.CLK_STAT p) = true) := by simp [hb', hp]
  unfold execPllUnlock
  dsimp only
  rw [if_neg hn, if_neg (fun e => h7 e.1)]

/-- A task of instance i whose context transfer engine 0x6000 holds. The device has no such engine, and the row that its number
gives lies in the clock block: XFR_E_STAT of engine 0x6000 is at 0x170100 + 0x10 * 0x6000, the offset of CLK_PLL 0. -/
def strayTask (i : Nat) : Task :=
  { id := i, q := 0, inst := i, core := 0, eng := 0x6000, prog := [], k := 0, line := 0, pos := 0, marked := false, done := false }

/-- PLL 0 is locked. Instance 0 runs and parks when the reference is lost; instance 1 is not loaded and keeps its task. -/
def strayState : State :=
  { State.reset.wr Reg.CLK_STAT 1 with insts := [(0, { st := .running })], tasks := [strayTask 0, strayTask 1] }

/-- Instance 0 drops its task as it parks, and the context that stays in use is counted in the row of engine 0x6000: CLK_PLL 0 reads
1 after the unlock. -/
theorem pll_strayState :
    ((((strayState.at_ 0).setBit Reg.CLK_STAT 0 false).wr (Reg.CLK_PLL 0) 0).event Reg.CLK_EVT 2).loseReference.rd (Reg.CLK_PLL 0)
      = 1 := by
  decide +kernel

/-- Refutes O55: CLK_PLL of a PLL that reports unlock need not read 0. The loss of the reference parks every instance (R387), an
instance that parks drops its tasks and updates the busy count of the engines that held them (R248, R299), and in `strayState`,
whose tasks name an engine outside the sixteen of the device, that count is the row of the PLL. No command starts such a task; the
statement ranges over every state and has no hypothesis that excludes it. -/
theorem not_clocksBrakeHeat : ¬ Obligations.ClocksBrakeHeat := by
  unfold Obligations.ClocksBrakeHeat
  intro h
  obtain ⟨_, _, unlock, _⟩ := h strayState 0
  have locked : strayState.bit Reg.CLK_STAT 0 = true := by decide +kernel
  obtain ⟨u, hu, _, cleared, _⟩ := unlock 0 (by decide) locked
  rw [exec_pllUnlock, execPllUnlock_locked strayState 0 (by decide) locked (by decide)] at hu
  injection hu with hu
  rw [← hu, pll_strayState] at cleared
  exact absurd cleared (by decide)

end Sys2Proof.Machine
end

section
/-! Engine accumulation (O15): an integer cycle of a step is one saturated sum of shifted products. -/

-- As in the tests: a check of the whole text as one file runs out of threads otherwise.
set_option Elab.async false

namespace Sys2Proof.Machine

/-! ### Saturation and shifts toward zero (R93, R100) -/

theorem clampInt_eq_max_min {lo hi : Int} (h : lo ≤ hi) (x : Int) : clampInt lo hi x = max lo (min hi x) := by
  unfold clampInt
  split
  · omega
  · split <;> omega

theorem sat32_eq (x : Int) : sat32 x = BitVec.ofInt 32 (max (-(2 ^ 31)) (min (2 ^ 31 - 1) x)) := by
  rw [sat32, clampInt_eq_max_min (by decide)]

/-- The right shift of the magnitude is the quotient rounded toward zero. -/
theorem shrRtz_eq_tdiv (x : Int) (n : Nat) : shrRtz x n = x.tdiv (2 ^ n) := by
  unfold shrRtz
  rw [Nat.shiftRight_eq_div_pow]
  split
  · next neg =>
    obtain ⟨k, rfl⟩ : ∃ k : Nat, x = -(k : Int) := ⟨x.natAbs, by omega⟩
    rw [Int.natAbs_neg, Int.natAbs_natCast, Int.neg_tdiv]
    rfl
  · next nonneg =>
    obtain ⟨k, rfl⟩ := Int.eq_ofNat_of_zero_le (Int.not_lt.mp nonneg)
    rfl

/-! ### One cycle of a step (R111, R112, R138) -/

/-- A term of a group whose shift is known. -/
theorem intTerm_some (a w r eBase : Int) (n : Nat) :
    intTerm a w r eBase (some (n : Int))
      = (if r < eBase then a.tdiv (2 ^ (eBase - r).toNat) else a * 2 ^ (r - eBase).toNat) * w * 2 ^ n := by
  simp only [intTerm, shrRtz_eq_tdiv, Int.toNat_natCast]

/-- Outside DWDIAG and the gradient form of BWD, a term takes its row's operand, weight, exponent and group shift. -/
theorem State.stepTerm_eq (s : State) (p : Nat) (g : Engine) {d : Descr} (n : Nat) (st : Step) (o j row : Nat)
    (hdiag : d.cls ≠ clsDWDIAG) (hgrad : ¬(d.cls = clsBWD ∧ d.form = 1)) :
    s.stepTerm p g d n st o j row
      = (s.operand p g d (d.rowTap st row).1 o (d.rowTap st row).2, s.weight p d st row j,
          (g.rowExp d (d.rowTap st row).1 : Int), s.groupShift p d ((n * d.blockRows + row) / d.group) j) := by
  rw [State.stepTerm, if_neg hgrad]
  simp only [if_neg hdiag]

/-- An integer cycle adds the sum of its rows' terms to the accumulator and saturates once (R100, R138). -/
theorem State.cycleElem_integer (s : State) (p : Nat) (g : Engine) {d : Descr} (base : Int) (n : Nat) (st : Step)
    (rows : List Nat) (o j : Nat) (acc : Word) (hdiag : d.cls ≠ clsDWDIAG) {term : Nat → Int}
    (hterm : ∀ r ∈ rows, let x := s.stepTerm p g d n st o j r; intTerm x.1.int x.2.1.int x.2.2.1 base x.2.2.2 = term r) :
    s.cycleElem p g d true base n st rows o j acc = sat32 (acc.toInt + (rows.map term).sum) := by
  rw [State.cycleElem, if_neg (fun h => hdiag h.1), if_pos rfl, ← List.map_congr_left hterm, List.sum_eq_foldl,
    List.foldl_map]

/-- Settles O15: each row's term is the shifted operand times the weight times 2 to the group's shift (R111, R112), and the cycle
saturates once (R100, R138). -/
theorem engineAccumulation : Obligations.EngineAccumulation := by
  unfold Obligations.EngineAccumulation
  intro s p g d base n st rows o j acc sh hdiag hgrad hsh act term
  have hterm : ∀ r ∈ rows, let x := s.stepTerm p g d n st o j r
      intTerm x.1.int x.2.1.int x.2.2.1 base x.2.2.2 = term r := by
    intro r hr
    rw [s.stepTerm_eq p g n st o j r hdiag hgrad]
    simp only [hsh r hr, intTerm_some, term, act]
  rw [s.cycleElem_integer p g base n st rows o j acc hdiag hterm, sat32_eq]

end Sys2Proof.Machine
end

section
/-! Conversions of the service cores (O31): lanes under a predicate, and the draws of an SR instruction. -/

-- As in the tests: a check of the whole text as one file runs out of threads otherwise.
set_option Elab.async false

namespace Sys2Proof.Machine

/-! ### Lanes of a vector (R186, R191) -/

/-- A vector gathered from its first n lanes holds those lanes' bits and no others. -/
theorem getLsbD_gather (g : Nat → Word) (n i : Nat) :
    ((List.range n).foldl (fun v j => v ||| ((g j).setWidth 512 <<< (32 * j))) (0 : BitVec 512)).getLsbD i
      = (decide (i < 512 ∧ i / 32 < n) && (g (i / 32)).getLsbD (i % 32)) := by
  induction n with
  | zero => simp
  | succ n ih =>
    rw [List.range_succ, List.foldl_append, List.foldl_cons, List.foldl_nil, BitVec.getLsbD_or, ih,
      BitVec.getLsbD_shiftLeft, BitVec.getLsbD_setWidth]
    rcases Nat.lt_trichotomy (i / 32) n with below | here | above
    · have : i < 32 * n := by omega
      simp [this, below, Nat.lt_succ_of_lt below]
    · have at_ : i - 32 * n = i % 32 := by omega
      have hi : ¬i < 32 * n := by omega
      have : i % 32 < 512 := by omega
      simp [here, at_, hi, this]
    · have : (g n).getLsbD (i - 32 * n) = false := BitVec.getLsbD_of_ge _ _ (by omega)
      have : ¬i / 32 < n + 1 := by omega
      have : ¬i / 32 < n := by omega
      simp [*]

theorem getLsbD_ofLanes (g : Nat → Word) {i : Nat} (h : i < 512) :
    (ofLanes g).getLsbD i = (g (i / 32)).getLsbD (i % 32) := by
  rw [ofLanes, getLsbD_gather, decide_eq_true ⟨h, by omega⟩, Bool.true_and]

@[simp] theorem lane_ofLanes (g : Nat → Word) {j : Nat} (h : j < 16) : lane (ofLanes g) j = g j := by
  apply BitVec.eq_of_getLsbD_eq
  intro i hi
  rw [lane, BitVec.getLsbD_extractLsb', decide_eq_true hi, Bool.true_and, getLsbD_ofLanes g (by omega),
    show (32 * j + i) / 32 = j by omega, show (32 * j + i) % 32 = i by omega]

theorem ofLanes_congr {g h : Nat → Word} (hgh : ∀ j, j < 16 → g j = h j) : ofLanes g = ofLanes h := by
  apply BitVec.eq_of_getLsbD_eq
  intro i hi
  rw [getLsbD_ofLanes g hi, getLsbD_ofLanes h hi, hgh _ (by omega)]

/-- Masking a vector of given lanes chooses lane by lane. -/
theorem maskLanes_ofLanes (p : BitVec 16) (g : Nat → Word) (old : BitVec 512) :
    maskLanes p (ofLanes g) old = ofLanes (fun j => if p.getLsbD j then g j else lane old j) :=
  ofLanes_congr (fun j hj => by rw [lane_ofLanes g hj])

/-! ### Draws in order (R95, R97) -/

/-- The state of the rounding generator after n draws. -/
def lfsrAfter (n : Nat) (x : Word) : Word := Nat.repeat (fun x => (draw16 x).1) n x

theorem lfsrAfter_draw16 (n : Nat) (x : Word) : lfsrAfter n (draw16 x).1 = lfsrAfter (n + 1) x := by
  induction n with
  | zero => rfl
  | succ n ih => exact congrArg (fun y => (draw16 y).1) ih

theorem drawMany_state (n : Nat) (x : Word) : (drawMany n x).1 = lfsrAfter n x := by
  induction n generalizing x with
  | zero => rfl
  | succ n ih => exact (ih _).trans (lfsrAfter_draw16 n x)

/-- Draw j of n is the one from the state that j draws leave. -/
theorem drawMany_getElem? {n j : Nat} (x : Word) (h : j < n) :
    (drawMany n x).2[j]? = some (draw16 (lfsrAfter j x)).2 := by
  induction n generalizing x j with
  | zero => exact absurd h (Nat.not_lt_zero j)
  | succ n ih =>
    cases j with
    | zero => rfl
    | succ j =>
      rw [drawMany, List.getElem?_cons_succ, ih _ (Nat.lt_of_succ_lt_succ h), lfsrAfter_draw16]

/-- With flag sr, an instruction of n elements takes draw `r j` for element j from the state x and leaves the state w (R97). -/
def Draws (n : Nat) (sr : BitVec 1) (x w : Word) (r : Nat → Option Nat) : Prop :=
  let ds := if sr = 1 then drawMany n x else (x, [])
  ds.1 = w ∧ ∀ j, j < n → ds.2[j]? = r j

/-- An RTZ instruction takes no draw. -/
theorem draws_rtz (n : Nat) (x : Word) : Draws n 0 x x (fun _ => none) := ⟨rfl, fun _ _ => rfl⟩

/-- An SR instruction takes one draw for each element. -/
theorem draws_sr (n : Nat) (x : Word) :
    Draws n 1 x (lfsrAfter n x) (fun j => some (draw16 (lfsrAfter j x)).2) :=
  ⟨drawMany_state n x, fun _ hj => drawMany_getElem? x hj⟩

/-! ### VCVT and SCVT (R193) -/

/-- A ready core whose instruction has no cause to stop and leaves the core y runs it. -/
theorem State.runs_of_coreStep (s : State) {k : Nat} {i : Sys2Proof.Instr} {cause : State → Core → Option Nat}
    {run : State → Core → State} {y : Core} (hexec : exec i s = s.coreStep k i cause run)
    (hcause : cause s (s.core k) = none) (hrun : run s (s.core k) = s.retire k y)
    (hy : y.active = (s.core k).active) : Runs s k { y with pc := y.pc + 4 } i := by
  intro ready
  rw [hexec, s.coreStep_ready k i cause run ready]
  simp only [hcause, hrun]
  exact retires_retire s k y (hy.trans ready.1)

theorem orCause_convCause {src dst : BitVec 5} (hs : fmtConv src.toNat = true) (hd : fmtConv dst.toNat = true)
    (o : Option Nat) : orCause (convCause src dst) o = o := by simp [convCause, orCause, hs, hd]

/-- Moving the generator and writing a scalar register are independent. -/
theorem Core.sset_lfsr (x : Core) (w : Word) (n : BitVec 5) (v : Word) :
    ({ x with lfsr := w } : Core).sset n v = { x.sset n v with lfsr := w } := by
  unfold Core.sset
  split <;> rfl

section
variable (s : State) (k : Nat) {src dst : BitVec 5} (hs : fmtConv src.toNat = true) (hd : fmtConv dst.toNat = true)
  {sr : BitVec 1} {w : Word} {r : Nat → Option Nat}
include hs hd

/-- VCVT retires with the enabled lanes converted by its draws, whatever the predicate. -/
theorem runs_vcvt (vd va : BitVec 4) (p : BitVec 3) (hr : Draws 16 sr (s.core k).lfsr w r) :
    let x := s.core k
    let y : Core := { x with lfsr := w }
    Runs s k { y.vset vd (ofLanes (fun j => if (x.pget p).getLsbD j
        then convElem src.toNat dst.toNat x.zp.toNat (lane (x.vget va) j) (r j) else lane (x.vget vd) j)) with pc := x.pc + 4 }
      (.vcvt k vd va src dst sr p 0) := by
  obtain ⟨rfl, draw⟩ := hr
  intro x y
  have h := s.runs_of_coreStep (exec_vcvt s k vd va src dst sr p 0) (orCause_convCause hs hd _) rfl (Core.active_vset y vd _)
  rwa [ofLanes_congr (fun j hj => congrArg (convElem _ _ _ _) (draw j hj)), maskLanes_ofLanes] at h

/-- SCVT retires with the converted scalar. -/
theorem runs_scvt (d a : BitVec 5) (hr : Draws 1 sr (s.core k).lfsr w r) :
    let x := s.core k
    let y : Core := { x with lfsr := w }
    Runs s k { y.sset d (convElem src.toNat dst.toNat x.zp.toNat (x.sget a) (r 0)) with pc := x.pc + 4 }
      (.scvt k d a src dst sr 0) := by
  obtain ⟨rfl, draw⟩ := hr
  intro x y
  have h := s.runs_of_coreStep (exec_scvt s k d a src dst sr 0) (orCause_convCause hs hd _) rfl (Core.active_sset y d _)
  rwa [draw 0 Nat.one_pos, Core.sset_pc] at h

end

/-- Settles O31: each instruction retires with its conversions, and draw j is taken from the state that the j draws before it leave
(R97, R98, R193). -/
theorem conversionResults : Obligations.ConversionResults := by
  unfold Obligations.ConversionResults
  intro s k vd va d a src dst p hs hd c m conv vec state draw
  have sr_draws (n : Nat) : Draws n 1 c.lfsr (state n) (fun j => some (draw j)) := draws_sr n c.lfsr
  clear_value draw state
  refine ⟨?_, ?_, ?_, ?_⟩
  · exact runs_vcvt s k hs hd vd va p (draws_rtz 16 _)
  · exact runs_vcvt s k hs hd vd va p (sr_draws 16)
  · exact runs_scvt s k hs hd d a (r := fun _ => none) (draws_rtz 1 _)
  · have h := runs_scvt s k hs hd d a (sr_draws 1)
    dsimp only at h
    rwa [Core.sset_lfsr] at h

end Sys2Proof.Machine
end

section
/-! Rounding (O33): the generator of draws never holds 0, and RTZ gives the largest representable magnitude not above the exact one. -/

-- As in the tests: a check of the whole text as one file runs out of threads otherwise.
set_option Elab.async false

namespace Sys2Proof.Machine

/-! ### The rounding generator (R95, R96) -/

/-- A step shifts a set bit into the top or drops a clear bit: the register stays other than 0. -/
theorem lfsrStep_ne_zero {x : Word} (h : x ≠ 0) : (lfsrStep x).1 ≠ 0 := by
  have top : (x >>> 1).getLsbD 31 = false := by simp
  unfold lfsrStep
  cases out : x.getLsbD 0 with
  | true =>
    simp only [if_true]
    intro hz
    have := congrArg (BitVec.getLsbD · 31) hz
    rw [BitVec.getLsbD_xor, top] at this
    exact absurd this (by decide)
  | false =>
    simp only [Bool.false_eq_true, if_false]
    intro hz
    apply h
    apply BitVec.eq_of_getLsbD_eq
    intro i hi
    cases i with
    | zero => simpa using out
    | succ i =>
      have := congrArg (BitVec.getLsbD · i) hz
      simpa [Nat.add_comm] using this

theorem lfsrSteps_ne_zero (n : Nat) {x : Word} (d : Nat) (h : x ≠ 0) : (lfsrSteps n x d).1 ≠ 0 := by
  induction n generalizing x d with
  | zero => exact h
  | succ n ih => exact ih _ (lfsrStep_ne_zero h)

/-- R95's first draw. -/
theorem draw16_one : draw16 1 = (0xB6F6B6C3, 0xDB6D) := by decide +kernel

theorem lfsrStore_ne_zero (x : Word) : lfsrStore x ≠ 0 := by
  unfold lfsrStore
  split
  · decide
  · assumption

/-! ### Counts of a unit 2^q -/

/-- The magnitude n × 2^q. -/
def magOf (n : Nat) (q : Int) : Rat := (n : Rat) * (2 : Rat) ^ q

theorem magOf_zero (q : Int) : magOf 0 q = 0 := Rat.zero_mul _

/-- The same magnitude counted in a unit k binary places finer. -/
theorem magOf_add (n : Nat) (q : Int) (k : Nat) : magOf n (q + k) = magOf (n * 2 ^ k) q := by
  have finer : (2 : Rat) ^ (q + (k : Int)) = ((2 ^ k : Nat) : Rat) * (2 : Rat) ^ q :=
    (Rat.zpow_add (by decide) q k).trans ((Rat.mul_comm _ _).trans (congrArg (· * _) (Rat.natCast_pow 2 k).symm))
  have count : ((n * 2 ^ k : Nat) : Rat) = (n : Rat) * ((2 ^ k : Nat) : Rat) := Rat.natCast_mul n (2 ^ k)
  rw [magOf, magOf, finer, count]
  exact (Rat.mul_assoc _ _ _).symm

theorem magOf_mono {a b : Nat} (q : Int) (h : a ≤ b) : magOf a q ≤ magOf b q :=
  Rat.mul_le_mul_of_nonneg_right (Rat.natCast_le_natCast.mpr h) (Rat.zpow_nonneg (by decide))

theorem magOf_lt {a b : Nat} (q : Int) (h : a < b) : magOf a q < magOf b q :=
  Rat.mul_lt_mul_of_pos_right (Rat.natCast_lt_natCast.mpr h) (Rat.zpow_pos (by decide))

/-- Counts of one unit are ordered as a magnitude between them says. -/
theorem lt_of_magOf_between {a b : Nat} {q : Int} {v : Rat} (lo : magOf a q ≤ v) (hi : v < magOf b q) : a < b :=
  Nat.not_le.mp (fun h => Rat.not_le.mpr hi (Rat.le_trans (magOf_mono q h) lo))

/-! ### Codes of a floating-point format (R89) -/

/-- What the six formats share: the largest finite code has no sign bit and lies below the infinity, and its exponent is at most
the bias plus 1. -/
def FloatFmt.Sound (f : FloatFmt) : Prop :=
  f.top < 2 ^ (f.e + f.m) ∧ f.top < f.inf.getD (2 ^ (f.e + f.m)) ∧ f.top ≤ (2 * f.bias + 2) * 2 ^ f.m

theorem floatFmt_sound : ∀ c ∈ [fmtFP4, fmtE4M3, fmtE5M2, fmtBF16, fmtFP16, fmtFP32], (floatFmt c).Sound := by
  unfold FloatFmt.Sound
  decide

/-- The significand of code n, as if every code were finite. -/
def FloatFmt.sig (f : FloatFmt) (n : Nat) : Nat := if n / 2 ^ f.m = 0 then n % 2 ^ f.m else n % 2 ^ f.m + 2 ^ f.m

/-- The exponent of the significand's unit in code n. -/
def FloatFmt.unitExp (f : FloatFmt) (n : Nat) : Int :=
  if n / 2 ^ f.m = 0 then 1 - (f.bias : Int) - f.m else ((n / 2 ^ f.m : Nat) : Int) - f.bias - f.m

/-- The magnitude of code n, as if every code were finite. -/
def FloatFmt.mag (f : FloatFmt) (n : Nat) : Rat := magOf (f.sig n) (f.unitExp n)

/-- A code up to the largest finite one has its significand and exponent as value, and sign +. -/
theorem floatVal_finite {f : FloatFmt} (hf : f.Sound) {n : Nat} (h : n ≤ f.top) :
    floatVal f n = .fin false (f.sig n) (f.unitExp n) := by
  obtain ⟨hsign, hinf, _⟩ := hf
  have hn : n < 2 ^ (f.e + f.m) := by omega
  have notInf : ¬some n = f.inf := by
    intro e
    rw [← e, Option.getD_some] at hinf
    omega
  unfold floatVal FloatFmt.sig FloatFmt.unitExp
  simp only [Nat.mod_eq_of_lt hn, Nat.testBit_lt_two_pow hn, if_neg notInf, if_neg (Nat.not_lt.mpr h)]
  split <;> rfl

/-- A code is a count of units of its binade: a binades above the lowest, K units, the first K of the next binade included. -/
theorem FloatFmt.mag_binade (f : FloatFmt) (a K : Nat) (hK : K ≤ 2 * 2 ^ f.m) (ha : a = 0 ∨ 2 ^ f.m ≤ K) :
    f.mag (a * 2 ^ f.m + K) = magOf K (1 - (f.bias : Int) + a - f.m) := by
  have pos : 0 < 2 ^ f.m := Nat.two_pow_pos _
  unfold FloatFmt.mag FloatFmt.sig FloatFmt.unitExp
  by_cases sub : K < 2 ^ f.m
  · obtain rfl : a = 0 := by omega
    rw [Nat.zero_mul, Nat.zero_add, Nat.div_eq_of_lt sub, Nat.mod_eq_of_lt sub, if_pos rfl, if_pos rfl]
    congr 1
    omega
  · obtain ⟨r, rfl⟩ := Nat.exists_eq_add_of_le (Nat.not_lt.mp sub)
    have code : a * 2 ^ f.m + (2 ^ f.m + r) = r + 2 ^ f.m * (a + 1) := by
      rw [Nat.mul_comm, Nat.mul_succ]
      omega
    have normal : r / 2 ^ f.m + (a + 1) ≠ 0 := Nat.succ_ne_zero _
    rw [code, Nat.add_mul_div_left _ _ pos, Nat.add_mul_mod_self_left, if_neg normal, if_neg normal]
    rcases Nat.lt_or_eq_of_le (show r ≤ 2 ^ f.m by omega) with below | next
    · rw [Nat.div_eq_of_lt below, Nat.mod_eq_of_lt below, Nat.add_comm r]
      congr 1
      omega
    · rw [next, Nat.div_self pos, Nat.mod_self, Nat.zero_add,
        show ((1 + (a + 1) : Nat) : Int) - f.bias - f.m = 1 - f.bias + a - f.m + (1 : Nat) by omega, magOf_add,
        Nat.pow_one, Nat.mul_two]

/-- The next code is greater. -/
theorem FloatFmt.mag_lt_succ (f : FloatFmt) (n : Nat) : f.mag n < f.mag (n + 1) := by
  have pos : 0 < 2 ^ f.m := Nat.two_pow_pos _
  obtain ⟨a, K, rfl, hK, ha⟩ : ∃ a K, n = a * 2 ^ f.m + K ∧ K < 2 * 2 ^ f.m ∧ (a = 0 ∨ 2 ^ f.m ≤ K) := by
    have split := Nat.div_add_mod' n (2 ^ f.m)
    have low := Nat.mod_lt n pos
    cases h : n / 2 ^ f.m with
    | zero => exact ⟨0, n % 2 ^ f.m, by rw [h] at split; omega, by omega, .inl rfl⟩
    | succ a =>
      refine ⟨a, 2 ^ f.m + n % 2 ^ f.m, ?_, by omega, .inr (Nat.le_add_right _ _)⟩
      rw [h, Nat.succ_mul] at split
      omega
  rw [Nat.add_assoc, f.mag_binade a K (by omega) ha, f.mag_binade a (K + 1) (by omega) (by omega)]
  exact magOf_lt _ (Nat.lt_succ_self K)

theorem FloatFmt.mag_mono (f : FloatFmt) {a b : Nat} (h : a ≤ b) : f.mag a ≤ f.mag b := by
  induction h with
  | refl => exact Rat.le_refl
  | step _ ih => exact Rat.le_trans ih (Rat.le_of_lt (f.mag_lt_succ _))

/-! ### Rounding toward zero (R93) -/

/-- A magnitude reaches its leading bit. -/
theorem magOf_leadExp_le {m : Nat} (e : Int) (h : m ≠ 0) : magOf 1 (leadExp m e) ≤ magOf m e := by
  rw [leadExp, Int.add_comm, magOf_add, Nat.one_mul]
  exact magOf_mono e (Nat.log2_self_le h)

/-- A magnitude lies below each power of two above its leading bit. -/
theorem magOf_lt_of_leadExp_le {m : Nat} {e b : Int} (h : leadExp m e ≤ b) : magOf m e < magOf 1 (b + 1) := by
  obtain ⟨n, rfl⟩ := Int.le.dest h
  rw [leadExp, show (m.log2 : Int) + e + n + 1 = e + ((m.log2 + 1 + n : Nat) : Int) by omega, magOf_add, Nat.one_mul]
  exact magOf_lt e (Nat.lt_of_lt_of_le Nat.lt_log2_self (Nat.pow_le_pow_right Nat.two_pos (Nat.le_add_right _ _)))

/-- RTZ in units of 2^q gives the largest number of units not above the magnitude. -/
theorem roundMag_rtz (m : Nat) (e q : Int) :
    magOf (roundMag m e q none) q ≤ magOf m e ∧ magOf m e < magOf (roundMag m e q none + 1) q := by
  unfold roundMag scaleTo
  by_cases h : q ≤ e
  · obtain ⟨n, rfl⟩ := Int.le.dest h
    have finer : q + (n : Int) - q = n := by omega
    simp only [if_pos h, finer, Int.toNat_natCast, Nat.shiftLeft_eq, magOf_add]
    exact ⟨Rat.le_refl, magOf_lt q (Nat.lt_succ_self _)⟩
  · obtain ⟨n, rfl⟩ := Int.le.dest (Int.le_of_not_le h)
    have coarser : e + (n : Int) - e = n := by omega
    simp only [if_neg h, coarser, Int.toNat_natCast, Nat.shiftRight_eq_div_pow, magOf_add]
    exact ⟨magOf_mono e (Nat.div_mul_le_self _ _),
      magOf_lt e (Nat.lt_mul_of_div_lt (Nat.lt_succ_self _) (Nat.two_pow_pos n))⟩

/-! ### Conversion to a floating-point format (R93, R98) -/

/-- The exponent of the code's binade: of the leading bit, but not below the lowest. -/
def FloatFmt.binade (f : FloatFmt) (m : Nat) (e : Int) : Int := max (leadExp m e) (1 - f.bias)

theorem FloatFmt.binade_eq (f : FloatFmt) (m : Nat) (e : Int) :
    f.binade m e = 1 - f.bias + ((f.binade m e - (1 - f.bias)).toNat : Int) := by
  unfold FloatFmt.binade
  omega

/-- In its binade a magnitude rounds to fewer than 2^(m+1) units, and to at least 2^m above the lowest binade. -/
theorem FloatFmt.roundMag_binade (f : FloatFmt) {m : Nat} (e : Int) (h : m ≠ 0) :
    roundMag m e (f.binade m e - f.m) none < 2 * 2 ^ f.m
    ∧ (f.binade m e = 1 - f.bias ∨ 2 ^ f.m ≤ roundMag m e (f.binade m e - f.m) none) := by
  obtain ⟨lo, hi⟩ := roundMag_rtz m e (f.binade m e - f.m)
  have units (n : Nat) : magOf 1 (f.binade m e + n) = magOf (2 ^ (f.m + n)) (f.binade m e - f.m) := by
    rw [show f.binade m e + n = f.binade m e - f.m + ((f.m + n : Nat) : Int) by omega, magOf_add, Nat.one_mul]
  constructor
  · have top := magOf_lt_of_leadExp_le (show leadExp m e ≤ f.binade m e from Int.le_max_left _ _)
    rw [Nat.mul_comm, ← Nat.pow_succ]
    exact lt_of_magOf_between lo ((units 1).symm ▸ top)
  · rcases Int.le_total (leadExp m e) (1 - f.bias) with sub | normal
    · exact .inl (Int.max_eq_right sub)
    · right
      have binade : f.binade m e = leadExp m e := Int.max_eq_left normal
      have lead : magOf 1 (f.binade m e + (0 : Nat)) ≤ magOf m e := by
        rw [Int.natCast_zero, Int.add_zero, binade]
        exact magOf_leadExp_le e h
      rw [units 0] at lead
      exact Nat.le_of_lt_succ (lt_of_magOf_between lead hi)

/-- The code of a magnitude before saturation. -/
def FloatFmt.rtzCode (f : FloatFmt) (m : Nat) (e : Int) : Nat :=
  (f.binade m e - (1 - f.bias)).toNat * 2 ^ f.m + roundMag m e (f.binade m e - f.m) none

/-- Before saturation the code's magnitude is not above the exact one, and the next code's is. -/
theorem FloatFmt.mag_rtzCode (f : FloatFmt) {m : Nat} (e : Int) (h : m ≠ 0) :
    f.mag (f.rtzCode m e) ≤ magOf m e ∧ magOf m e < f.mag (f.rtzCode m e + 1) := by
  obtain ⟨lo, hi⟩ := roundMag_rtz m e (f.binade m e - f.m)
  obtain ⟨hK, normal⟩ := f.roundMag_binade e h
  have lowest : (f.binade m e - (1 - f.bias)).toNat = 0 ∨ 2 ^ f.m ≤ roundMag m e (f.binade m e - f.m) none :=
    normal.imp_left (fun lowest => by rw [lowest, Int.sub_self, Int.toNat_zero])
  rw [FloatFmt.rtzCode, Nat.add_assoc, f.mag_binade _ _ (Nat.le_of_lt hK) lowest,
    f.mag_binade _ _ hK (lowest.imp_right Nat.le_succ_of_le), ← f.binade_eq]
  exact ⟨lo, hi⟩

/-- RTZ of a magnitude other than 0 saturates its code at the largest finite one. -/
theorem floatMag_rtz {f : FloatFmt} (hf : f.Sound) {m : Nat} (e : Int) (h : m ≠ 0) :
    floatMag f m e none = min f.top (f.rtzCode m e) := by
  obtain ⟨_, _, htop⟩ := hf
  unfold floatMag
  rw [if_neg h]
  by_cases big : (f.bias : Int) + 2 < f.binade m e
  · have : (2 * f.bias + 2) * 2 ^ f.m ≤ f.rtzCode m e :=
      Nat.le_trans (Nat.mul_le_mul_right _ (by omega)) (Nat.le_add_right _ _)
    exact (if_pos big).trans (Nat.min_eq_left (Nat.le_trans htop this)).symm
  · exact if_neg big

theorem floatMag_le_top {f : FloatFmt} (hf : f.Sound) (m : Nat) (e : Int) : floatMag f m e none ≤ f.top := by
  by_cases h : m = 0
  · rw [floatMag, if_pos h]
    exact Nat.zero_le _
  · rw [floatMag_rtz hf e h]
    exact Nat.min_le_left _ _

theorem FloatFmt.mag_zero (f : FloatFmt) : f.mag 0 = 0 := by
  rw [FloatFmt.mag, FloatFmt.sig, Nat.zero_div, if_pos rfl, Nat.zero_mod, magOf_zero]

/-- RTZ gives the code of largest magnitude not above the exact one (R93). -/
theorem mag_floatMag {f : FloatFmt} (hf : f.Sound) (m : Nat) (e : Int) :
    f.mag (floatMag f m e none) ≤ magOf m e
    ∧ (floatMag f m e none < f.top → magOf m e < f.mag (floatMag f m e none + 1)) := by
  by_cases h : m = 0
  · subst h
    rw [floatMag, if_pos rfl, magOf_zero]
    exact ⟨f.mag_zero ▸ Rat.le_refl, fun _ => f.mag_zero ▸ f.mag_lt_succ 0⟩
  · obtain ⟨lo, hi⟩ := f.mag_rtzCode e h
    rw [floatMag_rtz hf e h]
    refine ⟨Rat.le_trans (f.mag_mono (Nat.min_le_right _ _)) lo, fun below => ?_⟩
    rwa [Nat.min_eq_right (by omega)]

/-- Settles O33: no step empties the generator (R95, R96); the code before saturation counts the units of its binade that the exact
magnitude holds, and codes rise with their magnitudes (R93). -/
theorem roundingResults : Obligations.RoundingResults := by
  unfold Obligations.RoundingResults
  refine ⟨⟨draw16_one, fun x => lfsrSteps_ne_zero 16 0, lfsrStore_ne_zero, fun i k => lfsrStore_ne_zero _⟩, ?_⟩
  intro c hc neg m e f k mag
  have hf : f.Sound := floatFmt_sound c hc
  have mag_eq (n : Nat) (hn : n ≤ f.top) : mag n = f.mag n := by
    simp only [mag, floatVal_finite hf hn, FloatFmt.mag, magOf]
  have hk : k ≤ f.top := floatMag_le_top hf m e
  obtain ⟨lo, hi⟩ := mag_floatMag hf m e
  refine ⟨rfl, hk, ?_, fun below => ?_⟩
  · rwa [mag_eq k hk]
  · rw [mag_eq (k + 1) below]
    exact hi below

end Sys2Proof.Machine
end

section
/-! Epilogues (O18): a token whose place in tile SRAM lies in the window of its row, where a column is mapped to a physical column
that does not exist. -/

-- As in the tests: a check of the whole text as one file runs out of threads otherwise.
set_option Elab.async false

namespace Sys2Proof.Machine

/-! ### An epilogue that sends its token (R115, R131, R145) -/

theorem State.clean.sound {s : State} (h : s.clean) (a n : Nat) : s.sound a n := by
  obtain ⟨_, hu, hp⟩ := h
  exact ⟨fun w _ => by rw [hu]; rfl, by rw [State.poisoned, hp]; rfl⟩

/-- An epilogue on sound memories meets no error. -/
theorem State.epiRead_of_clean {s : State} (h : s.clean) (e : Nat) (d : Descr) : s.epiRead e d = (s, false) := by
  simp only [State.epiRead, s.secded_of_sound _ _ _ (h.sound _ _), Bool.or_self]

/-- The state once epilogue `x` has left engine e and its row is written, with the row's window and 64-byte unit. -/
def State.epiPlaced (s : State) (e i : Nat) (x : Epi) (xs : List Epi) : State × Nat × Nat :=
  (s.modEngine e (fun g => { g with epis := xs })).placePayload i e x.d.outQueue (s.epiRow (s.engPhys e) x.d x.eBase).2

/-- The data token of the row that `v` has placed (R157, R158). -/
def State.epiToken (s : State) (e : Nat) (x : Epi) (v : State × Nat × Nat) : Entry :=
  dataToken 0 (BitVec.ofNat 5 x.d.outFmt) (BitVec.ofNat 8 (s.epiRow (s.engPhys e) x.d x.eBase).1)
    (v.1.engFlags e x.d.line x.flags x.tainted) false 64 x.d.line x.d.outFirst x.d.outCount v.2.1 v.2.2 s.now

/-- The oldest epilogue of a live instance writes its row, sends its token to a token queue with room, and completes. -/
theorem exec_epilogue_live {s : State} {e i q : Nat} {x : Epi} {xs : List Epi} {v : State × Nat × Nat} (hclean : s.clean)
    (hepis : (s.engine e).epis = x :: xs) (howner : s.engOwner e = some i) (hq : s.localQueue i x.d.outQueue = some q)
    (hroom : (s.queue q).full = false) (hplaced : s.epiPlaced e i x xs = v) (hlive : (v.1.inst i).live = true)
    (hfull : (v.1.queue q).full = false) (hkind : (v.1.queue q).qkind = qToken) :
    exec (.epilogue e) s = .next ((v.1.pushToken q (s.epiToken e x v)).engDone e x.d x.d.notify x.d.notifyQ) := by
  subst hplaced
  have hpush (t : Entry) : (s.epiPlaced e i x xs).1.pushWait q t = some ((s.epiPlaced e i x xs).1.pushToken q t) := by
    simp [State.pushWait, hfull, hkind]
  unfold State.epiPlaced at hpush hlive
  simp only [exec_epilogue, execEpilogue, hepis, howner, hq, hroom, s.epiRead_of_clean hclean, State.engPoison, Bool.false_and,
    Bool.or_false, Bool.not_false, if_true, if_false, Bool.false_eq_true, hlive, hpush]
  rfl

/-- In a line buffer with room for one row a row has one place, whatever the free values are (R74). -/
theorem State.placePayload_only {s : State} {i e l : Nat} {bs : List Byte} {d : StageDesc} {g : EdgeDesc}
    (hedge : s.edgeOf i l = some (d, g)) (hsize : s.windowSize i g.window = g.base + bs.length) :
    s.placePayload i e l bs
      = (({ s with free := s.free + 2 } : State).writeRow i (some d) g.window (g.base / 64) bs, g.window, g.base / 64) := by
  have hplace (t : State) (x : Nat) (ht : t.edgeOf i l = s.edgeOf i l) : t.rowPlace i e l x = (some d, g.window, g.base) := by
    rw [State.rowPlace, ht, hedge]
  have hunit (x : Nat) : unitIn (g.base + bs.length) g.base bs.length x = g.base / 64 := by
    rw [unitIn, Nat.add_sub_cancel_left, Nat.sub_self, Nat.zero_div, Nat.mod_one, Nat.add_zero]
  simp only [State.placePayload, hplace _ _ (by rfl), hsize, hunit]
  rfl

/-! ### The state that refutes -/

/-- The edge of local queue 0: its line buffer is the last 64 bytes of window 0. -/
def lastUnitEdge : EdgeDesc :=
  { producer := 0, h := 0, camera := false, back := 0, ahead := 0, rows := 1, queue := 0, chunkPx := 0, window := 0, base := 0xFFC0 }

/-- The stage that reads it. -/
def lastUnitStage : StageDesc :=
  { id := 0, adaptable := false, paged := false, chained := false, output := false, crop := false, depth := 0, rate := 1, phase := 0
    offset := 0, epochMode := 0, padRule := 0, padConst := 0, workCycles := 1, engines := 1, columns := 1, cores := 0
    edges := [lastUnitEdge] }

/-- An image of that stage alone. -/
def lastUnitImage : Image :=
  { imageId := 1, tileDiv := 0, engines := 0, columns := 0, cores := 0, tags := 0, recordMib := 0, windows := [], queues := []
    allowances := [], stages := [lastUnitStage], programs := [], weights := [], addrProgs := [], keepEngines := 0, keepTiles := 0
    keepCores := 0, pmin := 1000, brake := 0, floor := 0, m := 0, repairs := [], plan := none }

/-- An epilogue of one INT8 pixel, line 9, for local queue 0. -/
def onePixelEpi : Epi :=
  { d := { words := [BitVec.ofNat 64 (fmtINT8 * 2 ^ 30)], seq := 0, core := 0, line := 9 }, eBase := 0, tainted := false, flags := 0 }

/-- Instance 0 runs, with engine 0 and the first 64 KiB of bulk die 0 as its window 0. Token queue 18 is in slot 0 of row 3 of
column 0, which the map gives to physical column 512: the device has no such column. -/
def strayColumn : State :=
  { ((State.reset.wr (Reg.INS_I_ENGINES_LO 0) 1).wr (Reg.INS_W_MATCH 0) 0x80000000).wr (Reg.INS_W_PLACE 0) 1 with
    engines := [(0, { epis := [onePixelEpi] })]
    insts := [(0, { st := .running, image := some lastUnitImage })]
    queues := [(18, { cfg := 0x20000, assign := 0x80000000, localId := some 0 })]
    flt := { colMap := [(0, 512)] } }

/-- Window 0 of the instance. -/
def strayWindow : Win := { valid := true, owner := 0, id := 0, die := 0, base := 0, size := 0x10000, access := 0 }

/-- The place of the queue's first token is the line buffer. -/
theorem strayColumn_slot :
    strayColumn.tileAddr (queueCol 18) (queueRow 18) (strayColumn.slotAddr 18 0) = memAddr .bulk 0 0xFFC0 := by
  decide +kernel

/-- The row is 64 bytes of 0. -/
theorem strayColumn_row :
    (strayColumn.epiRow (strayColumn.engPhys 0) onePixelEpi.d onePixelEpi.eBase).2 = List.replicate 64 0 := by
  decide +kernel

/-- The state once the row stands in the line buffer. -/
def strayPlaced : State :=
  ({ strayColumn.modEngine 0 (fun g => { g with epis := [] }) with free := 2 } : State).writeRow 0 (some lastUnitStage) 0 0x3FF
    (List.replicate 64 0)

theorem strayColumn_placed : strayColumn.epiPlaced 0 0 onePixelEpi [] = (strayPlaced, 0, 0x3FF) := by
  rw [State.epiPlaced, strayColumn_row]
  rw [State.placePayload_only (d := lastUnitStage) (g := lastUnitEdge) (by decide +kernel) (by decide +kernel)]
  rfl

/-- The epilogue's token names unit 0x3FF, and its own first byte, of the line, stands there. -/
theorem strayColumn_epilogue : ∃ u, exec (.epilogue 0) strayColumn = .next u
    ∧ (u.queue 18).entries.map Entry.offset = [0x3FF]
    ∧ u.rdByte (strayColumn.tileAddr (queueCol 18) (queueRow 18) (strayColumn.slotAddr 18 0)) = 9 := by
  refine ⟨_, exec_epilogue_live (q := 18) ⟨rfl, rfl, rfl⟩ rfl (by decide +kernel) (by decide +kernel) (by decide +kernel)
    strayColumn_placed (by decide +kernel) (by decide +kernel) (by decide +kernel), ?_, ?_⟩
  · decide +kernel
  · decide +kernel

/-- Refutes O18: the bytes of a row need not stand in the line buffer that its token names. In `strayColumn` a token queue's column
is mapped to physical column 512, whose tile SRAM has the linear addresses of bulk die 0, so the token itself (R221) is stored over
the row. No command maps a column there; the statement ranges over every state and has no hypothesis that keeps the column of the
queue among the 66 of the device. -/
theorem not_epilogueAndFill : ¬ Obligations.EpilogueAndFill := by
  unfold Obligations.EpilogueAndFill
  intro h
  obtain ⟨u, hu, hoffset, hbyte⟩ := strayColumn_epilogue
  obtain ⟨epilogue, _⟩ := h strayColumn 0 0 ⟨rfl, rfl, rfl⟩ (by decide +kernel)
  obtain ⟨_, live⟩ := epilogue onePixelEpi [] 18 rfl (by decide +kernel) (by decide +kernel) (by decide +kernel) (by decide +kernel)
    (by decide +kernel)
  obtain ⟨u', t, ⟨hu', _⟩, hentries, _, _, _, _, _, _, _, _, _, _, place, _⟩ := live (by decide +kernel)
  obtain rfl : u = u' := by injection hu.symm.trans hu'
  have ht : t.offset = 0x3FF := by
    rw [hentries] at hoffset
    exact List.head_eq_of_cons_eq hoffset
  obtain ⟨_, _, hrow⟩ := place lastUnitStage lastUnitEdge strayWindow (by decide +kernel) (by decide) (by decide +kernel)
    (by rw [strayColumn_row]; decide)
  rw [ht, strayColumn_row] at hrow
  have hzero : u.rdByte (memAddr .bulk 0 0xFFC0) = 0 := List.head_eq_of_cons_eq hrow
  rw [strayColumn_slot, hzero] at hbyte
  exact absurd hbyte (by decide)

end Sys2Proof.Machine
end
